-- ==== Sys2Proof/Word.lean ====
section
/-!
DEFINITION. The word, the byte and the name of a register field, with the plainest arithmetic on them.
-/

namespace Sys2Proof

/-- A register word (rule R32: data is handled in 32-bit registers). -/
abbrev Word := BitVec 32

/-- One byte. -/
abbrev Byte := BitVec 8

/-- A field of a register: the register's address, the lowest bit and the width in bits. -/
structure Fld where
  addr : Nat
  lo : Nat
  w : Nat
deriving DecidableEq, Repr

/-- The value of bits `lo … lo + w - 1` of `x`. -/
def bits (x lo w : Nat) : Nat := x / 2 ^ lo % 2 ^ w

/-- Bit `i` of `x`. -/
def bitOf (x i : Nat) : Bool := x / 2 ^ i % 2 == 1

/-- `x` as a signed number of `w` bits. -/
def signed (w x : Nat) : Int := if x % 2 ^ w < 2 ^ (w - 1) then (x % 2 ^ w : Nat) else ((x % 2 ^ w : Nat) : Int) - (2 ^ w : Nat)

/-- The `w`-bit word of a whole number, wrapping. -/
def unsigned (w : Nat) (x : Int) : Nat := (x % ((2 ^ w : Nat) : Int)).toNat

/-- Little-endian bytes of `v`, `n` of them (rule R2). -/
def leBytes : Nat → Nat → List Byte
  | 0, _ => []
  | n + 1, v => BitVec.ofNat 8 v :: leBytes n (v / 256)

/-- The number that little-endian bytes stand for (rule R2). -/
def ofLe : List Byte → Nat
  | [] => 0
  | b :: r => b.toNat + 256 * ofLe r

/-- Big-endian bytes of `v`, `n` of them: the order of the cited standards (rule R2). -/
def beBytes (n v : Nat) : List Byte := (leBytes n v).reverse

/-- The number that big-endian bytes stand for. -/
def ofBe (l : List Byte) : Nat := ofLe l.reverse

/-- Bytes `off … off + n - 1` of `l` as a little-endian number. -/
def fieldAt (l : List Byte) (off n : Nat) : Nat := ofLe ((l.drop off).take n)

/-- `l` with the bytes from `off` on replaced by `b`. -/
def putAt (l : List Byte) (off : Nat) (b : List Byte) : List Byte :=
  l.take off ++ b ++ l.drop (off + b.length)

/-- The number of ones in the low `w` bits of `x`. -/
def ones : Nat → Nat → Nat
  | 0, _ => 0
  | w + 1, x => x % 2 + ones w (x / 2)

end Sys2Proof
end

