-- ==== Sys2Proof/Machine/Air.lean ====
section
/-!
DEFINITION. Air formats (chapter 05): check sequences, PHR fields, durations, MAC headers, security headers and IEs. All of it
is arithmetic on octets, without a state.
-/

namespace Sys2Proof.Machine

/-! ### Check sequences (rules R158 and R508) -/

/-- One bit of a reflected CRC register. -/
def crcBit (poly r : Nat) (b : Bool) : Nat :=
  let x := (r % 2 == 1) != b
  if x then (r / 2) ^^^ poly else r / 2

/-- One octet, least significant bit first, into a reflected CRC register. -/
def crcOctet (poly r : Nat) (o : Byte) : Nat :=
  (List.range 8).foldl (fun r i => crcBit poly r (bitOf o.toNat i)) r

/-- A reflected CRC over octets from an initial value. -/
def crcOf (poly init : Nat) (l : List Byte) : Nat := l.foldl (crcOctet poly) init

/-- The 16-bit CRC of IEEE 802.15.4-2020, polynomial x^16 + x^12 + x^5 + 1, from an initial value. -/
def crc16 (init : Nat) (l : List Byte) : Nat := crcOf 0x8408 init l

/-- The 32-bit CRC of IEEE 802.3. -/
def crc32 (l : List Byte) : Nat := crcOf 0xEDB88320 0xFFFFFFFF l ^^^ 0xFFFFFFFF

/-- The FCS octets of a PSDU without its FCS, in the order sent: 2 or 4 of them. -/
def fcsOf (two : Bool) (l : List Byte) : List Byte := if two then leBytes 2 (crc16 0 l) else leBytes 4 (crc32 l)

/-- Does the FCS at the end of a whole PSDU match? -/
def fcsOk (two : Bool) (psdu : List Byte) : Bool :=
  let n := psdu.length - (if two then 2 else 4)
  psdu.drop n == fcsOf two (psdu.take n)

/-- The HCS of a SUN OFDM PHR over its bits 0 to 21 (rule R508), the register after bit 21. -/
def hcsOf (phr : Nat → Bool) : Nat :=
  (List.range 22).foldl (fun r n =>
    let f := phr n != bitOf r 7
    let r := r * 2 % 256
    if f then r ^^^ 0x07 else r) 0xFF

/-- The bits in which two words differ. -/
def bitErrs (a b : Nat) : Nat := ones 32 (a ^^^ b)

/-! ### PHR fields (rule R153, Table 05-3) -/

/-- PHR bit `n`: bit `n mod 8` of PHR octet `n / 8`. -/
def phrBit (phr : List Byte) (n : Nat) : Bool := bitOf ((phr[n / 8]?).getD 0).toNat (n % 8)

/-- A field whose most significant bit is its lowest-numbered PHR bit. -/
def phrMsb (phr : List Byte) (lo w : Nat) : Nat :=
  (List.range w).foldl (fun x i => 2 * x + (if phrBit phr (lo + i) then 1 else 0)) 0

/-- Is the MCS valid for the OFDM option (Table 05-2)? -/
def mcsValid (opt mcs : Nat) : Bool :=
  match opt with
  | 1 => decide (mcs ≤ 3)
  | 2 => decide (mcs ≤ 5)
  | 3 => decide (1 ≤ mcs) && decide (mcs ≤ 6)
  | 4 => decide (2 ≤ mcs) && decide (mcs ≤ 6)
  | _ => false

/-- The data rate of an OFDM option and MCS in kb/s (Table 05-2). -/
def ofdmRate (opt mcs : Nat) : Nat :=
  match opt, mcs with
  | 1, 0 => 100 | 1, 1 => 200 | 1, 2 => 400 | 1, 3 => 800
  | 2, 0 => 50 | 2, 1 => 100 | 2, 2 => 200 | 2, 3 => 400 | 2, 4 => 600 | 2, 5 => 800
  | 3, 1 => 50 | 3, 2 => 100 | 3, 3 => 200 | 3, 4 => 300 | 3, 5 => 400 | 3, 6 => 600
  | 4, 2 => 50 | 4, 3 => 100 | 4, 4 => 150 | 4, 5 => 200 | 4, 6 => 300
  | _, _ => 0

/-- The lowest data rate of an OFDM option: the rate of its PHR. -/
def ofdmLow (opt : Nat) : Nat := if opt = 1 then 100 else 50

/-- SUN FSK symbol rate in ksymbol/s of a RATE code; 5 to 7 act as 1 (Table 04-10). -/
def fskRate (code : Nat) : Nat :=
  match code with
  | 0 => 50
  | 2 => 150
  | 3 => 200
  | 4 => 300
  | _ => 100

/-- What a PHR says: PSDU length, 2-octet FCS, whitening, MCS; none where its check fails (Table 05-3). `tail` tells that
the tail bits of a coded FSK PHR decoded to zeros. -/
def phrCheck (mode : Nat) (coded tail : Bool) (phr : List Byte) : Option (Nat × Bool × Bool × Nat) :=
  match mode with
  | 0 =>
    let two := phrBit phr 3
    let len := phrMsb phr 5 11
    if !phrBit phr 0 && decide ((if two then 2 else 4) + 2 ≤ len) && (!coded || tail) then
      some (len, two, phrBit phr 4, 0) else none
  | 1 =>
    let len := ((phr[0]?).getD 0).toNat % 128
    if 4 ≤ len then some (len, true, false, 0) else none
  | _ =>
    let len := phrMsb phr 6 11
    if hcsOf (phrBit phr) = phrMsb phr 22 8 ∧ 6 ≤ len then some (len, false, false, phrMsb phr 0 5) else none

/-! ### Durations -/

/-- Quotient rounded up. -/
def ceilDiv (a b : Nat) : Nat := (a + b - 1) / b

/-- Quotient rounded to the nearest whole number. -/
def nearDiv (a b : Nat) : Nat := (2 * a + b) / (2 * b)

/-- Bits of a coded SUN FSK frame of `n` octets of PHR and PSDU before coding: 3 tail bits and the pad bits that complete a
block of 16 symbols (rule R155; assumption log 6). -/
def fskCodedBits (n : Nat) : Nat := ceilDiv (8 * n + 3) 16 * 16

/-- Symbols of PHR and PSDU of a SUN FSK frame. -/
def fskBody (four coded : Bool) (psdu : Nat) : Nat :=
  let b := if coded then 2 * fskCodedBits (2 + psdu) else 16 + 8 * psdu
  if four then ceilDiv b 2 else b

/-- OFDM symbols of `n` bits at `kbps`, an OFDM symbol lasting 120 us. -/
def ofdmSyms (n kbps : Nat) : Nat := ceilDiv (1000 * n) (120 * kbps)

/-- Duration of PHR and PSDU of a frame in counts of 125 ns, times 300 so that it is whole for every symbol rate. -/
def bodyTicks (mode a psdu : Nat) : Nat :=
  match mode with
  | 0 => fskBody (bitOf a 3) (bitOf a 4) psdu * (300 * 8000 / fskRate (a % 8))
  | 1 => (2 + 2 * psdu) * 128 * 300
  | _ => (ofdmSyms 36 (ofdmLow (a % 8)) + ofdmSyms (8 * psdu + 6) (ofdmRate (a % 8) (bits a 4 3))) * 960 * 300

/-- The reference point after the first symbol (Table 05-10), in counts of 125 ns times 300. -/
def refTicks (mode a preamble syncBits : Nat) : Nat :=
  match mode with
  | 0 => (8 * preamble + syncBits) * (300 * 8000 / fskRate (a % 8))
  | 1 => 1280 * 300
  | _ => 5760 * 300

/-- Table 05-10 in counts, rounded to the nearest. -/
def refOffset (mode a preamble syncBits : Nat) : Nat := nearDiv (refTicks mode a preamble syncBits) 300

/-- Airtime from t_s to the end of the last symbol in counts, rounded up. -/
def airCounts (mode a preamble syncBits psdu : Nat) : Nat :=
  ceilDiv (refTicks mode a preamble syncBits + bodyTicks mode a psdu) 300

/-- Sync bits of a LEN code: 16, 24 or 32; 3 acts as 2. -/
def syncLen (code : Nat) : Nat := if code = 0 then 16 else if code = 1 then 24 else 32

/-- The octets of a PSDU received `t` counts after the reference point of Table 04-2: what the symbols since then carry after
the PHR, blocks of 16 symbols whole where they are interleaved. `a` is laid out as PHY_A of Table 05-8. -/
def octetsBy (mode a t : Nat) : Nat :=
  match mode with
  | 0 =>
    let raw := t * fskRate (a % 8) / 8000 * (if bitOf a 3 then 2 else 1)
    let b := if !bitOf a 4 then raw else if bitOf a 6 then raw / 32 * 16 else raw / 2
    (b - 16) / 8
  | 1 => t / 256 - 1
  | _ => (t / 960 - ofdmSyms 36 (ofdmLow (a % 8))) * 120 * ofdmRate (a % 8) (bits a 4 3) / 1000 / 8

/-! ### Frames as they are sent (rules R153 to R155, R158 and R508) -/

/-- The low `w` bits of `v`, most significant first. -/
def msbBits : Nat → Nat → List Bool
  | 0, _ => []
  | w + 1, v => bitOf v w :: msbBits w v

/-- Octets as bits, each least significant bit first (rule R153). -/
def octetBits (l : List Byte) : List Bool := l.flatMap fun o => (List.range 8).map (bitOf o.toNat)

/-- The PHR of a frame in the order sent: `a` and `b` are PHY_A and PHY_B of the descriptor, `two` asks for the 2-octet FCS
(Table 05-3). The OFDM PHR carries the HCS of rule R508 and six tail bits of 0. -/
def phrSent (mode a b : Nat) (two : Bool) (len : Nat) : List Bool :=
  match mode with
  | 0 => [false, false, false, two, bitOf a 7] ++ msbBits 11 len
  | 1 => (List.range 7).map (bitOf len) ++ [false]
  | _ =>
    let h := msbBits 5 (bits a 4 3) ++ [false] ++ msbBits 11 len ++ [false, false] ++ msbBits 2 b ++ [false]
    h ++ msbBits 8 (hcsOf fun n => (h[n]?).getD false) ++ List.replicate 6 false

/-- The PN9 sequence with seed 0x1FF added to bits (rule R155); the taps are those of IEEE 802.15.4-2020 (assumption log 6). -/
def pn9 : Nat → List Bool → List Bool
  | _, [] => []
  | r, x :: l =>
    let y := bitOf r 8 != bitOf r 3
    (x != y) :: pn9 ((2 * r + if y then 1 else 0) % 512) l

/-- Bits packed into octets, least significant first. -/
def packBits (l : List Bool) : List Byte :=
  (List.range (l.length / 8)).map fun i =>
    BitVec.ofNat 8 ((List.range 8).foldl (fun x k => x + if (l[8 * i + k]?).getD false then 2 ^ k else 0) 0)

/-- PSDU octets with the whitening of rule R155 put on or taken off. -/
def whiten (on : Bool) (l : List Byte) : List Byte := if on then packBits (pn9 0x1FF (octetBits l)) else l

/-- The K = 4, rate 1/2 convolutional code over bits, from memory `m`, the latest bit in bit 0: two coded bits for each.
`rsc` names the recursive systematic code (assumption log 6). -/
def convCode (rsc : Bool) : Nat → List Bool → List Bool
  | _, [] => []
  | m, x :: l =>
    let m0 := bitOf m 0
    let m1 := bitOf m 1
    let m2 := bitOf m 2
    let w := if rsc then (x != m0) != (m1 != m2) else x
    let par := (w != m1) != m2
    let sys := if rsc then x else (w != m0) != (m1 != m2)
    sys :: par :: convCode rsc ((2 * m + if w then 1 else 0) % 8) l

/-- The memory of the code after bits. -/
def convMem (rsc : Bool) : Nat → List Bool → Nat
  | m, [] => m
  | m, x :: l =>
    let w := if rsc then (x != bitOf m 0) != (bitOf m 1 != bitOf m 2) else x
    convMem rsc ((2 * m + if w then 1 else 0) % 8) l

/-- The three tail bits that bring the memory to 0. -/
def tailBits (rsc : Bool) : Nat → Nat → List Bool
  | 0, _ => []
  | n + 1, m =>
    let x := rsc && ((bitOf m 0 != bitOf m 1) != bitOf m 2)
    x :: tailBits rsc n (convMem rsc m [x])

/-- The pad bits of a coded frame: 5 or 13, so that a block of 16 symbols is complete (assumption log 6). -/
def padBits (octets : Nat) : List Bool :=
  if octets % 2 = 1 then [false, true, false, true, true]
  else [false, true, false, true, true, false, false, false, false, true, false, true, true]

/-- Coded bits interleaved in blocks of 16 symbols of two bits (rule R155; assumption log 6). -/
def interleave : Nat → List Bool → List Bool
  | 0, l => l
  | n + 1, l =>
    if l.length < 32 then l
    else ((List.range 16).flatMap fun k =>
        let j := 15 - 4 * (k % 4) - k / 4
        (l.drop (2 * j)).take 2) ++ interleave n (l.drop 32)

/-- PHR and PSDU of a SUN FSK frame as bits on the air: whitening of the PSDU, then tail, pad, code and interleaving where the
frame is coded (rule R155). -/
def fskBits (a : Nat) (phr : List Bool) (psdu : List Byte) : List Bool :=
  let data := phr ++ (if bitOf a 7 then pn9 0x1FF (octetBits psdu) else octetBits psdu)
  if !bitOf a 4 then data
  else
    let rsc := bitOf a 5
    let code := convCode rsc 0 (data ++ tailBits rsc 3 (convMem rsc 0 data) ++ padBits (2 + psdu.length))
    if bitOf a 6 then interleave (code.length / 32) code else code

/-- The detection span S of rule R208 in counts. -/
def spanCounts (mode rate pre : Nat) : Nat :=
  match mode with
  | 0 => ceilDiv (min 64 (max 8 pre) * 8000) (fskRate rate)
  | 1 => 256
  | _ => 1440

/-! ### MAC frames (rules R159 to R164) -/

/-- A MAC header as read from octets. PAN identifiers and addresses are the octets as they stand in the frame. -/
structure Mac where
  ftype : Nat
  sec : Bool
  ar : Bool
  seqSup : Bool
  ie : Bool
  ver : Nat
  dstMode : Nat
  srcMode : Nat
  seq : Nat
  dstPan : List Byte
  dst : List Byte
  srcPan : List Byte
  src : List Byte
  len : Nat              -- octets up to the end of the addressing fields
deriving DecidableEq, Repr

/-- Octets of an address of an addressing mode. -/
def addrLen (m : Nat) : Nat := if m = 2 then 2 else if m = 3 then 8 else 0

/-- Are the destination and the source PAN identifier present in a version 2 frame (IEEE 802.15.4-2020, PAN ID
compression; assumption log 6)? -/
def panFields (d s : Nat) (comp : Bool) : Bool × Bool :=
  if d < 2 then (if s < 2 then (comp, false) else (false, !comp))
  else if s < 2 then (!comp, false)
  else if d = 3 ∧ s = 3 then (!comp, false)
  else (true, !comp)

/-- The MAC header at the start of `l`, missing octets read as none. -/
def macOf (l : List Byte) : Mac :=
  let fc := fieldAt l 0 2
  let d := bits fc 10 2
  let s := bits fc 14 2
  let sup := bitOf fc 8
  let p := panFields d s (bitOf fc 6)
  let o1 := if sup then 2 else 3
  let o2 := o1 + (if p.1 then 2 else 0)
  let o3 := o2 + addrLen d
  let o4 := o3 + (if p.2 then 2 else 0)
  let o5 := o4 + addrLen s
  { ftype := bits fc 0 3, sec := bitOf fc 3, ar := bitOf fc 5, seqSup := sup, ie := bitOf fc 9, ver := bits fc 12 2,
    dstMode := d, srcMode := s, seq := fieldAt l 2 1,
    dstPan := (l.drop o1).take (o2 - o1), dst := (l.drop o2).take (o3 - o2),
    srcPan := (l.drop o3).take (o4 - o3), src := (l.drop o4).take (o5 - o4), len := o5 }

/-- The lookup key of a frame (rule R161): the extended source, or the short source followed by its PAN; none without. -/
def Mac.key (m : Mac) : Option (List Byte) :=
  let pan := if m.srcPan = [] then m.dstPan else m.srcPan
  if m.srcMode = 3 ∧ m.src.length = 8 then some m.src
  else if m.srcMode = 2 ∧ m.src.length = 2 ∧ pan.length = 2 then some (m.src ++ pan)
  else none

/-- An auxiliary security header (rule R162). -/
structure Aux where
  level : Nat
  mode : Nat
  fcSup : Bool
  asn : Bool
  fc : Nat
  key : List Byte
  len : Nat
deriving DecidableEq, Repr

/-- The auxiliary security header at the start of `l`. -/
def auxOf (l : List Byte) : Aux :=
  let c := fieldAt l 0 1
  let m := bits c 3 2
  let n := match m with
    | 0 => 0
    | 1 => 1
    | 2 => 5
    | _ => 9
  { level := c % 8, mode := m, fcSup := bitOf c 5, asn := bitOf c 6, fc := fieldAt l 1 4,
    key := (l.drop 5).take n, len := 5 + n }

/-- MIC octets of a security level (rule R163). -/
def micLen (level : Nat) : Nat :=
  match level % 4 with
  | 0 => 0
  | 1 => 4
  | 2 => 8
  | _ => 16

/-- The header IEs of `l` (rule R164): each is an element ID and its content; the octets used, termination included;
false where an IE runs past the end. A header IE descriptor holds length in bits [6:0], element ID in [14:7]. -/
def headerIes : Nat → List Byte → List (Nat × List Byte) × Nat × Bool
  | 0, _ => ([], 0, true)
  | n + 1, l =>
    if l = [] then ([], 0, true)
    else if l.length < 2 then ([], l.length, false)
    else
      let d := fieldAt l 0 2
      let len := d % 128
      let id := bits d 7 8
      if l.length < 2 + len then ([], l.length, false)
      else if id = 0x7E ∨ id = 0x7F then ([(id, [])], 2 + len, true)
      else
        let r := headerIes n (l.drop (2 + len))
        ((id, (l.drop 2).take len) :: r.1, 2 + len + r.2.1, r.2.2)

/-- The content of the Tilnurek IE among header IEs, without its OUI and version: the first vendor IE of the image's
organisation identifier, where its TN_VERSION is 1 (rules R164 to R166). -/
def tilnurek (oui : List Byte) (ies : List (Nat × List Byte)) : Option (List Byte) :=
  match ies.find? fun p => p.1 == 0 && p.2.take 3 == oui with
  | some p => if fieldAt p.2 3 1 = 1 then some (p.2.drop 4) else none
  | none => none

/-- The sub-elements of a Tilnurek IE: type and content, until one runs past the end. -/
def subElems : Nat → List Byte → List (Nat × List Byte)
  | 0, _ => []
  | n + 1, l =>
    if l.length < 2 then []
    else
      let len := fieldAt l 1 1
      if l.length < 2 + len then []
      else (fieldAt l 0 1, (l.drop 2).take len) :: subElems n (l.drop (2 + len))

/-- The lengths a sub-element may have (Table 05-6). -/
def subOk (t len : Nat) : Bool :=
  match t with
  | 1 => len == 2 || len == 4
  | 2 => len == 8
  | 3 => len == 4
  | 4 => decide (2 ≤ len) && decide (len ≤ 120)
  | _ => false

/-- The first sub-element of a type, skipping those of a wrong length (rule R166). -/
def subFind (t : Nat) (l : List (Nat × List Byte)) : Option (List Byte) :=
  (l.find? fun p => p.1 == t && subOk p.1 p.2.length).map (·.2)

/-- The TIME_CORR of a Tilnurek IE in counts. -/
def timeCorr (l : List (Nat × List Byte)) : Option Int :=
  (subFind 1 l).map fun c => signed (8 * c.length) (ofLe c)

/-- The Tilnurek sub-element with a time correction: 2 octets where it fits, else 4 (Table 05-6). -/
def timeCorrBytes (k : Int) : List Byte :=
  if -32768 ≤ k ∧ k ≤ 32767 then [0x01, 0x02] ++ leBytes 2 (unsigned 16 k) else [0x01, 0x04] ++ leBytes 4 (unsigned 32 k)

end Sys2Proof.Machine
end

