-- ==== Sys2Proof/Machine/Types.lean ====
section
/-!
DEFINITION. The closed types that commands carry and State holds: status codes, initiators, bus bursts, and the measured
data that a sleeve, a path or a port hands over.
-/

namespace Sys2Proof

/-- The status codes: Table 00-7, and the block codes of Tables 01-5, 02-8, 03-7, 04-5, 05-15, 07-16, 08-13, 09-8,
11-13, 12-10, 13-7 and rule R232 (rules R9 and R11). -/
inductive Status where
  | ok | late | ledgerRefused | busy | noAck | authFail | keyErased | pocketExhausted | notBlank | order | programFail
  | eraseFail | uncorrectable | torn | overrun | calDeferred | duplicate | parentLost | presenceRequired
  | structureLocked | bandBlanked | channelBusy | tooLong | suspendRefused | wakeFailed | notReady
  | routeDenied | unmapped | linkDown | badDesc | badOp | misaligned | rdyTimeout | i2cNack | i2cArbLost | i2cTimeout
  | notRetirable | unitUnknown
  | imgNoImage | imgBadHeader | imgBadTag | imgRollback | imgKeyRevoked | imgWrongSlot | imgBadSection | imgConflict
  | imgNotWarm
  | vswrFoldback | synthUnlock | outsideWindow | badDescriptor
  | fcsFail | aborted | samplesLost | chanOutside
  | partnerRemoved
  | keyConflict | lookupFull | noRoute | badSubmit | reassemblyTimeout | noPartner
  | pocketEmpty | badRequest | policyDenied | wrapMismatch | queued
  | badCommand | noErase | noSpare | marginFail
  | saveOverflow | entryAborted | badTarget
deriving DecidableEq, Repr, Inhabited

/-- The 8-bit code of a status (Table 00-7 and the block-code tables). -/
def Status.code : Status → Nat
  | .ok => 0x00 | .late => 0x01 | .ledgerRefused => 0x02 | .busy => 0x03 | .noAck => 0x04 | .authFail => 0x05
  | .keyErased => 0x06 | .pocketExhausted => 0x07 | .notBlank => 0x08 | .order => 0x09 | .programFail => 0x0A
  | .eraseFail => 0x0B | .uncorrectable => 0x0C | .torn => 0x0D | .overrun => 0x0E | .calDeferred => 0x0F
  | .duplicate => 0x10 | .parentLost => 0x11 | .presenceRequired => 0x12 | .structureLocked => 0x13
  | .bandBlanked => 0x14 | .channelBusy => 0x15 | .tooLong => 0x16 | .suspendRefused => 0x17 | .wakeFailed => 0x18
  | .notReady => 0x19
  | .routeDenied => 0x80 | .unmapped => 0x81 | .linkDown => 0x84 | .badDesc => 0x85 | .badOp => 0x86
  | .misaligned => 0x87 | .rdyTimeout => 0x88 | .i2cNack => 0x89 | .i2cArbLost => 0x8A | .i2cTimeout => 0x8B
  | .notRetirable => 0x8C | .unitUnknown => 0x8D
  | .imgNoImage => 0x90 | .imgBadHeader => 0x91 | .imgBadTag => 0x92 | .imgRollback => 0x93 | .imgKeyRevoked => 0x94
  | .imgWrongSlot => 0x95 | .imgBadSection => 0x96 | .imgConflict => 0x97 | .imgNotWarm => 0x98
  | .vswrFoldback => 0xA0 | .synthUnlock => 0xA1 | .outsideWindow => 0xA2 | .badDescriptor => 0xA3
  | .fcsFail => 0xB0 | .aborted => 0xB1 | .samplesLost => 0xB2 | .chanOutside => 0xB3
  | .partnerRemoved => 0xC0
  | .keyConflict => 0xC8 | .lookupFull => 0xC9 | .noRoute => 0xCA | .badSubmit => 0xCB | .reassemblyTimeout => 0xCC
  | .noPartner => 0xCD
  | .pocketEmpty => 0xD0 | .badRequest => 0xD1 | .policyDenied => 0xD2 | .wrapMismatch => 0xD3 | .queued => 0xD4
  | .badCommand => 0xE0 | .noErase => 0xE1 | .noSpare => 0xE2 | .marginFail => 0xE3
  | .saveOverflow => 0xF0 | .entryAborted => 0xF1 | .badTarget => 0xF2

/-- A fabric initiator, by its code of Table 01-3. -/
abbrev Ini := Fin 21

namespace Machine

/-- The operations of the A extension on one 4-byte word (rules R22 and R375). -/
inductive AmoOp where
  | swap | add | xor | and | or | min | max | minu | maxu
deriving DecidableEq, Repr

/-- What a burst does at its target: `fetch` is an instruction fetch, `sc` a store-conditional whose pair has or has not
taken a trap since its LR. -/
inductive BurstKind where
  | read (len : Nat)
  | fetch (len : Nat)
  | write (data : List Byte)
  | lr
  | sc (trapped : Bool) (data : Word)
  | amo (op : AmoOp) (data : Word)
deriving DecidableEq, Repr

/-- One burst waiting for a fabric target port (rules R18 to R26). `flips` are the bits inverted in transit: for the
`k`-th 8-byte unit of the burst, a mask over its data and one over its weft (low byte) and warp (high byte). -/
structure Burst where
  ini : Ini
  addr : BitVec 32
  kind : BurstKind
  flips : List (Nat × BitVec 64 × BitVec 16)
  waited : Nat
deriving DecidableEq, Repr

/-- A unit of storage: eight data bytes, byte 0 lowest, with their weft and warp bytes (rule R327). -/
structure Unit8 where
  data : BitVec 64
  weft : BitVec 8
  warp : BitVec 8
deriving DecidableEq, Repr

/-- The counter that a latching LO read names (rule R188). -/
inductive LoReg where
  | time | ppsCap | asn
deriving DecidableEq, Repr

/-- A memory that scrubs itself at power-up (rules R346 and R510). -/
inductive ScrubMem where
  | seg (n : Fin 8)
  | tcm (p : Fin 2)
  | le (k : Fin 6)
deriving DecidableEq, Repr

/-- The engines of Table 10-3. -/
inductive WdtEngine where
  | le (k : Fin 6)
  | mantle
  | sarnis
deriving DecidableEq, Repr

/-- What a sleeve measures of a frame at its sync point, levels at the aerial pad (rule R139): RSSI in 0.25 dB, the others in
dBm. -/
structure SyncMeas where
  rssi : Int
  rssiA : Int
  rssiB : Int
  noise : Int
deriving DecidableEq, Repr

/-- What a sleeve has measured of a frame when it ends (rule R139): the SNR in 0.01 dB, the offsets in Hz and 1/64 ppm. -/
structure EndMeas where
  snr : Int
  freqOff : Int
  clockOff : Int
deriving DecidableEq, Repr

/-- The bits that stand at a sync position, as a sleeve or a CCA unit recovers them (rules R121 and R153): the last received
bits of SUN FSK, the latest in bit 0, or the chip errors of the two symbols of an O-QPSK SFD. -/
structure SyncSeen where
  word : BitVec 32
  chip0 : BitVec 8
  chip1 : BitVec 8
deriving DecidableEq, Repr

/-- What a CCA unit finds in the usable samples of its window (rule R176): the longest run of the alternating preamble pattern in
symbols, the bit strings received, the chip errors of pairs of consecutive zero symbols, and the longest STF plateau in us. -/
structure CcaSeen where
  run : Nat
  words : List (BitVec 32)
  zeros : List (Nat × Nat)
  plateau : Nat
deriving DecidableEq, Repr

/-- What a read of a look-back ring met (rule R77): a unit darned, and an UNCORRECTABLE unit, by its number in the ring and the
time of its first sample. -/
structure RingRead where
  darn : Bool
  uncorr : Option (BitVec 16 × BitVec 48)
deriving DecidableEq, Repr

/-- An address of a MAC header in the addressing modes the device's own frames use (Table 05-4). -/
inductive MacAddr where
  | none
  | short (a : BitVec 16)
  | ext (a : BitVec 64)
deriving DecidableEq, Repr

/-- A SCHEDULE sub-element (Table 06-9). -/
structure SchedPlan where
  sf : Fin 8
  transmits : Bool
  shared : Bool
  chOff : BitVec 8
  slots : List (BitVec 16)
deriving DecidableEq, Repr

/-- What a link engine's firmware puts into the MAC header of a frame of its own, beside what the rules fix: the fields that
Table 05-4 leaves to each frame, the sequence number where no partner's TX_SEQ gives it, security level, key identifier mode and
key identifier (rule R162), SCHEDULE sub-elements, and further header and payload IEs. -/
structure MhrPlan where
  pending : Bool
  compress : Bool
  dstPan : BitVec 16
  dst : MacAddr
  srcPan : BitVec 16
  src : MacAddr
  seq : BitVec 8
  sec : Option (Fin 7 × Fin 4 × BitVec 72)
  sched : List SchedPlan
  ies : List (BitVec 8 × List Byte)
  payIes : List (Fin 15 × List Byte)
deriving DecidableEq, Repr

/-- The fields of a transmit descriptor that a link engine's firmware chooses (Table 05-8). -/
structure TxPlan where
  mode : Fin 3
  phyA : BitVec 8
  phyB : BitVec 8
  fcs2 : Bool
  preamble : BitVec 16
  power : BitVec 8
  aerial : Fin 3
  ccaMode : Fin 5
  ccaDbm : BitVec 8
  ccaUs : BitVec 16
  tag : BitVec 16
deriving DecidableEq, Repr

/-- Where a link engine's firmware keeps one frame it sends, each as its number from the start of frame memory in units of its
alignment: the queue entry (16 bytes, Table 06-4), the transmit descriptor (32 bytes, rule R168) and the buffer (8 bytes, Table
05-8). -/
structure PlacePlan where
  entry : BitVec 17
  desc : BitVec 16
  buf : BitVec 18
deriving DecidableEq, Repr

/-- A cipher request a link engine submits: the address of its descriptor, the device's own extended address, the pocket of a frame
without a partner and with key identifier mode 0, and REF. The frame itself gives every other field (Table 08-4). -/
structure CeAsk where
  addr : BitVec 32
  self : BitVec 64
  pocket : BitVec 6
  ref : BitVec 16
deriving DecidableEq, Repr

/-- A beacon or keep-alive that a link engine builds itself: its place, descriptor, header and what follows the header. -/
structure OwnPlan where
  at_ : PlacePlan
  tx : TxPlan
  mhr : MhrPlan
  tail : List Byte
deriving DecidableEq, Repr

/-- What a link engine's firmware prepares for one TX link (rules R168 and R218): the slotframe and index of the link, the
descriptor fields it writes anew (none: as they stand), the cipher request of a frame not yet enciphered, and a frame of its own. -/
structure PrepPlan where
  sf : Fin 8
  link : BitVec 11
  desc : Option TxPlan
  req : Option CeAsk
  own : Option OwnPlan
deriving DecidableEq, Repr

/-- One fragment as a link engine's firmware sends it (rules R167, R168 and R220): its place, for a broadcast the address of the
broadcast link whose queue takes it, its descriptor and its header. -/
structure FragPlan where
  at_ : PlacePlan
  link : BitVec 32
  tx : TxPlan
  mhr : MhrPlan
deriving DecidableEq, Repr

/-- The acknowledgement a link engine's firmware builds (rules R215 and R216): its place, descriptor and header, and what follows
the header IEs, the MIC included. -/
structure AckPlan where
  at_ : PlacePlan
  tx : TxPlan
  mhr : MhrPlan
  tail : List Byte
deriving DecidableEq, Repr

/-- What the slot engine arms an assignment for: the link of a slotframe in the present slot, or the acknowledgement that
a link engine awaits (rules R213 and R215). -/
inductive ArmFor where
  | link (sf : Fin 8) (i : BitVec 11)
  | ack (le : Fin 6)
deriving DecidableEq, Repr

/-- Why a frame ends before its last symbol (rule R137), or that it reached its end. -/
inductive RxEnd where
  | complete | restarted | domainOff | unlocked | blanked | samplesLost
deriving DecidableEq, Repr

/-- What takes a wired link down (rule R433). -/
inductive LinkLoss where
  | los | sync | anRestart
deriving DecidableEq, Repr

/-- Where a Milxon request comes from: the oldest request that waits on the wired links, or a transaction on CSP0 or CSP1
with the FLAGS, TAG and ADDR of its header (rules R451 and R455). -/
inductive MxFrom where
  | wired
  | csp (n : Fin 2) (flags : Byte) (tag : BitVec 16) (addr : Word)
deriving DecidableEq, Repr

/-- How an I²C transfer ends by itself (rule R464). -/
inductive I2cEnd where
  | ok | nack | arbLost
deriving DecidableEq, Repr

end Machine
end Sys2Proof
end

