-- ==== Sys2Proof/Machine/Frames.lean ====
section
/-!
DEFINITION. The frames that the device's own link engines build (rules R159 to R168): MAC header, security header and IEs, the
Tilnurek IE with its sub-elements, the transmit descriptor, and the cipher request of a frame (Table 08-4).
-/

namespace Sys2Proof.Machine

/-! ### Places in frame memory -/

/-- The address of the queue entry of a place: 16-byte aligned in frame memory (rule R220). -/
def PlacePlan.entryAt (p : PlacePlan) : Nat := 0x20000000 + 16 * p.entry.toNat
/-- The address of the transmit descriptor: 32-byte aligned in frame memory (rule R168). -/
def PlacePlan.descAt (p : PlacePlan) : Nat := 0x20000000 + 32 * p.desc.toNat
/-- The address of the buffer: 8-byte aligned in frame memory (Table 05-8). -/
def PlacePlan.bufAt (p : PlacePlan) : Nat := 0x20000000 + 8 * p.buf.toNat

/-! ### IEs (rules R164 to R166) -/

/-- A header IE: length in bits [6:0] and element ID in [14:7] of its descriptor, then the content. -/
def headerIe (id : Nat) (c : List Byte) : List Byte := leBytes 2 (c.length % 128 + 128 * (id % 256)) ++ c

/-- A payload IE: length in bits [10:0] and group ID in [14:11] of its descriptor, whose bit 15 is 1. -/
def payloadIe (g : Nat) (c : List Byte) : List Byte := leBytes 2 (c.length % 2048 + 2048 * (g % 16) + 32768) ++ c

/-- A sub-element of a Tilnurek IE. -/
def subElem (t : Nat) (c : List Byte) : List Byte := leBytes 1 t ++ leBytes 1 c.length ++ c

/-- The SLOT sub-element of a beacon (Table 06-8). -/
def slotElem (asn len : Nat) : List Byte := subElem 2 (leBytes 5 asn ++ leBytes 3 len)

/-- A SCHEDULE sub-element (Table 06-9). -/
def SchedPlan.elem (p : SchedPlan) : List Byte :=
  subElem 4 (leBytes 1 (p.sf.val + (if p.transmits then 8 else 0) + (if p.shared then 16 else 0)) ++ leBytes 1 p.chOff.toNat ++
    (p.slots.take 59).flatMap fun x => leBytes 2 x.toNat)

/-- Sub-elements as long as they fit one header IE, in their order. -/
def subsFit : Nat → List (List Byte) → List Byte
  | _, [] => []
  | n, x :: l => if x.length ≤ n then x ++ subsFit (n - x.length) l else subsFit n l

/-- The Tilnurek IE of a frame, at most one, with the sub-elements `subs` (Table 05-5); none without a sub-element. -/
def tilnurekIe (oui : List Byte) (subs : List (List Byte)) : List Byte :=
  if subs = [] then [] else headerIe 0 (oui ++ [1] ++ subsFit 123 subs)

/-- The further header IEs of a plan: neither a termination IE nor a second Tilnurek IE is among them. -/
def MhrPlan.others (oui : List Byte) (p : MhrPlan) : List Byte :=
  (p.ies.filter fun x => x.1 != 0x7E && x.1 != 0x7F && !(x.1 == 0 && x.2.take 3 == oui)).flatMap fun x =>
    headerIe x.1.toNat (x.2.take 127)

/-! ### The MAC header (rules R159 and R162) -/

/-- Addressing mode of an address. -/
def MacAddr.mode : MacAddr → Nat
  | .none => 0
  | .short _ => 2
  | .ext _ => 3

/-- Octets of an address. -/
def MacAddr.octets : MacAddr → List Byte
  | .none => []
  | .short a => leBytes 2 a.toNat
  | .ext a => leBytes 8 a.toNat

/-- Octets of the MIC a plan asks for (rule R163). -/
def MhrPlan.mic (p : MhrPlan) : Nat := match p.sec with
  | some (l, _, _) => micLen (l.val + 1)
  | none => 0

/-- The security header: its frame counter is the cipher engine's to write (Table 08-4). -/
def MhrPlan.aux (p : MhrPlan) : List Byte := match p.sec with
  | some (l, m, key) =>
    leBytes 1 (l.val + 1 + 8 * m.val) ++ leBytes 4 0 ++ leBytes (if m.val = 0 then 0 else 4 * m.val - 3) key.toNat
  | none => []

/-- The frame up to its payload, header IEs and payload IEs included: frame version 0b10, the sequence number present, of type
`ftype`, with acknowledgement request `ar`, sequence number `seq` and the Tilnurek sub-elements `subs`. `more` tells that a payload
follows. Rule R164 says which termination IE ends the list. -/
def MhrPlan.octets (p : MhrPlan) (oui : List Byte) (ftype : Nat) (ar : Bool) (seq : Nat) (subs : List (List Byte)) (more : Bool) :
    List Byte :=
  let f := panFields p.dst.mode p.src.mode p.compress
  let ies := tilnurekIe oui (subs ++ p.sched.map (·.elem)) ++ p.others oui
  let pay := p.payIes.flatMap fun x => payloadIe x.1.val (x.2.take 2047)
  let term := if pay ≠ [] then headerIe 0x7E [] else if ies ≠ [] ∧ more then headerIe 0x7F [] else []
  let has (b : Bool) (n : Nat) : Nat := if b then 2 ^ n else 0
  let fc := ftype % 8 + has p.sec.isSome 3 + has p.pending 4 + has ar 5 + has p.compress 6 + has (decide (ies ++ term ≠ [])) 9 +
    2 ^ 10 * p.dst.mode + 2 ^ 13 + 2 ^ 14 * p.src.mode
  leBytes 2 fc ++ leBytes 1 seq ++ (if f.1 then leBytes 2 p.dstPan.toNat else []) ++ p.dst.octets ++
    (if f.2 then leBytes 2 p.srcPan.toNat else []) ++ p.src.octets ++ p.aux ++ ies ++ term ++ pay ++
    (if pay ≠ [] ∧ more then payloadIe 15 [] else [])

/-! ### The transmit descriptor (Table 05-8) -/

/-- The descriptor of a frame of `len` octets before its FCS; every field marked 0 is 0. -/
def TxPlan.octets (t : TxPlan) (len buf khz partner le : Nat) : List Byte :=
  let a := if t.mode.val = 0 then t.phyA.toNat else if t.mode.val = 2 then t.phyA.toNat &&& 0x77 else 0
  let b := if t.mode.val = 0 then t.phyB.toNat else if t.mode.val = 2 then t.phyB.toNat % 4 else 0
  let two := decide (t.mode.val = 0) && t.fcs2
  let fcs := if t.mode.val = 1 ∨ two then 2 else 4
  leBytes 1 t.mode.val ++ leBytes 1 a ++ leBytes 1 b ++ leBytes 1 (if two then 1 else 0) ++
    leBytes 2 (if t.mode.val = 0 then t.preamble.toNat else 0) ++ leBytes 2 (len + fcs) ++ leBytes 4 buf ++
    leBytes 4 (khz % 2 ^ 24) ++ leBytes 1 t.power.toNat ++ leBytes 1 t.aerial.val ++ leBytes 2 partner ++
    leBytes 1 t.ccaMode.val ++ leBytes 1 t.ccaDbm.toNat ++ leBytes 2 t.ccaUs.toNat ++ leBytes 2 t.tag.toNat ++
    leBytes 1 (le % 8) ++ List.replicate 5 0

/-! ### Frames in their buffers -/

/-- What a link engine reads of a frame. -/
structure Seen where
  mac : Mac
  aux : Option Aux
  ies : List (Nat × List Byte)
  off : Nat              -- private payload in the frame (rule R163)
  len : Nat              -- private payload octets, MIC and FCS apart
  mic : Nat              -- MIC octets
deriving DecidableEq, Repr

/-- Is the private payload of a frame enciphered? -/
def Seen.cipher (v : Seen) : Bool := v.aux.any fun a => decide (4 ≤ a.level)

/-- Where the payload IEs of `l` end, and whether none runs past the end of it (rules R160 and R164): group ID 0xF ends the list. -/
def payloadIes : Nat → List Byte → Nat × Bool
  | 0, _ => (0, true)
  | n + 1, l =>
    if l = [] then (0, true)
    else if l.length < 2 then (l.length, false)
    else
      let d := fieldAt l 0 2
      let len := d % 2048
      if l.length < 2 + len then (l.length, false)
      else if bits d 11 4 = 15 then (2 + len, true)
      else
        let r := payloadIes n (l.drop (2 + len))
        (2 + len + r.1, r.2)

/-- The MAC payload of a frame whose octets are `l`: its offset and length after the payload IEs that header termination IE 1
announces; none where one of them runs past the end (rules R160 and R164). -/
def Seen.payload (v : Seen) (l : List Byte) : Option (Nat × Nat) :=
  if v.ies.any fun x => x.1 == 0x7E then
    let r := payloadIes 1024 ((l.drop v.off).take v.len)
    if r.2 then some (v.off + r.1, v.len - r.1) else none
  else some (v.off, v.len)

/-- The frame in the octets `l`, FCS apart; none where rule R160 drops it. Enciphered payload IEs are read after the verdict. -/
def seenIn (l : List Byte) : Option Seen :=
  let n := l.length
  let m := macOf l
  let aux := if m.sec then some (auxOf (l.drop m.len)) else none
  let o := m.len + aux.elim 0 (·.len)
  let mic := aux.elim 0 fun a => micLen a.level
  let r := if m.ie then headerIes 128 ((l.take (n - mic)).drop o) else ([], 0, true)
  let v : Seen := { mac := m, aux := aux, ies := r.1, off := o + r.2.1, len := n - mic - (o + r.2.1), mic := mic }
  if m.ver ≠ 2 ∨ 4 ≤ m.ftype ∨ m.dstMode = 1 ∨ m.srcMode = 1 ∨ (aux.any fun a => a.fcSup || a.asn) ∨ !r.2.2 ∨ n < o + mic then none
  else if !v.cipher ∧ (v.payload l).isNone then none
  else some v

/-- The cipher request of a frame that stands at `buf` (Table 08-4): header, security header and header IEs authenticated, the
private payload in place, the MIC after it, and the counter in the security header. -/
def Seen.request (v : Seen) (a : Aux) (enc stream : Bool) (pocket buf : Nat) (self : List Byte) (ref : Nat) : List Byte :=
  leBytes 1 (if enc then 1 else 2) ++ leBytes 1 (pocket % 64) ++ leBytes 1 (3 + (if stream then 8 else 0)) ++
    leBytes 1 (a.level + 8 * a.mode) ++ leBytes 1 Status.notReady.code ++ leBytes 3 0 ++ leBytes 4 buf ++ leBytes 2 v.off ++
    leBytes 2 v.len ++ leBytes 4 (buf + v.off) ++ leBytes 4 (buf + v.off) ++ leBytes 4 (buf + v.off + v.len) ++
    leBytes 4 (if enc then buf + v.mac.len + 1 else 0) ++ (self ++ List.replicate 8 0).take 8 ++ leBytes 4 (if enc then 0 else a.fc) ++
    leBytes 4 0 ++ leBytes 2 ref ++ List.replicate 14 0

end Sys2Proof.Machine
end

