-- ==== Sys2Proof/Machine/Regs.lean ====
section
/-!
DEFINITION. The register map: the address of every register of the spec's register tables, every named
field of it, its reset value and what a plain write does to its bits. A register with several
instances takes the instance number. The names are the spec's own; `X_F` is field `F` of register `X`.
-/

namespace Sys2Proof.Machine

/-! Table 01-6. -/

def SYS_ID : Nat := 0x40000000
def SYS_ID_PART : Fld := ⟨SYS_ID, 16, 16⟩
def SYS_ID_STEP : Fld := ⟨SYS_ID, 8, 8⟩

/-! Table 01-7. -/

def SYS_ROLE : Nat := 0x40000004
def SYS_ROLE_ROLE : Fld := ⟨SYS_ROLE, 0, 2⟩

/-! Table 01-8. -/

def SYS_FAB_STATUS : Nat := 0x40000010
def SYS_FAB_STATUS_LAST_CODE : Fld := ⟨SYS_FAB_STATUS, 8, 8⟩
def SYS_FAB_STATUS_TRANSIT_UNCORR : Fld := ⟨SYS_FAB_STATUS, 3, 1⟩
def SYS_FAB_STATUS_TRANSIT_DARN : Fld := ⟨SYS_FAB_STATUS, 2, 1⟩
def SYS_FAB_STATUS_UNMAPPED : Fld := ⟨SYS_FAB_STATUS, 1, 1⟩
def SYS_FAB_STATUS_ROUTE_DENIED : Fld := ⟨SYS_FAB_STATUS, 0, 1⟩

/-! Table 01-9. -/

def SYS_FAB_ERR_ADDR : Nat := 0x40000014
def SYS_FAB_ERR_ADDR_ADDR : Fld := ⟨SYS_FAB_ERR_ADDR, 0, 32⟩

/-! Table 01-10. -/

def SYS_FAB_ERR_SRC : Nat := 0x40000018
def SYS_FAB_ERR_SRC_CLASS : Fld := ⟨SYS_FAB_ERR_SRC, 8, 3⟩
def SYS_FAB_ERR_SRC_INITIATOR : Fld := ⟨SYS_FAB_ERR_SRC, 0, 5⟩

/-! Table 01-11. -/

def SYS_FAB_DARN_COUNT : Nat := 0x4000001C
def SYS_FAB_DARN_COUNT_COUNT : Fld := ⟨SYS_FAB_DARN_COUNT, 0, 32⟩

/-! Table 02-13. -/

def STR_STATUS : Nat := 0x40008000
def STR_STATUS_LOAD_CODE : Fld := ⟨STR_STATUS, 24, 8⟩
def STR_STATUS_KEY1_REVOKED : Fld := ⟨STR_STATUS, 7, 1⟩
def STR_STATUS_KEY0_REVOKED : Fld := ⟨STR_STATUS, 6, 1⟩
def STR_STATUS_EXEC_SLOT : Fld := ⟨STR_STATUS, 5, 1⟩
def STR_STATUS_CONFIRMED : Fld := ⟨STR_STATUS, 4, 1⟩
def STR_STATUS_TRIAL : Fld := ⟨STR_STATUS, 3, 1⟩
def STR_STATUS_SLOT : Fld := ⟨STR_STATUS, 2, 1⟩
def STR_STATUS_LOADER_STATE : Fld := ⟨STR_STATUS, 1, 1⟩
def STR_STATUS_LOCKED : Fld := ⟨STR_STATUS, 0, 1⟩

/-! Table 02-14. -/

def STR_SEQ : Nat := 0x40008004
def STR_SEQ_VALUE : Fld := ⟨STR_SEQ, 0, 32⟩

def STR_FLOOR : Nat := 0x40008008
def STR_FLOOR_VALUE : Fld := ⟨STR_FLOOR, 0, 32⟩

/-! Table 02-15. -/

def STR_CONFIRM : Nat := 0x4000800C
def STR_CONFIRM_KEY : Fld := ⟨STR_CONFIRM, 0, 32⟩

/-! Table 02-16. -/

def STR_CMD : Nat := 0x40008010
def STR_CMD_RESULT : Fld := ⟨STR_CMD, 24, 8⟩
def STR_CMD_PENDING : Fld := ⟨STR_CMD, 8, 1⟩
def STR_CMD_AUTO : Fld := ⟨STR_CMD, 5, 1⟩
def STR_CMD_SLOT : Fld := ⟨STR_CMD, 4, 1⟩
def STR_CMD_OP : Fld := ⟨STR_CMD, 0, 3⟩

/-! Table 02-17. -/

def STR_LOCK_LOG : Nat := 0x40008014
def STR_LOCK_LOG_COUNT : Fld := ⟨STR_LOCK_LOG, 8, 8⟩
def STR_LOCK_LOG_INITIATOR : Fld := ⟨STR_LOCK_LOG, 0, 5⟩

/-! Table 02-18. -/

def STR_LOCK_ADDR : Nat := 0x40008018
def STR_LOCK_ADDR_ADDR : Fld := ⟨STR_LOCK_ADDR, 0, 32⟩

/-! Table 02-19. -/

def PRS_STATUS : Nat := 0x40048000
def PRS_STATUS_SEAL_BROKEN : Fld := ⟨PRS_STATUS, 7, 1⟩
def PRS_STATUS_SEAL_OK : Fld := ⟨PRS_STATUS, 6, 1⟩
def PRS_STATUS_SEAL_POLICY : Fld := ⟨PRS_STATUS, 4, 2⟩
def PRS_STATUS_GRANT_SEAL : Fld := ⟨PRS_STATUS, 3, 1⟩
def PRS_STATUS_GRANT_JMP : Fld := ⟨PRS_STATUS, 2, 1⟩
def PRS_STATUS_WAITING : Fld := ⟨PRS_STATUS, 1, 1⟩
def PRS_STATUS_BTN : Fld := ⟨PRS_STATUS, 0, 1⟩

/-! Table 02-20. -/

def PRS_GRANT : Nat := 0x40048004
def PRS_GRANT_WINDOW_S : Fld := ⟨PRS_GRANT, 24, 8⟩
def PRS_GRANT_GRANT_S : Fld := ⟨PRS_GRANT, 0, 16⟩

/-! Table 03-8. -/

def RF_WINDOW (b : Nat) : Nat := 0x40080000 + 0x10000 * b
def RF_WINDOW_CENTRE_KHZ (b : Nat) : Fld := ⟨RF_WINDOW b, 0, 24⟩

/-! Table 03-9. -/

def RF_CHAINS (b : Nat) : Nat := 0x40080004 + 0x10000 * b
def RF_CHAINS_SLOT_GATE (b : Nat) : Fld := ⟨RF_CHAINS b, 12, 1⟩
def RF_CHAINS_B_ON (b : Nat) : Fld := ⟨RF_CHAINS b, 9, 1⟩
def RF_CHAINS_A_ON (b : Nat) : Fld := ⟨RF_CHAINS b, 8, 1⟩
def RF_CHAINS_B_MODE (b : Nat) : Fld := ⟨RF_CHAINS b, 2, 2⟩
def RF_CHAINS_A_MODE (b : Nat) : Fld := ⟨RF_CHAINS b, 0, 2⟩

/-! Table 03-10. -/

def RF_NARROW (b : Nat) : Nat := 0x40080008 + 0x10000 * b
def RF_NARROW_CHANNEL_KHZ (b : Nat) : Fld := ⟨RF_NARROW b, 0, 24⟩

/-! Table 03-11. -/

def RF_STATE (b : Nat) : Nat := 0x4008000C + 0x10000 * b
def RF_STATE_CAL_ITEM (b : Nat) : Fld := ⟨RF_STATE b, 16, 4⟩
def RF_STATE_B_RETIRED (b : Nat) : Fld := ⟨RF_STATE b, 11, 1⟩
def RF_STATE_A_RETIRED (b : Nat) : Fld := ⟨RF_STATE b, 10, 1⟩
def RF_STATE_BLANK (b : Nat) : Fld := ⟨RF_STATE b, 9, 1⟩
def RF_STATE_LOCKED (b : Nat) : Fld := ⟨RF_STATE b, 8, 1⟩
def RF_STATE_VCO_BAND (b : Nat) : Fld := ⟨RF_STATE b, 4, 3⟩
def RF_STATE_STATE (b : Nat) : Fld := ⟨RF_STATE b, 0, 4⟩

/-! Table 03-12. -/

def RF_GAIN (b : Nat) : Nat := 0x40080010 + 0x10000 * b
def RF_GAIN_B_SET (b : Nat) : Fld := ⟨RF_GAIN b, 20, 4⟩
def RF_GAIN_A_SET (b : Nat) : Fld := ⟨RF_GAIN b, 16, 4⟩
def RF_GAIN_B_MANUAL (b : Nat) : Fld := ⟨RF_GAIN b, 9, 1⟩
def RF_GAIN_A_MANUAL (b : Nat) : Fld := ⟨RF_GAIN b, 8, 1⟩
def RF_GAIN_B_STEP (b : Nat) : Fld := ⟨RF_GAIN b, 4, 4⟩
def RF_GAIN_A_STEP (b : Nat) : Fld := ⟨RF_GAIN b, 0, 4⟩

/-! Table 03-13. -/

def RF_GOV (b : Nat) : Nat := 0x40080014 + 0x10000 * b
def RF_GOV_UP_HOLD_US (b : Nat) : Fld := ⟨RF_GOV b, 16, 8⟩
def RF_GOV_LOW_DBFS (b : Nat) : Fld := ⟨RF_GOV b, 8, 8⟩
def RF_GOV_HIGH_DBFS (b : Nat) : Fld := ⟨RF_GOV b, 0, 8⟩

/-! Table 03-14. -/

def RF_CAL_REQ (b : Nat) : Nat := 0x40080018 + 0x10000 * b
def RF_CAL_REQ_DEADLINE_MS (b : Nat) : Fld := ⟨RF_CAL_REQ b, 16, 16⟩
def RF_CAL_REQ_ITEM (b : Nat) : Fld := ⟨RF_CAL_REQ b, 0, 4⟩

/-! Table 03-15. -/

def RF_CAL_STATUS (b : Nat) : Nat := 0x4008001C + 0x10000 * b
def RF_CAL_STATUS_LAST_STATUS (b : Nat) : Fld := ⟨RF_CAL_STATUS b, 24, 8⟩
def RF_CAL_STATUS_LAST_DEFERRED (b : Nat) : Fld := ⟨RF_CAL_STATUS b, 12, 1⟩
def RF_CAL_STATUS_LAST_ITEM (b : Nat) : Fld := ⟨RF_CAL_STATUS b, 8, 4⟩
def RF_CAL_STATUS_PENDING (b : Nat) : Fld := ⟨RF_CAL_STATUS b, 1, 7⟩

/-! Table 03-16. -/

def RF_EVENTS (b : Nat) : Nat := 0x40080020 + 0x10000 * b
def RF_EVENTS_AERIAL_RETIRED (b : Nat) : Fld := ⟨RF_EVENTS b, 9, 1⟩
def RF_EVENTS_RECAL_DUE (b : Nat) : Fld := ⟨RF_EVENTS b, 8, 1⟩
def RF_EVENTS_RING_UNCORR (b : Nat) : Fld := ⟨RF_EVENTS b, 7, 1⟩
def RF_EVENTS_RING_DARN (b : Nat) : Fld := ⟨RF_EVENTS b, 6, 1⟩
def RF_EVENTS_CLIP (b : Nat) : Fld := ⟨RF_EVENTS b, 5, 1⟩
def RF_EVENTS_GAIN_STEP_IN_FRAME (b : Nat) : Fld := ⟨RF_EVENTS b, 4, 1⟩
def RF_EVENTS_UNLOCK (b : Nat) : Fld := ⟨RF_EVENTS b, 3, 1⟩
def RF_EVENTS_RETUNE_DONE (b : Nat) : Fld := ⟨RF_EVENTS b, 2, 1⟩
def RF_EVENTS_CAL_DEFERRED (b : Nat) : Fld := ⟨RF_EVENTS b, 1, 1⟩
def RF_EVENTS_CAL_DONE (b : Nat) : Fld := ⟨RF_EVENTS b, 0, 1⟩

def RF_INT_EN (b : Nat) : Nat := 0x40080024 + 0x10000 * b
def RF_INT_EN_EN (b : Nat) : Fld := ⟨RF_INT_EN b, 0, 10⟩

/-! Table 03-17. -/

def RF_CLIP_COUNT (b : Nat) : Nat := 0x40080028 + 0x10000 * b
def RF_CLIP_COUNT_COUNT (b : Nat) : Fld := ⟨RF_CLIP_COUNT b, 0, 32⟩

/-! Table 03-18. -/

def RF_CAL_TEMP (b : Nat) : Nat := 0x4008002C + 0x10000 * b
def RF_CAL_TEMP_RECAL_DELTA (b : Nat) : Fld := ⟨RF_CAL_TEMP b, 16, 8⟩
def RF_CAL_TEMP_DIE_C (b : Nat) : Fld := ⟨RF_CAL_TEMP b, 8, 8⟩
def RF_CAL_TEMP_LAST_CAL_C (b : Nat) : Fld := ⟨RF_CAL_TEMP b, 0, 8⟩

/-! Table 03-19. -/

def TXP_CONFIG (p : Nat) : Nat := 0x400C0000 + 0x1000 * p
def TXP_CONFIG_ENABLE (p : Nat) : Fld := ⟨TXP_CONFIG p, 24, 1⟩
def TXP_CONFIG_CAP (p : Nat) : Fld := ⟨TXP_CONFIG p, 8, 8⟩
def TXP_CONFIG_AERIAL (p : Nat) : Fld := ⟨TXP_CONFIG p, 0, 2⟩

/-! Table 03-20. -/

def TXP_STATUS (p : Nat) : Nat := 0x400C0004 + 0x1000 * p
def TXP_STATUS_CAP_REG (p : Nat) : Fld := ⟨TXP_STATUS p, 18, 1⟩
def TXP_STATUS_CAP_THERMAL (p : Nat) : Fld := ⟨TXP_STATUS p, 17, 1⟩
def TXP_STATUS_CAP_SUPPLY (p : Nat) : Fld := ⟨TXP_STATUS p, 16, 1⟩
def TXP_STATUS_CAP_NOW (p : Nat) : Fld := ⟨TXP_STATUS p, 8, 8⟩
def TXP_STATUS_B_RETIRED (p : Nat) : Fld := ⟨TXP_STATUS p, 6, 1⟩
def TXP_STATUS_A_RETIRED (p : Nat) : Fld := ⟨TXP_STATUS p, 5, 1⟩
def TXP_STATUS_AERIAL_NOW (p : Nat) : Fld := ⟨TXP_STATUS p, 4, 1⟩
def TXP_STATUS_STATE (p : Nat) : Fld := ⟨TXP_STATUS p, 0, 4⟩

/-! Table 03-21. -/

def TXP_VSWR (p : Nat) : Nat := 0x400C0008 + 0x1000 * p
def TXP_VSWR_FAIL_LIMIT (p : Nat) : Fld := ⟨TXP_VSWR p, 16, 4⟩
def TXP_VSWR_FOLD_RL (p : Nat) : Fld := ⟨TXP_VSWR p, 8, 8⟩
def TXP_VSWR_RL_LIMIT (p : Nat) : Fld := ⟨TXP_VSWR p, 0, 8⟩

/-! Table 03-22. -/

def TXP_LAST_MEAS (p : Nat) : Nat := 0x400C000C + 0x1000 * p
def TXP_LAST_MEAS_FAILS_B (p : Nat) : Fld := ⟨TXP_LAST_MEAS p, 28, 4⟩
def TXP_LAST_MEAS_FAILS_A (p : Nat) : Fld := ⟨TXP_LAST_MEAS p, 24, 4⟩
def TXP_LAST_MEAS_FWD (p : Nat) : Fld := ⟨TXP_LAST_MEAS p, 16, 8⟩
def TXP_LAST_MEAS_RL_B (p : Nat) : Fld := ⟨TXP_LAST_MEAS p, 8, 8⟩
def TXP_LAST_MEAS_RL_A (p : Nat) : Fld := ⟨TXP_LAST_MEAS p, 0, 8⟩

/-! Table 03-23. -/

def TXP_EVENTS (p : Nat) : Nat := 0x400C0010 + 0x1000 * p
def TXP_EVENTS_RING_WRITE_IGNORED (p : Nat) : Fld := ⟨TXP_EVENTS p, 8, 1⟩
def TXP_EVENTS_OUTSIDE_WINDOW (p : Nat) : Fld := ⟨TXP_EVENTS p, 7, 1⟩
def TXP_EVENTS_UNLOCK_CUT (p : Nat) : Fld := ⟨TXP_EVENTS p, 6, 1⟩
def TXP_EVENTS_WARN_CUT (p : Nat) : Fld := ⟨TXP_EVENTS p, 5, 1⟩
def TXP_EVENTS_HELD (p : Nat) : Fld := ⟨TXP_EVENTS p, 4, 1⟩
def TXP_EVENTS_LATE (p : Nat) : Fld := ⟨TXP_EVENTS p, 3, 1⟩
def TXP_EVENTS_POWER_CAPPED (p : Nat) : Fld := ⟨TXP_EVENTS p, 2, 1⟩
def TXP_EVENTS_AERIAL_RETIRED (p : Nat) : Fld := ⟨TXP_EVENTS p, 1, 1⟩
def TXP_EVENTS_FOLDBACK (p : Nat) : Fld := ⟨TXP_EVENTS p, 0, 1⟩

def TXP_INT_EN (p : Nat) : Nat := 0x400C0014 + 0x1000 * p
def TXP_INT_EN_EN (p : Nat) : Fld := ⟨TXP_INT_EN p, 0, 9⟩

/-! Table 03-24. -/

def TXP_FRAMES (p : Nat) : Nat := 0x400C0018 + 0x1000 * p
def TXP_FRAMES_COUNT (p : Nat) : Fld := ⟨TXP_FRAMES p, 0, 32⟩

def TXP_LATE_COUNT (p : Nat) : Nat := 0x400C001C + 0x1000 * p
def TXP_LATE_COUNT_COUNT (p : Nat) : Fld := ⟨TXP_LATE_COUNT p, 0, 32⟩

/-! Table 04-7. -/

def SLV_ASSIGN (n : Nat) : Nat := 0x400A0000 + 0x400 * n
def SLV_ASSIGN_UNSERVED (n : Nat) : Fld := ⟨SLV_ASSIGN n, 15, 1⟩
def SLV_ASSIGN_WIDE_PHYS (n : Nat) : Fld := ⟨SLV_ASSIGN n, 14, 1⟩
def SLV_ASSIGN_PHYS (n : Nat) : Fld := ⟨SLV_ASSIGN n, 8, 5⟩
def SLV_ASSIGN_SPARE (n : Nat) : Fld := ⟨SLV_ASSIGN n, 6, 1⟩
def SLV_ASSIGN_AERIAL (n : Nat) : Fld := ⟨SLV_ASSIGN n, 4, 2⟩
def SLV_ASSIGN_MODE (n : Nat) : Fld := ⟨SLV_ASSIGN n, 2, 2⟩
def SLV_ASSIGN_BAND (n : Nat) : Fld := ⟨SLV_ASSIGN n, 0, 2⟩

/-! Table 04-8. -/

def SLV_CTRL (n : Nat) : Nat := 0x400A0004 + 0x400 * n
def SLV_CTRL_RESEARCH_EN (n : Nat) : Fld := ⟨SLV_CTRL n, 3, 1⟩
def SLV_CTRL_LINING_EN (n : Nat) : Fld := ⟨SLV_CTRL n, 2, 1⟩
def SLV_CTRL_SLOT_ARMED (n : Nat) : Fld := ⟨SLV_CTRL n, 1, 1⟩
def SLV_CTRL_ENABLE (n : Nat) : Fld := ⟨SLV_CTRL n, 0, 1⟩

/-! Table 04-9. -/

def SLV_CHAN (n : Nat) : Nat := 0x400A0008 + 0x400 * n
def SLV_CHAN_PENDING (n : Nat) : Fld := ⟨SLV_CHAN n, 31, 1⟩
def SLV_CHAN_CHANNEL_KHZ (n : Nat) : Fld := ⟨SLV_CHAN n, 0, 24⟩

/-! Table 04-10. -/

def SLV_FSK (n : Nat) : Nat := 0x400A000C + 0x400 * n
def SLV_FSK_MOD_INDEX (n : Nat) : Fld := ⟨SLV_FSK n, 8, 8⟩
def SLV_FSK_ACCEPT_CODED (n : Nat) : Fld := ⟨SLV_FSK n, 7, 1⟩
def SLV_FSK_ACCEPT_UNCODED (n : Nat) : Fld := ⟨SLV_FSK n, 6, 1⟩
def SLV_FSK_INTERLEAVE (n : Nat) : Fld := ⟨SLV_FSK n, 5, 1⟩
def SLV_FSK_FEC_TYPE (n : Nat) : Fld := ⟨SLV_FSK n, 4, 1⟩
def SLV_FSK_LEVELS (n : Nat) : Fld := ⟨SLV_FSK n, 3, 1⟩
def SLV_FSK_RATE (n : Nat) : Fld := ⟨SLV_FSK n, 0, 3⟩

/-! Table 04-11. -/

def SLV_OFDM (n : Nat) : Nat := 0x400A0010 + 0x400 * n
def SLV_OFDM_MCS_MASK (n : Nat) : Fld := ⟨SLV_OFDM n, 8, 7⟩
def SLV_OFDM_OPTION (n : Nat) : Fld := ⟨SLV_OFDM n, 0, 3⟩

/-! Table 04-12. -/

def SLV_SYNC0 (n : Nat) : Nat := 0x400A0014 + 0x400 * n
def SLV_SYNC0_WORD (n : Nat) : Fld := ⟨SLV_SYNC0 n, 0, 32⟩

def SLV_SYNC1 (n : Nat) : Nat := 0x400A0018 + 0x400 * n
def SLV_SYNC1_WORD (n : Nat) : Fld := ⟨SLV_SYNC1 n, 0, 32⟩

/-! Table 04-13. -/

def SLV_SYNC_CFG (n : Nat) : Nat := 0x400A001C + 0x400 * n
def SLV_SYNC_CFG_CHIP_ERR (n : Nat) : Fld := ⟨SLV_SYNC_CFG n, 28, 4⟩
def SLV_SYNC_CFG_DIV_SYMBOLS (n : Nat) : Fld := ⟨SLV_SYNC_CFG n, 16, 8⟩
def SLV_SYNC_CFG_PRE_DETECT (n : Nat) : Fld := ⟨SLV_SYNC_CFG n, 8, 8⟩
def SLV_SYNC_CFG_ERR_TOL (n : Nat) : Fld := ⟨SLV_SYNC_CFG n, 2, 3⟩
def SLV_SYNC_CFG_LEN (n : Nat) : Fld := ⟨SLV_SYNC_CFG n, 0, 2⟩

/-! Table 04-14. -/

def SLV_ACQ (n : Nat) : Nat := 0x400A0020 + 0x400 * n
def SLV_ACQ_SYNC_WAIT (n : Nat) : Fld := ⟨SLV_ACQ n, 16, 16⟩
def SLV_ACQ_MARGIN (n : Nat) : Fld := ⟨SLV_ACQ n, 0, 8⟩

/-! Table 04-15. -/

def SLV_MAX_PSDU (n : Nat) : Nat := 0x400A0024 + 0x400 * n
def SLV_MAX_PSDU_MAX (n : Nat) : Fld := ⟨SLV_MAX_PSDU n, 0, 11⟩

/-! Table 04-16. -/

def SLV_STATE (n : Nat) : Nat := 0x400A0028 + 0x400 * n
def SLV_STATE_LAST_STATUS (n : Nat) : Fld := ⟨SLV_STATE n, 8, 8⟩
def SLV_STATE_FROM_RING (n : Nat) : Fld := ⟨SLV_STATE n, 6, 1⟩
def SLV_STATE_BRANCH (n : Nat) : Fld := ⟨SLV_STATE n, 5, 1⟩
def SLV_STATE_IN_FRAME (n : Nat) : Fld := ⟨SLV_STATE n, 4, 1⟩
def SLV_STATE_STATE (n : Nat) : Fld := ⟨SLV_STATE n, 0, 4⟩

/-! Table 04-17. -/

def SLV_ROUTE (n : Nat) : Nat := 0x400A002C + 0x400 * n
def SLV_ROUTE_ARMED (n : Nat) : Fld := ⟨SLV_ROUTE n, 3, 1⟩
def SLV_ROUTE_ARM_LE (n : Nat) : Fld := ⟨SLV_ROUTE n, 0, 3⟩

/-! Table 04-18. -/

def SLV_CNT_DETECT (n : Nat) : Nat := 0x400A0040 + 0x400 * n
def SLV_CNT_DETECT_COUNT (n : Nat) : Fld := ⟨SLV_CNT_DETECT n, 0, 32⟩

def SLV_CNT_OK (n : Nat) : Nat := 0x400A0044 + 0x400 * n
def SLV_CNT_OK_COUNT (n : Nat) : Fld := ⟨SLV_CNT_OK n, 0, 32⟩

def SLV_CNT_HDR_FAIL (n : Nat) : Nat := 0x400A0048 + 0x400 * n
def SLV_CNT_HDR_FAIL_COUNT (n : Nat) : Fld := ⟨SLV_CNT_HDR_FAIL n, 0, 32⟩

def SLV_CNT_LINING (n : Nat) : Nat := 0x400A004C + 0x400 * n
def SLV_CNT_LINING_COUNT (n : Nat) : Fld := ⟨SLV_CNT_LINING n, 0, 32⟩

def SLV_CNT_RESEARCH (n : Nat) : Nat := 0x400A0050 + 0x400 * n
def SLV_CNT_RESEARCH_COUNT (n : Nat) : Fld := ⟨SLV_CNT_RESEARCH n, 0, 32⟩

def SLV_CNT_FOUND (n : Nat) : Nat := 0x400A0054 + 0x400 * n
def SLV_CNT_FOUND_COUNT (n : Nat) : Fld := ⟨SLV_CNT_FOUND n, 0, 32⟩

def SLV_CNT_BLANKED (n : Nat) : Nat := 0x400A0058 + 0x400 * n
def SLV_CNT_BLANKED_COUNT (n : Nat) : Fld := ⟨SLV_CNT_BLANKED n, 0, 32⟩

def SLV_CNT_FCS_FAIL (n : Nat) : Nat := 0x400A005C + 0x400 * n
def SLV_CNT_FCS_FAIL_COUNT (n : Nat) : Fld := ⟨SLV_CNT_FCS_FAIL n, 0, 32⟩

def SLV_CNT_DROP (n : Nat) : Nat := 0x400A0060 + 0x400 * n
def SLV_CNT_DROP_COUNT (n : Nat) : Fld := ⟨SLV_CNT_DROP n, 0, 32⟩

def SLV_CNT_TRUNC (n : Nat) : Nat := 0x400A0064 + 0x400 * n
def SLV_CNT_TRUNC_COUNT (n : Nat) : Fld := ⟨SLV_CNT_TRUNC n, 0, 32⟩

/-! Table 04-19. -/

def SLV_COMMON : Nat := 0x400B0000
def SLV_COMMON_ROT_PERIOD_S : Fld := ⟨SLV_COMMON, 16, 16⟩
def SLV_COMMON_DEFAULT_LE : Fld := ⟨SLV_COMMON, 0, 3⟩

/-! Table 04-20. -/

def SLV_SPARES : Nat := 0x400B0004
def SLV_SPARES_MASK : Fld := ⟨SLV_SPARES, 0, 32⟩

def SLV_RETIRED : Nat := 0x400B0008
def SLV_RETIRED_MASK : Fld := ⟨SLV_RETIRED, 0, 32⟩

/-! Table 04-21. -/

def SLV_EVENTS : Nat := 0x400B000C
def SLV_EVENTS_RING_WRITE_IGNORED : Fld := ⟨SLV_EVENTS, 8, 1⟩
def SLV_EVENTS_CHAN_REFUSED : Fld := ⟨SLV_EVENTS, 7, 1⟩
def SLV_EVENTS_RESEARCH_TRUNC : Fld := ⟨SLV_EVENTS, 6, 1⟩
def SLV_EVENTS_REPORT_Q_FULL : Fld := ⟨SLV_EVENTS, 5, 1⟩
def SLV_EVENTS_SELFTEST_FAIL : Fld := ⟨SLV_EVENTS, 4, 1⟩
def SLV_EVENTS_ROTATED : Fld := ⟨SLV_EVENTS, 3, 1⟩
def SLV_EVENTS_UNSERVED : Fld := ⟨SLV_EVENTS, 2, 1⟩
def SLV_EVENTS_SPARE_USED : Fld := ⟨SLV_EVENTS, 1, 1⟩
def SLV_EVENTS_RESTARTED : Fld := ⟨SLV_EVENTS, 0, 1⟩

def SLV_INT_EN : Nat := 0x400B0010
def SLV_INT_EN_EN : Fld := ⟨SLV_INT_EN, 0, 9⟩

/-! Table 04-22. -/

def SLV_RQ_BASE (k : Nat) : Nat := 0x400B0100 + 0x10 * k
def SLV_RQ_BASE_ADDR (k : Nat) : Fld := ⟨SLV_RQ_BASE k, 6, 26⟩

def SLV_RQ_SIZE (k : Nat) : Nat := 0x400B0104 + 0x10 * k
def SLV_RQ_SIZE_ENTRIES (k : Nat) : Fld := ⟨SLV_RQ_SIZE k, 0, 16⟩

def SLV_RQ_WR (k : Nat) : Nat := 0x400B0108 + 0x10 * k
def SLV_RQ_WR_WR (k : Nat) : Fld := ⟨SLV_RQ_WR k, 0, 16⟩

def SLV_RQ_RD (k : Nat) : Nat := 0x400B010C + 0x10 * k
def SLV_RQ_RD_RD (k : Nat) : Fld := ⟨SLV_RQ_RD k, 0, 16⟩

/-! Table 05-16. -/

def TXP_CCA (p : Nat) : Nat := 0x400C0020 + 0x1000 * p
def TXP_CCA_LEN_US (p : Nat) : Fld := ⟨TXP_CCA p, 16, 10⟩
def TXP_CCA_ED_DBM (p : Nat) : Fld := ⟨TXP_CCA p, 0, 8⟩

/-! Table 05-17. -/

def TXP_SYNC0 (p : Nat) : Nat := 0x400C0028 + 0x1000 * p
def TXP_SYNC0_WORD (p : Nat) : Fld := ⟨TXP_SYNC0 p, 0, 32⟩

def TXP_SYNC1 (p : Nat) : Nat := 0x400C002C + 0x1000 * p
def TXP_SYNC1_WORD (p : Nat) : Fld := ⟨TXP_SYNC1 p, 0, 32⟩

/-! Table 05-18. -/

def TXP_SYNC_LEN (p : Nat) : Nat := 0x400C0030 + 0x1000 * p
def TXP_SYNC_LEN_LEN (p : Nat) : Fld := ⟨TXP_SYNC_LEN p, 0, 2⟩

/-! Table 05-19. -/

def TXP_CNT_CCA_BUSY (p : Nat) : Nat := 0x400C0034 + 0x1000 * p
def TXP_CNT_CCA_BUSY_COUNT (p : Nat) : Fld := ⟨TXP_CNT_CCA_BUSY p, 0, 32⟩

def TXP_CNT_REFUSED (p : Nat) : Nat := 0x400C0038 + 0x1000 * p
def TXP_CNT_REFUSED_COUNT (p : Nat) : Fld := ⟨TXP_CNT_REFUSED p, 0, 32⟩

/-! Table 05-20. -/

def TXP_CQ_BASE (p : Nat) (k : Nat) : Nat := 0x400C0100 + 0x1000 * p + 0x10 * k
def TXP_CQ_BASE_ADDR (p : Nat) (k : Nat) : Fld := ⟨TXP_CQ_BASE p k, 5, 27⟩

def TXP_CQ_SIZE (p : Nat) (k : Nat) : Nat := 0x400C0104 + 0x1000 * p + 0x10 * k
def TXP_CQ_SIZE_ENTRIES (p : Nat) (k : Nat) : Fld := ⟨TXP_CQ_SIZE p k, 0, 16⟩

def TXP_CQ_WR (p : Nat) (k : Nat) : Nat := 0x400C0108 + 0x1000 * p + 0x10 * k
def TXP_CQ_WR_WR (p : Nat) (k : Nat) : Fld := ⟨TXP_CQ_WR p k, 0, 16⟩

def TXP_CQ_RD (p : Nat) (k : Nat) : Nat := 0x400C010C + 0x1000 * p + 0x10 * k
def TXP_CQ_RD_RD (p : Nat) (k : Nat) : Fld := ⟨TXP_CQ_RD p k, 0, 16⟩

/-! Table 06-11. -/

def TREF_CTRL : Nat := 0x40047000
def TREF_CTRL_EDGE : Fld := ⟨TREF_CTRL, 6, 1⟩
def TREF_CTRL_PPS_OUT_EN : Fld := ⟨TREF_CTRL, 5, 1⟩
def TREF_CTRL_PPS_IN_EN : Fld := ⟨TREF_CTRL, 4, 1⟩
def TREF_CTRL_MODE : Fld := ⟨TREF_CTRL, 0, 2⟩

/-! Table 06-12. -/

def TREF_STATUS : Nat := 0x40047004
def TREF_STATUS_SLEWING : Fld := ⟨TREF_STATUS, 4, 1⟩
def TREF_STATUS_SLOW_ON_RC : Fld := ⟨TREF_STATUS, 3, 1⟩
def TREF_STATUS_HOLDOVER : Fld := ⟨TREF_STATUS, 2, 1⟩
def TREF_STATUS_LOCKED : Fld := ⟨TREF_STATUS, 1, 1⟩
def TREF_STATUS_CLK_PRESENT : Fld := ⟨TREF_STATUS, 0, 1⟩

/-! Table 06-13. -/

def TREF_TIME_LO : Nat := 0x40047008
def TREF_TIME_LO_TIME : Fld := ⟨TREF_TIME_LO, 0, 32⟩

def TREF_TIME_HI : Nat := 0x4004700C
def TREF_TIME_HI_TIME : Fld := ⟨TREF_TIME_HI, 0, 16⟩

/-! Table 06-14. -/

def TREF_RATE_ADJ : Nat := 0x40047010
def TREF_RATE_ADJ_ADJ : Fld := ⟨TREF_RATE_ADJ, 0, 32⟩

/-! Table 06-15. -/

def TREF_PHASE_ADJ : Nat := 0x40047014
def TREF_PHASE_ADJ_COUNTS : Fld := ⟨TREF_PHASE_ADJ, 0, 32⟩

def TREF_STEP : Nat := 0x4004701C
def TREF_STEP_COUNTS : Fld := ⟨TREF_STEP, 0, 32⟩

/-! Table 06-16. -/

def TREF_SLEW : Nat := 0x40047018
def TREF_SLEW_PPM : Fld := ⟨TREF_SLEW, 0, 8⟩

/-! Table 06-17. -/

def TREF_PPS_CAP_LO : Nat := 0x40047020
def TREF_PPS_CAP_LO_TIME : Fld := ⟨TREF_PPS_CAP_LO, 0, 32⟩

def TREF_PPS_CAP_HI : Nat := 0x40047024
def TREF_PPS_CAP_HI_FRAC : Fld := ⟨TREF_PPS_CAP_HI, 24, 5⟩
def TREF_PPS_CAP_HI_TIME : Fld := ⟨TREF_PPS_CAP_HI, 0, 16⟩

/-! Table 06-18. -/

def TREF_PPS_OUT_PERIOD : Nat := 0x40047028
def TREF_PPS_OUT_PERIOD_PERIOD : Fld := ⟨TREF_PPS_OUT_PERIOD, 0, 32⟩

def TREF_PPS_OUT_PHASE : Nat := 0x4004702C
def TREF_PPS_OUT_PHASE_PHASE : Fld := ⟨TREF_PPS_OUT_PHASE, 0, 32⟩

def TREF_PPS_OUT_WIDTH : Nat := 0x40047030
def TREF_PPS_OUT_WIDTH_WIDTH_US : Fld := ⟨TREF_PPS_OUT_WIDTH, 0, 16⟩

/-! Table 06-19. -/

def TREF_SLOW_INC : Nat := 0x40047034
def TREF_SLOW_INC_INC : Fld := ⟨TREF_SLOW_INC, 0, 32⟩

def TREF_CLK_ERR : Nat := 0x40047040
def TREF_CLK_ERR_ERR : Fld := ⟨TREF_CLK_ERR, 0, 32⟩

/-! Table 06-20. -/

def TREF_EVENTS : Nat := 0x40047038
def TREF_EVENTS_SLEW_DONE : Fld := ⟨TREF_EVENTS, 4, 1⟩
def TREF_EVENTS_STEP_REFUSED : Fld := ⟨TREF_EVENTS, 3, 1⟩
def TREF_EVENTS_CLK_LOST : Fld := ⟨TREF_EVENTS, 2, 1⟩
def TREF_EVENTS_GATE : Fld := ⟨TREF_EVENTS, 1, 1⟩
def TREF_EVENTS_PPS : Fld := ⟨TREF_EVENTS, 0, 1⟩

def TREF_INT_EN : Nat := 0x4004703C
def TREF_INT_EN_EN : Fld := ⟨TREF_INT_EN, 0, 5⟩

/-! Table 06-21. -/

def SE_CTRL : Nat := 0x40100000
def SE_CTRL_RUN : Fld := ⟨SE_CTRL, 0, 1⟩

def SE_STATUS : Nat := 0x40100004
def SE_STATUS_SRC_MISSES : Fld := ⟨SE_STATUS, 8, 8⟩
def SE_STATUS_CATCHUP : Fld := ⟨SE_STATUS, 3, 1⟩
def SE_STATUS_SOURCE_VALID : Fld := ⟨SE_STATUS, 2, 1⟩
def SE_STATUS_STATE : Fld := ⟨SE_STATUS, 0, 2⟩

/-! Table 06-22. -/

def SE_ASN_LO : Nat := 0x40100008
def SE_ASN_LO_ASN : Fld := ⟨SE_ASN_LO, 0, 32⟩

def SE_ASN_HI : Nat := 0x4010000C
def SE_ASN_HI_ASN : Fld := ⟨SE_ASN_HI, 0, 8⟩

/-! Table 06-23. -/

def SE_ANCHOR_ASN_LO : Nat := 0x40100010
def SE_ANCHOR_ASN_LO_VALUE : Fld := ⟨SE_ANCHOR_ASN_LO, 0, 32⟩

def SE_ANCHOR_ASN_HI : Nat := 0x40100014
def SE_ANCHOR_ASN_HI_VALUE : Fld := ⟨SE_ANCHOR_ASN_HI, 0, 8⟩

def SE_ANCHOR_TIME_LO : Nat := 0x40100018
def SE_ANCHOR_TIME_LO_VALUE : Fld := ⟨SE_ANCHOR_TIME_LO, 0, 32⟩

def SE_ANCHOR_TIME_HI : Nat := 0x4010001C
def SE_ANCHOR_TIME_HI_VALUE : Fld := ⟨SE_ANCHOR_TIME_HI, 0, 16⟩

/-! Table 06-24. -/

def SE_SLOT_LEN : Nat := 0x40100020
def SE_SLOT_LEN_LEN : Fld := ⟨SE_SLOT_LEN, 0, 22⟩

/-! Table 06-25. -/

def SE_TEMPLATE0 : Nat := 0x40100024
def SE_TEMPLATE0_ACK_DELAY_US : Fld := ⟨SE_TEMPLATE0, 16, 16⟩
def SE_TEMPLATE0_TX_OFFSET_US : Fld := ⟨SE_TEMPLATE0, 0, 16⟩

def SE_TEMPLATE1 : Nat := 0x40100028
def SE_TEMPLATE1_ACK_MAX_US : Fld := ⟨SE_TEMPLATE1, 16, 16⟩
def SE_TEMPLATE1_ACK_GUARD_US : Fld := ⟨SE_TEMPLATE1, 0, 16⟩

/-! Table 06-26. -/

def SE_LEAD0 : Nat := 0x4010002C
def SE_LEAD0_PREP_LEAD_US : Fld := ⟨SE_LEAD0, 16, 16⟩
def SE_LEAD0_WAKE_LEAD_US : Fld := ⟨SE_LEAD0, 0, 16⟩

def SE_LEAD1 : Nat := 0x40100030
def SE_LEAD1_HOP_LEAD_US : Fld := ⟨SE_LEAD1, 0, 16⟩

/-! Table 06-27. -/

def SE_HEM : Nat := 0x40100034
def SE_HEM_CAP_US : Fld := ⟨SE_HEM, 16, 16⟩
def SE_HEM_BASE_US : Fld := ⟨SE_HEM, 0, 16⟩

/-! Table 06-28. -/

def SE_SOURCE : Nat := 0x40100038
def SE_SOURCE_NONE : Fld := ⟨SE_SOURCE, 31, 1⟩
def SE_SOURCE_PARTNER : Fld := ⟨SE_SOURCE, 0, 12⟩

/-! Table 06-29. -/

def SE_AGING : Nat := 0x4010003C
def SE_AGING_AGE_SF : Fld := ⟨SE_AGING, 24, 3⟩
def SE_AGING_LIMIT2 : Fld := ⟨SE_AGING, 16, 8⟩
def SE_AGING_LIMIT1 : Fld := ⟨SE_AGING, 8, 8⟩
def SE_AGING_LIMIT0 : Fld := ⟨SE_AGING, 0, 8⟩

/-! Table 06-30. -/

def SE_ACCESS : Nat := 0x40100040
def SE_ACCESS_MAX_CCA : Fld := ⟨SE_ACCESS, 12, 4⟩
def SE_ACCESS_MAX_BE : Fld := ⟨SE_ACCESS, 8, 4⟩
def SE_ACCESS_MIN_BE : Fld := ⟨SE_ACCESS, 4, 4⟩
def SE_ACCESS_MAX_TRIES : Fld := ⟨SE_ACCESS, 0, 4⟩

/-! Table 06-31. -/

def SE_MISS : Nat := 0x40100044
def SE_MISS_ALT_WINDOW : Fld := ⟨SE_MISS, 16, 16⟩
def SE_MISS_REMOVE_AFTER : Fld := ⟨SE_MISS, 8, 8⟩
def SE_MISS_QUIET_AFTER : Fld := ⟨SE_MISS, 0, 8⟩

def SE_DRIFT : Nat := 0x40100048
def SE_DRIFT_MAX : Fld := ⟨SE_DRIFT, 0, 16⟩

def SE_CATCHUP : Nat := 0x4010004C
def SE_CATCHUP_STEP_SHIFT : Fld := ⟨SE_CATCHUP, 0, 4⟩

/-! Table 06-32. -/

def SE_NEXT_WORK_LO : Nat := 0x40100050
def SE_NEXT_WORK_LO_TIME : Fld := ⟨SE_NEXT_WORK_LO, 0, 32⟩

def SE_NEXT_WORK_HI : Nat := 0x40100054
def SE_NEXT_WORK_HI_TIME : Fld := ⟨SE_NEXT_WORK_HI, 0, 16⟩

def SE_HOP_CFG : Nat := 0x40100058
def SE_HOP_CFG_IS_LEN : Fld := ⟨SE_HOP_CFG, 8, 8⟩
def SE_HOP_CFG_SG_LEN : Fld := ⟨SE_HOP_CFG, 0, 8⟩

/-! Table 06-33. -/

def SE_EVENTS : Nat := 0x40100060
def SE_EVENTS_SOURCE_REFUSED : Fld := ⟨SE_EVENTS, 10, 1⟩
def SE_EVENTS_SOURCE_CHANGED : Fld := ⟨SE_EVENTS, 9, 1⟩
def SE_EVENTS_WRITE_REFUSED : Fld := ⟨SE_EVENTS, 8, 1⟩
def SE_EVENTS_NO_HOP : Fld := ⟨SE_EVENTS, 7, 1⟩
def SE_EVENTS_TABLE_ORDER : Fld := ⟨SE_EVENTS, 6, 1⟩
def SE_EVENTS_LEDGER_REFUSED : Fld := ⟨SE_EVENTS, 5, 1⟩
def SE_EVENTS_CHILD_REMOVED : Fld := ⟨SE_EVENTS, 4, 1⟩
def SE_EVENTS_CHILD_QUIET : Fld := ⟨SE_EVENTS, 3, 1⟩
def SE_EVENTS_REJOIN : Fld := ⟨SE_EVENTS, 2, 1⟩
def SE_EVENTS_MISS : Fld := ⟨SE_EVENTS, 1, 1⟩
def SE_EVENTS_PARENT_LOST : Fld := ⟨SE_EVENTS, 0, 1⟩

def SE_INT_EN : Nat := 0x40100064
def SE_INT_EN_EN : Fld := ⟨SE_INT_EN, 0, 11⟩

def SE_EVENT_PARTNER : Nat := 0x40100068
def SE_EVENT_PARTNER_PARTNER : Fld := ⟨SE_EVENT_PARTNER, 0, 12⟩

/-! Table 06-34. -/

def SE_CNT_LATE : Nat := 0x40100080
def SE_CNT_LATE_COUNT : Fld := ⟨SE_CNT_LATE, 0, 32⟩

def SE_CNT_LEDGER : Nat := 0x40100084
def SE_CNT_LEDGER_COUNT : Fld := ⟨SE_CNT_LEDGER, 0, 32⟩

def SE_CNT_NO_SLEEVE : Nat := 0x40100088
def SE_CNT_NO_SLEEVE_COUNT : Fld := ⟨SE_CNT_NO_SLEEVE, 0, 32⟩

def SE_CNT_BLANK_SKIP : Nat := 0x4010008C
def SE_CNT_BLANK_SKIP_COUNT : Fld := ⟨SE_CNT_BLANK_SKIP, 0, 32⟩

def SE_CNT_MISS : Nat := 0x40100090
def SE_CNT_MISS_COUNT : Fld := ⟨SE_CNT_MISS, 0, 32⟩

def SE_CNT_SYNC_REJECT : Nat := 0x40100094
def SE_CNT_SYNC_REJECT_COUNT : Fld := ⟨SE_CNT_SYNC_REJECT, 0, 32⟩

def SE_CNT_ACK_LATE : Nat := 0x40100098
def SE_CNT_ACK_LATE_COUNT : Fld := ⟨SE_CNT_ACK_LATE, 0, 32⟩

/-! Table 06-35. -/

def SE_SF_CFG (k : Nat) : Nat := 0x40100100 + 0x10 * k
def SE_SF_CFG_ENABLE (k : Nat) : Fld := ⟨SE_SF_CFG k, 31, 1⟩
def SE_SF_CFG_LENGTH (k : Nat) : Fld := ⟨SE_SF_CFG k, 0, 16⟩

def SE_SF_BASE (k : Nat) : Nat := 0x40100104 + 0x10 * k
def SE_SF_BASE_ADDR (k : Nat) : Fld := ⟨SE_SF_BASE k, 4, 28⟩

def SE_SF_COUNT (k : Nat) : Nat := 0x40100108 + 0x10 * k
def SE_SF_COUNT_COUNT (k : Nat) : Fld := ⟨SE_SF_COUNT k, 0, 11⟩

def SE_SF_PEND (k : Nat) : Nat := 0x4010010C + 0x10 * k
def SE_SF_PEND_PENDING (k : Nat) : Fld := ⟨SE_SF_PEND k, 0, 1⟩

/-! Table 06-36. -/

def SE_LEDGER_SEL : Nat := 0x40100200
def SE_LEDGER_SEL_INDEX : Fld := ⟨SE_LEDGER_SEL, 0, 9⟩

def SE_LEDGER_USED : Nat := 0x40100204
def SE_LEDGER_USED_US : Fld := ⟨SE_LEDGER_USED, 0, 32⟩

def SE_LEDGER_LIMIT : Nat := 0x40100208
def SE_LEDGER_LIMIT_US : Fld := ⟨SE_LEDGER_LIMIT, 0, 32⟩

/-! Table 06-37. -/

def SE_HOP_SG (i : Nat) : Nat := 0x40100400 + 0x4 * i
def SE_HOP_SG_CHANNEL_KHZ (i : Nat) : Fld := ⟨SE_HOP_SG i, 0, 24⟩

def SE_HOP_IS (i : Nat) : Nat := 0x40100600 + 0x4 * i
def SE_HOP_IS_CHANNEL_KHZ (i : Nat) : Fld := ⟨SE_HOP_IS i, 0, 24⟩

/-! Table 06-38. -/

def LE_STATE (k : Nat) : Nat := 0x40120000 + 0x100 * k
def LE_STATE_SELFTEST (k : Nat) : Fld := ⟨LE_STATE k, 4, 1⟩
def LE_STATE_CATCHUP (k : Nat) : Fld := ⟨LE_STATE k, 3, 1⟩
def LE_STATE_RUNNING (k : Nat) : Fld := ⟨LE_STATE k, 2, 1⟩
def LE_STATE_ROLE (k : Nat) : Fld := ⟨LE_STATE k, 0, 2⟩

def LE_RANGE (k : Nat) : Nat := 0x40120004 + 0x100 * k
def LE_RANGE_COUNT (k : Nat) : Fld := ⟨LE_RANGE k, 16, 11⟩
def LE_RANGE_FIRST (k : Nat) : Fld := ⟨LE_RANGE k, 0, 12⟩

def LE_LAG (k : Nat) : Nat := 0x40120008 + 0x100 * k
def LE_LAG_TICK_LAG_US (k : Nat) : Fld := ⟨LE_LAG k, 16, 16⟩
def LE_LAG_PREP_ADV_US (k : Nat) : Fld := ⟨LE_LAG k, 0, 16⟩

def LE_TICK (k : Nat) : Nat := 0x4012000C + 0x100 * k
def LE_TICK_TICK_US (k : Nat) : Fld := ⟨LE_TICK k, 0, 16⟩

def LE_CNT_LATE (k : Nat) : Nat := 0x40120010 + 0x100 * k
def LE_CNT_LATE_COUNT (k : Nat) : Fld := ⟨LE_CNT_LATE k, 0, 32⟩

/-! Table 06-39. -/

def LE_MAP : Nat := 0x40120800
def LE_MAP_MAP : Fld := ⟨LE_MAP, 0, 24⟩

def LE_ROT : Nat := 0x40120804
def LE_ROT_PERIOD_S : Fld := ⟨LE_ROT, 16, 16⟩

/-! Table 06-40. -/

def LE_EVENTS : Nat := 0x40120808
def LE_EVENTS_NO_SPARE : Fld := ⟨LE_EVENTS, 4, 1⟩
def LE_EVENTS_SELFTEST_FAIL : Fld := ⟨LE_EVENTS, 3, 1⟩
def LE_EVENTS_ROTATED : Fld := ⟨LE_EVENTS, 2, 1⟩
def LE_EVENTS_SWITCHED : Fld := ⟨LE_EVENTS, 1, 1⟩
def LE_EVENTS_RESTARTED : Fld := ⟨LE_EVENTS, 0, 1⟩

def LE_INT_EN : Nat := 0x4012080C
def LE_INT_EN_EN : Fld := ⟨LE_INT_EN, 0, 5⟩

/-! Table 07-15. -/

def ML_SELF : Nat := 0x40140000
def ML_SELF_PAN_ID : Fld := ⟨ML_SELF, 16, 16⟩
def ML_SELF_ADDR : Fld := ⟨ML_SELF, 0, 16⟩

/-! Table 07-16. -/

def ML_CFG : Nat := 0x40140004
def ML_CFG_BCAST_LE : Fld := ⟨ML_CFG, 12, 3⟩
def ML_CFG_MAC : Fld := ⟨ML_CFG, 10, 2⟩
def ML_CFG_UNKNOWN : Fld := ⟨ML_CFG, 8, 2⟩
def ML_CFG_DEF_HOPS : Fld := ⟨ML_CFG, 4, 4⟩
def ML_CFG_BEACON_RAW : Fld := ⟨ML_CFG, 3, 1⟩
def ML_CFG_SCRUB_ON_FREE : Fld := ⟨ML_CFG, 2, 1⟩
def ML_CFG_REBROADCAST : Fld := ⟨ML_CFG, 1, 1⟩
def ML_CFG_ENABLE : Fld := ⟨ML_CFG, 0, 1⟩

/-! Table 07-17. -/

def ML_DELIVER : Nat := 0x40140008
def ML_DELIVER_ROUTE : Fld := ⟨ML_DELIVER, 4, 2⟩
def ML_DELIVER_REQUEST : Fld := ⟨ML_DELIVER, 2, 2⟩
def ML_DELIVER_DATA : Fld := ⟨ML_DELIVER, 0, 2⟩

/-! Table 07-18. -/

def ML_POOL_BASE : Nat := 0x4014000C
def ML_POOL_BASE_ADDR : Fld := ⟨ML_POOL_BASE, 8, 24⟩

def ML_POOL_CFG : Nat := 0x40140010
def ML_POOL_CFG_COUNT : Fld := ⟨ML_POOL_CFG, 16, 12⟩
def ML_POOL_CFG_BUF_SIZE : Fld := ⟨ML_POOL_CFG, 0, 2⟩

def ML_POOL_RES : Nat := 0x40140014
def ML_POOL_RES_BUSY_TH : Fld := ⟨ML_POOL_RES, 16, 12⟩
def ML_POOL_RES_CONTROL_RES : Fld := ⟨ML_POOL_RES, 0, 12⟩

def ML_POOL_STATUS : Nat := 0x40140018
def ML_POOL_STATUS_CONTROL_HELD : Fld := ⟨ML_POOL_STATUS, 16, 12⟩
def ML_POOL_STATUS_FREE : Fld := ⟨ML_POOL_STATUS, 0, 12⟩

def ML_LIMITS : Nat := 0x4014001C
def ML_LIMITS_BCAST_FRAG : Fld := ⟨ML_LIMITS, 16, 16⟩
def ML_LIMITS_HINT_SLOTS : Fld := ⟨ML_LIMITS, 0, 16⟩

def ML_POOL_QUOTA (k : Nat) : Nat := 0x40140020 + 0x4 * k
def ML_POOL_QUOTA_HELD (k : Nat) : Fld := ⟨ML_POOL_QUOTA k, 16, 12⟩
def ML_POOL_QUOTA_QUOTA (k : Nat) : Fld := ⟨ML_POOL_QUOTA k, 0, 12⟩

/-! Table 07-19. -/

def ML_DT_BASE : Nat := 0x40140040
def ML_DT_BASE_ADDR : Fld := ⟨ML_DT_BASE, 3, 29⟩

def ML_RT_BASE : Nat := 0x40140044
def ML_RT_BASE_ADDR : Fld := ⟨ML_RT_BASE, 6, 26⟩

def ML_RT_CFG : Nat := 0x40140048
def ML_RT_CFG_ENABLE : Fld := ⟨ML_RT_CFG, 4, 1⟩
def ML_RT_CFG_SHIFT : Fld := ⟨ML_RT_CFG, 0, 4⟩

def ML_RA_CFG : Nat := 0x4014004C
def ML_RA_CFG_TIMEOUT_100MS : Fld := ⟨ML_RA_CFG, 16, 16⟩
def ML_RA_CFG_CONTEXTS : Fld := ⟨ML_RA_CFG, 0, 9⟩

def ML_RA_BASE : Nat := 0x40140050
def ML_RA_BASE_ADDR : Fld := ⟨ML_RA_BASE, 6, 26⟩

def ML_TXN_CFG : Nat := 0x40140054
def ML_TXN_CFG_TIMEOUT_100MS : Fld := ⟨ML_TXN_CFG, 16, 16⟩
def ML_TXN_CFG_RETRIES : Fld := ⟨ML_TXN_CFG, 0, 4⟩

def ML_TXN_NEXT : Nat := 0x40140058
def ML_TXN_NEXT_NEXT : Fld := ⟨ML_TXN_NEXT, 0, 16⟩

def ML_STREAM : Nat := 0x4014005C
def ML_STREAM_ENABLE : Fld := ⟨ML_STREAM, 31, 1⟩
def ML_STREAM_MIN_LEN : Fld := ⟨ML_STREAM, 0, 13⟩

def ML_DESC_FREE : Nat := 0x40140060
def ML_DESC_FREE_INDEX : Fld := ⟨ML_DESC_FREE, 0, 11⟩

def ML_STATUS : Nat := 0x40140064
def ML_STATUS_TXN_OPEN : Fld := ⟨ML_STATUS, 16, 9⟩
def ML_STATUS_RA_IN_USE : Fld := ⟨ML_STATUS, 0, 9⟩

def ML_TXN_BASE : Nat := 0x40140068
def ML_TXN_BASE_ADDR : Fld := ⟨ML_TXN_BASE, 5, 27⟩

/-! Table 07-20. -/

def ML_EVENTS : Nat := 0x40140070
def ML_EVENTS_WRITE_IGNORED : Fld := ⟨ML_EVENTS, 11, 1⟩
def ML_EVENTS_BAD_FREE : Fld := ⟨ML_EVENTS, 10, 1⟩
def ML_EVENTS_NEW_ORIGIN : Fld := ⟨ML_EVENTS, 9, 1⟩
def ML_EVENTS_AUTH_FAIL : Fld := ⟨ML_EVENTS, 8, 1⟩
def ML_EVENTS_LOOP : Fld := ⟨ML_EVENTS, 7, 1⟩
def ML_EVENTS_NO_ROUTE : Fld := ⟨ML_EVENTS, 6, 1⟩
def ML_EVENTS_DQ_FULL : Fld := ⟨ML_EVENTS, 5, 1⟩
def ML_EVENTS_RA_TIMEOUT : Fld := ⟨ML_EVENTS, 4, 1⟩
def ML_EVENTS_RA_FULL : Fld := ⟨ML_EVENTS, 3, 1⟩
def ML_EVENTS_CTRL_DROP : Fld := ⟨ML_EVENTS, 2, 1⟩
def ML_EVENTS_POOL_DROP : Fld := ⟨ML_EVENTS, 1, 1⟩
def ML_EVENTS_POOL_BUSY : Fld := ⟨ML_EVENTS, 0, 1⟩

def ML_INT_EN : Nat := 0x40140074
def ML_INT_EN_EN : Fld := ⟨ML_INT_EN, 0, 12⟩

/-! Table 07-21. -/

def ML_CNT_FORMAT_DROP : Nat := 0x40140080
def ML_CNT_FORMAT_DROP_COUNT : Fld := ⟨ML_CNT_FORMAT_DROP, 0, 32⟩

def ML_CNT_DUP : Nat := 0x40140084
def ML_CNT_DUP_COUNT : Fld := ⟨ML_CNT_DUP, 0, 32⟩

def ML_CNT_STALE : Nat := 0x40140088
def ML_CNT_STALE_COUNT : Fld := ⟨ML_CNT_STALE, 0, 32⟩

def ML_CNT_AUTH_FAIL : Nat := 0x4014008C
def ML_CNT_AUTH_FAIL_COUNT : Fld := ⟨ML_CNT_AUTH_FAIL, 0, 32⟩

def ML_CNT_SEC_DROP : Nat := 0x40140090
def ML_CNT_SEC_DROP_COUNT : Fld := ⟨ML_CNT_SEC_DROP, 0, 32⟩

def ML_CNT_POOL_DROP : Nat := 0x40140094
def ML_CNT_POOL_DROP_COUNT : Fld := ⟨ML_CNT_POOL_DROP, 0, 32⟩

def ML_CNT_CTRL_DROP : Nat := 0x40140098
def ML_CNT_CTRL_DROP_COUNT : Fld := ⟨ML_CNT_CTRL_DROP, 0, 32⟩

def ML_CNT_RA_FULL : Nat := 0x4014009C
def ML_CNT_RA_FULL_COUNT : Fld := ⟨ML_CNT_RA_FULL, 0, 32⟩

def ML_CNT_RA_TIMEOUT : Nat := 0x401400A0
def ML_CNT_RA_TIMEOUT_COUNT : Fld := ⟨ML_CNT_RA_TIMEOUT, 0, 32⟩

def ML_CNT_FRAG_DUP : Nat := 0x401400A4
def ML_CNT_FRAG_DUP_COUNT : Fld := ⟨ML_CNT_FRAG_DUP, 0, 32⟩

def ML_CNT_MSG_DUP : Nat := 0x401400A8
def ML_CNT_MSG_DUP_COUNT : Fld := ⟨ML_CNT_MSG_DUP, 0, 32⟩

def ML_CNT_TOO_OLD : Nat := 0x401400AC
def ML_CNT_TOO_OLD_COUNT : Fld := ⟨ML_CNT_TOO_OLD, 0, 32⟩

def ML_CNT_UNMATCHED : Nat := 0x401400B0
def ML_CNT_UNMATCHED_COUNT : Fld := ⟨ML_CNT_UNMATCHED, 0, 32⟩

def ML_CNT_HOP_LIMIT : Nat := 0x401400B4
def ML_CNT_HOP_LIMIT_COUNT : Fld := ⟨ML_CNT_HOP_LIMIT, 0, 32⟩

def ML_CNT_LOOP : Nat := 0x401400B8
def ML_CNT_LOOP_COUNT : Fld := ⟨ML_CNT_LOOP, 0, 32⟩

def ML_CNT_NO_ROUTE : Nat := 0x401400BC
def ML_CNT_NO_ROUTE_COUNT : Fld := ⟨ML_CNT_NO_ROUTE, 0, 32⟩

def ML_CNT_DQ_FULL : Nat := 0x401400C0
def ML_CNT_DQ_FULL_COUNT : Fld := ⟨ML_CNT_DQ_FULL, 0, 32⟩

def ML_CNT_FWD : Nat := 0x401400C4
def ML_CNT_FWD_COUNT : Fld := ⟨ML_CNT_FWD, 0, 32⟩

def ML_CNT_FWD_FAIL : Nat := 0x401400C8
def ML_CNT_FWD_FAIL_COUNT : Fld := ⟨ML_CNT_FWD_FAIL, 0, 32⟩

/-! Table 07-22. -/

def ML_RING_BASE (j : Nat) : Nat := 0x40140100 + 0x10 * j
def ML_RING_BASE_ADDR (j : Nat) : Fld := ⟨ML_RING_BASE j, 5, 27⟩

def ML_RING_SIZE (j : Nat) : Nat := 0x40140104 + 0x10 * j
def ML_RING_SIZE_ENTRIES (j : Nat) : Fld := ⟨ML_RING_SIZE j, 0, 16⟩

def ML_RING_WR (j : Nat) : Nat := 0x40140108 + 0x10 * j
def ML_RING_WR_WR (j : Nat) : Fld := ⟨ML_RING_WR j, 0, 16⟩

def ML_RING_RD (j : Nat) : Nat := 0x4014010C + 0x10 * j
def ML_RING_RD_RD (j : Nat) : Fld := ⟨ML_RING_RD j, 0, 16⟩

/-! Table 07-23. -/

def PT_CMD : Nat := 0x40150000
def PT_CMD_RESULT : Fld := ⟨PT_CMD, 24, 8⟩
def PT_CMD_PENDING : Fld := ⟨PT_CMD, 8, 1⟩
def PT_CMD_OP : Fld := ⟨PT_CMD, 0, 3⟩

/-! Table 07-24. -/

def PT_INDEX : Nat := 0x40150004
def PT_INDEX_INDEX : Fld := ⟨PT_INDEX, 0, 12⟩

def PT_EXT_LO : Nat := 0x40150008
def PT_EXT_LO_ADDR : Fld := ⟨PT_EXT_LO, 0, 32⟩

def PT_EXT_HI : Nat := 0x4015000C
def PT_EXT_HI_ADDR : Fld := ⟨PT_EXT_HI, 0, 32⟩

def PT_SHORT : Nat := 0x40150010
def PT_SHORT_PAN_ID : Fld := ⟨PT_SHORT, 16, 16⟩
def PT_SHORT_SHORT : Fld := ⟨PT_SHORT, 0, 16⟩

def PT_ATTR0 : Nat := 0x40150014
def PT_ATTR0_ALT_RANK : Fld := ⟨PT_ATTR0, 16, 8⟩
def PT_ATTR0_ALT : Fld := ⟨PT_ATTR0, 12, 1⟩
def PT_ATTR0_SYNC_ROLE : Fld := ⟨PT_ATTR0, 10, 2⟩
def PT_ATTR0_KEY_SHORT : Fld := ⟨PT_ATTR0, 9, 1⟩
def PT_ATTR0_KEY_EXT : Fld := ⟨PT_ATTR0, 8, 1⟩
def PT_ATTR0_POCKET : Fld := ⟨PT_ATTR0, 0, 6⟩

def PT_ATTR1 : Nat := 0x40150018
def PT_ATTR1_GROUP_EN : Fld := ⟨PT_ATTR1, 23, 1⟩
def PT_ATTR1_GROUP_POCKET : Fld := ⟨PT_ATTR1, 16, 6⟩
def PT_ATTR1_FRAG_DATA : Fld := ⟨PT_ATTR1, 0, 16⟩

def PT_STATUS : Nat := 0x4015001C
def PT_STATUS_KEYS_USED : Fld := ⟨PT_STATUS, 16, 14⟩
def PT_STATUS_VALID_COUNT : Fld := ⟨PT_STATUS, 0, 13⟩

def PT_CNT_MISS : Nat := 0x40150028
def PT_CNT_MISS_COUNT : Fld := ⟨PT_CNT_MISS, 0, 32⟩

/-! Table 07-25. -/

def PT_EVENTS : Nat := 0x40150020
def PT_EVENTS_INDEX_REBUILT : Fld := ⟨PT_EVENTS, 2, 1⟩
def PT_EVENTS_CMD_IGNORED : Fld := ⟨PT_EVENTS, 1, 1⟩
def PT_EVENTS_CMD_DONE : Fld := ⟨PT_EVENTS, 0, 1⟩

def PT_INT_EN : Nat := 0x40150024
def PT_INT_EN_EN : Fld := ⟨PT_INT_EN, 0, 3⟩

/-! Table 08-13. -/

def PCK_CMD : Nat := 0x40060000
def PCK_CMD_RESULT : Fld := ⟨PCK_CMD, 24, 8⟩
def PCK_CMD_CALLER : Fld := ⟨PCK_CMD, 16, 5⟩
def PCK_CMD_PENDING : Fld := ⟨PCK_CMD, 8, 1⟩
def PCK_CMD_OP : Fld := ⟨PCK_CMD, 0, 3⟩

/-! Table 08-14. -/

def PCK_ARG0 : Nat := 0x40060004
def PCK_ARG0_KEK : Fld := ⟨PCK_ARG0, 8, 6⟩
def PCK_ARG0_POCKET : Fld := ⟨PCK_ARG0, 0, 6⟩

def PCK_ARG1 : Nat := 0x40060008
def PCK_ARG1_ADDR : Fld := ⟨PCK_ARG1, 3, 29⟩

def PCK_SEL : Nat := 0x4006000C
def PCK_SEL_POCKET : Fld := ⟨PCK_SEL, 0, 6⟩

def PCK_STATE : Nat := 0x40060010
def PCK_STATE_OLD_PENDING : Fld := ⟨PCK_STATE, 24, 8⟩
def PCK_STATE_CUR_PENDING : Fld := ⟨PCK_STATE, 16, 8⟩
def PCK_STATE_GEN : Fld := ⟨PCK_STATE, 8, 8⟩
def PCK_STATE_EXHAUSTED : Fld := ⟨PCK_STATE, 3, 1⟩
def PCK_STATE_STATE : Fld := ⟨PCK_STATE, 0, 3⟩

def PCK_FC : Nat := 0x40060014
def PCK_FC_FC : Fld := ⟨PCK_FC, 0, 32⟩

def PCK_FAILS : Nat := 0x40060018
def PCK_FAILS_REJECTS : Fld := ⟨PCK_FAILS, 16, 16⟩
def PCK_FAILS_AUTH_FAILS : Fld := ⟨PCK_FAILS, 0, 16⟩

/-! Table 08-15. -/

def PCK_CFG : Nat := 0x4006001C
def PCK_CFG_FAIL_ALERT : Fld := ⟨PCK_CFG, 16, 16⟩
def PCK_CFG_FC_STEP_LOG2 : Fld := ⟨PCK_CFG, 0, 5⟩

/-! Table 08-16. -/

def PCK_RANDOM : Nat := 0x40060020
def PCK_RANDOM_VALUE : Fld := ⟨PCK_RANDOM, 0, 32⟩

def PCK_ENT_STATUS : Nat := 0x40060024
def PCK_ENT_STATUS_STARTUP_FAILS : Fld := ⟨PCK_ENT_STATUS, 8, 8⟩
def PCK_ENT_STATUS_DRBG_READY : Fld := ⟨PCK_ENT_STATUS, 2, 1⟩
def PCK_ENT_STATUS_STATE : Fld := ⟨PCK_ENT_STATUS, 0, 2⟩

def PCK_ENT_CNT : Nat := 0x40060028
def PCK_ENT_CNT_APT : Fld := ⟨PCK_ENT_CNT, 16, 16⟩
def PCK_ENT_CNT_RCT : Fld := ⟨PCK_ENT_CNT, 0, 16⟩

/-! Table 08-17. -/

def PCK_EVENTS : Nat := 0x40060030
def PCK_EVENTS_POCKET_ERASED : Fld := ⟨PCK_EVENTS, 12, 1⟩
def PCK_EVENTS_JOURNAL_FAIL : Fld := ⟨PCK_EVENTS, 11, 1⟩
def PCK_EVENTS_JOURNAL_LOSS : Fld := ⟨PCK_EVENTS, 10, 1⟩
def PCK_EVENTS_RANDOM_EMPTY : Fld := ⟨PCK_EVENTS, 9, 1⟩
def PCK_EVENTS_ENTROPY_LOST : Fld := ⟨PCK_EVENTS, 8, 1⟩
def PCK_EVENTS_ENTROPY_FAIL : Fld := ⟨PCK_EVENTS, 7, 1⟩
def PCK_EVENTS_STORE_UNCORR : Fld := ⟨PCK_EVENTS, 6, 1⟩
def PCK_EVENTS_GEN_SCRUBBED : Fld := ⟨PCK_EVENTS, 5, 1⟩
def PCK_EVENTS_NEAR_EXHAUST : Fld := ⟨PCK_EVENTS, 4, 1⟩
def PCK_EVENTS_EXHAUSTED : Fld := ⟨PCK_EVENTS, 3, 1⟩
def PCK_EVENTS_FAIL_ALERT : Fld := ⟨PCK_EVENTS, 2, 1⟩
def PCK_EVENTS_CMD_IGNORED : Fld := ⟨PCK_EVENTS, 1, 1⟩
def PCK_EVENTS_CMD_DONE : Fld := ⟨PCK_EVENTS, 0, 1⟩

def PCK_INT_EN : Nat := 0x40060034
def PCK_INT_EN_EN : Fld := ⟨PCK_INT_EN, 0, 13⟩

def PCK_EVENT_POCKET : Nat := 0x40060038
def PCK_EVENT_POCKET_POCKET : Fld := ⟨PCK_EVENT_POCKET, 0, 6⟩

/-! Table 08-18. -/

def PCK_POLICY (n : Nat) : Nat := 0x40060100 + 0x4 * n
def PCK_POLICY_POLICY (n : Nat) : Fld := ⟨PCK_POLICY n, 0, 32⟩

/-! Table 08-19. -/

def CE_SUB_ADDR (r : Nat) : Nat := 0x40061000 + 0x10 * r
def CE_SUB_ADDR_ADDR (r : Nat) : Fld := ⟨CE_SUB_ADDR r, 6, 26⟩

def CE_SUB_STAT (r : Nat) : Nat := 0x40061004 + 0x10 * r
def CE_SUB_STAT_LAST_STATUS (r : Nat) : Fld := ⟨CE_SUB_STAT r, 24, 8⟩
def CE_SUB_STAT_HELD (r : Nat) : Fld := ⟨CE_SUB_STAT r, 8, 5⟩

def CE_DONE (r : Nat) : Nat := 0x40061008 + 0x10 * r
def CE_DONE_COUNT (r : Nat) : Fld := ⟨CE_DONE r, 0, 16⟩

def CE_QUOTA (r : Nat) : Nat := 0x4006100C + 0x10 * r
def CE_QUOTA_QUOTA (r : Nat) : Fld := ⟨CE_QUOTA r, 0, 5⟩

/-! Table 08-20. -/

def CE_QSTAT : Nat := 0x40061100
def CE_QSTAT_COMPUTE_HELD : Fld := ⟨CE_QSTAT, 24, 7⟩
def CE_QSTAT_SECURE_HELD : Fld := ⟨CE_QSTAT, 16, 7⟩
def CE_QSTAT_AIR_HELD : Fld := ⟨CE_QSTAT, 8, 7⟩
def CE_QSTAT_FREE : Fld := ⟨CE_QSTAT, 0, 7⟩

def CE_RES : Nat := 0x40061104
def CE_RES_SECURE_RES : Fld := ⟨CE_RES, 8, 5⟩
def CE_RES_AIR_RES : Fld := ⟨CE_RES, 0, 6⟩

def CE_ENG : Nat := 0x40061108
def CE_ENG_ENG_1 : Fld := ⟨CE_ENG, 8, 5⟩
def CE_ENG_ENG_0 : Fld := ⟨CE_ENG, 0, 5⟩

def CE_ROT : Nat := 0x4006110C
def CE_ROT_PERIOD_S : Fld := ⟨CE_ROT, 16, 16⟩

/-! Table 08-21. -/

def CE_EVENTS : Nat := 0x40061110
def CE_EVENTS_DONE_r : Fld := ⟨CE_EVENTS, 16, 9⟩
def CE_EVENTS_DEFERRED : Fld := ⟨CE_EVENTS, 8, 1⟩
def CE_EVENTS_SEED_STALE : Fld := ⟨CE_EVENTS, 7, 1⟩
def CE_EVENTS_SELFTEST_FAIL : Fld := ⟨CE_EVENTS, 6, 1⟩
def CE_EVENTS_ROTATED : Fld := ⟨CE_EVENTS, 5, 1⟩
def CE_EVENTS_RETIRED : Fld := ⟨CE_EVENTS, 4, 1⟩
def CE_EVENTS_RESTARTED : Fld := ⟨CE_EVENTS, 3, 1⟩
def CE_EVENTS_RERUN : Fld := ⟨CE_EVENTS, 2, 1⟩
def CE_EVENTS_AUTH_FAIL : Fld := ⟨CE_EVENTS, 1, 1⟩
def CE_EVENTS_REFUSED : Fld := ⟨CE_EVENTS, 0, 1⟩

def CE_INT_EN : Nat := 0x40061114
def CE_INT_EN_EN : Fld := ⟨CE_INT_EN, 0, 25⟩

/-! Table 08-22. -/

def CE_CNT_OPS_0 : Nat := 0x40061120
def CE_CNT_OPS_0_COUNT : Fld := ⟨CE_CNT_OPS_0, 0, 32⟩

def CE_CNT_OPS_1 : Nat := 0x40061124
def CE_CNT_OPS_1_COUNT : Fld := ⟨CE_CNT_OPS_1, 0, 32⟩

def CE_CNT_REQ : Nat := 0x40061128
def CE_CNT_REQ_COUNT : Fld := ⟨CE_CNT_REQ, 0, 32⟩

def CE_CNT_REFUSED : Nat := 0x4006112C
def CE_CNT_REFUSED_COUNT : Fld := ⟨CE_CNT_REFUSED, 0, 32⟩

def CE_CNT_AUTH_FAIL : Nat := 0x40061130
def CE_CNT_AUTH_FAIL_COUNT : Fld := ⟨CE_CNT_AUTH_FAIL, 0, 32⟩

/-! Table 09-9. -/

def FLC_CMD (a : Nat) : Nat := 0x40050000 + 0x100 * a
def FLC_CMD_RESULT (a : Nat) : Fld := ⟨FLC_CMD a, 24, 8⟩
def FLC_CMD_PULSES (a : Nat) : Fld := ⟨FLC_CMD a, 16, 8⟩
def FLC_CMD_LAST_OP (a : Nat) : Fld := ⟨FLC_CMD a, 12, 4⟩
def FLC_CMD_RETIRED (a : Nat) : Fld := ⟨FLC_CMD a, 10, 1⟩
def FLC_CMD_WEAR_LAST (a : Nat) : Fld := ⟨FLC_CMD a, 9, 1⟩
def FLC_CMD_PENDING (a : Nat) : Fld := ⟨FLC_CMD a, 8, 1⟩
def FLC_CMD_RAW (a : Nat) : Fld := ⟨FLC_CMD a, 4, 1⟩
def FLC_CMD_OP (a : Nat) : Fld := ⟨FLC_CMD a, 0, 4⟩

/-! Table 09-10. -/

def FLC_ADDR (a : Nat) : Nat := 0x40050004 + 0x100 * a
def FLC_ADDR_BLOCK (a : Nat) : Fld := ⟨FLC_ADDR a, 16, 6⟩
def FLC_ADDR_PAGE (a : Nat) : Fld := ⟨FLC_ADDR a, 9, 7⟩

def FLC_SRC (a : Nat) : Nat := 0x40050008 + 0x100 * a
def FLC_SRC_ADDR (a : Nat) : Fld := ⟨FLC_SRC a, 3, 29⟩

/-! Table 09-11. -/

def FLC_STATE (a : Nat) : Nat := 0x4005000C + 0x100 * a
def FLC_STATE_BUSY_BLOCK (a : Nat) : Fld := ⟨FLC_STATE a, 16, 6⟩
def FLC_STATE_SUSP_BLOCK (a : Nat) : Fld := ⟨FLC_STATE a, 8, 6⟩
def FLC_STATE_SUSP_BY_FW (a : Nat) : Fld := ⟨FLC_STATE a, 5, 1⟩
def FLC_STATE_SUSP_BY_WARN (a : Nat) : Fld := ⟨FLC_STATE a, 4, 1⟩
def FLC_STATE_STATE (a : Nat) : Fld := ⟨FLC_STATE a, 0, 4⟩

/-! Table 09-12. -/

def FLC_MARGIN (a : Nat) : Nat := 0x40050010 + 0x100 * a
def FLC_MARGIN_WORST (a : Nat) : Fld := ⟨FLC_MARGIN a, 16, 2⟩
def FLC_MARGIN_UNITS_DIFF (a : Nat) : Fld := ⟨FLC_MARGIN a, 0, 7⟩

/-! Table 09-13. -/

def FLC_INFO_SEL (a : Nat) : Nat := 0x40050014 + 0x100 * a
def FLC_INFO_SEL_BLOCK (a : Nat) : Fld := ⟨FLC_INFO_SEL a, 0, 6⟩

def FLC_INFO (a : Nat) : Nat := 0x40050018 + 0x100 * a
def FLC_INFO_FAILING (a : Nat) : Fld := ⟨FLC_INFO a, 25, 1⟩
def FLC_INFO_WEAR (a : Nat) : Fld := ⟨FLC_INFO a, 24, 1⟩
def FLC_INFO_LAST_ERASE_PULSES (a : Nat) : Fld := ⟨FLC_INFO a, 16, 8⟩
def FLC_INFO_ERASES (a : Nat) : Fld := ⟨FLC_INFO a, 0, 16⟩

def FLC_INFO_B (a : Nat) : Nat := 0x4005001C + 0x100 * a
def FLC_INFO_B_PTR_VALID (a : Nat) : Fld := ⟨FLC_INFO_B a, 24, 1⟩
def FLC_INFO_B_PROG_PTR (a : Nat) : Fld := ⟨FLC_INFO_B a, 16, 8⟩
def FLC_INFO_B_DARNS (a : Nat) : Fld := ⟨FLC_INFO_B a, 8, 8⟩
def FLC_INFO_B_PHYS (a : Nat) : Fld := ⟨FLC_INFO_B a, 0, 7⟩

/-! Table 09-14. -/

def FLC_SPARES (a : Nat) : Nat := 0x40050020 + 0x100 * a
def FLC_SPARES_RETIRED (a : Nat) : Fld := ⟨FLC_SPARES a, 8, 3⟩
def FLC_SPARES_LEFT (a : Nat) : Fld := ⟨FLC_SPARES a, 0, 3⟩

def FLC_UNCORR_ADDR (a : Nat) : Nat := 0x40050028 + 0x100 * a
def FLC_UNCORR_ADDR_ADDR (a : Nat) : Fld := ⟨FLC_UNCORR_ADDR a, 0, 32⟩

def FLC_SUSPEND (a : Nat) : Nat := 0x4005002C + 0x100 * a
def FLC_SUSPEND_RESULT (a : Nat) : Fld := ⟨FLC_SUSPEND a, 24, 8⟩
def FLC_SUSPEND_RESUME (a : Nat) : Fld := ⟨FLC_SUSPEND a, 1, 1⟩
def FLC_SUSPEND_SUSPEND (a : Nat) : Fld := ⟨FLC_SUSPEND a, 0, 1⟩

/-! Table 09-15. -/

def FLC_DARN_COUNT (a : Nat) : Nat := 0x40050024 + 0x100 * a
def FLC_DARN_COUNT_COUNT (a : Nat) : Fld := ⟨FLC_DARN_COUNT a, 0, 32⟩

def FLC_STALL_MAX (a : Nat) : Nat := 0x40050038 + 0x100 * a
def FLC_STALL_MAX_COUNT (a : Nat) : Fld := ⟨FLC_STALL_MAX a, 0, 32⟩

def FLC_UNCORR_COUNT (a : Nat) : Nat := 0x4005003C + 0x100 * a
def FLC_UNCORR_COUNT_COUNT (a : Nat) : Fld := ⟨FLC_UNCORR_COUNT a, 0, 32⟩

/-! Table 09-16. -/

def FLC_EVENTS (a : Nat) : Nat := 0x40050030 + 0x100 * a
def FLC_EVENTS_CMD_IGNORED (a : Nat) : Fld := ⟨FLC_EVENTS a, 8, 1⟩
def FLC_EVENTS_WARN_RESUMED (a : Nat) : Fld := ⟨FLC_EVENTS a, 7, 1⟩
def FLC_EVENTS_WARN_SUSPEND (a : Nat) : Fld := ⟨FLC_EVENTS a, 6, 1⟩
def FLC_EVENTS_NO_SPARE (a : Nat) : Fld := ⟨FLC_EVENTS a, 5, 1⟩
def FLC_EVENTS_RETIRED (a : Nat) : Fld := ⟨FLC_EVENTS a, 4, 1⟩
def FLC_EVENTS_WEAR (a : Nat) : Fld := ⟨FLC_EVENTS a, 3, 1⟩
def FLC_EVENTS_UNCORR (a : Nat) : Fld := ⟨FLC_EVENTS a, 2, 1⟩
def FLC_EVENTS_FAIL (a : Nat) : Fld := ⟨FLC_EVENTS a, 1, 1⟩
def FLC_EVENTS_DONE (a : Nat) : Fld := ⟨FLC_EVENTS a, 0, 1⟩

def FLC_INT_EN (a : Nat) : Nat := 0x40050034 + 0x100 * a
def FLC_INT_EN_EN (a : Nat) : Fld := ⟨FLC_INT_EN a, 0, 9⟩

/-! Table 09-17. -/

def FLC_CFG : Nat := 0x40050800
def FLC_CFG_AUTO_RETIRE : Fld := ⟨FLC_CFG, 16, 1⟩
def FLC_CFG_ERS_WEAR : Fld := ⟨FLC_CFG, 8, 8⟩
def FLC_CFG_PGM_WEAR : Fld := ⟨FLC_CFG, 0, 8⟩

/-! Table 09-18. -/

def WV_PATROL_CFG : Nat := 0x40051000
def WV_PATROL_CFG_TICK_US : Fld := ⟨WV_PATROL_CFG, 16, 16⟩
def WV_PATROL_CFG_BATCH : Fld := ⟨WV_PATROL_CFG, 8, 8⟩
def WV_PATROL_CFG_STEP_SHIFT : Fld := ⟨WV_PATROL_CFG, 4, 4⟩
def WV_PATROL_CFG_ENABLE : Fld := ⟨WV_PATROL_CFG, 0, 1⟩

def WV_PATROL_MASK : Nat := 0x40051004
def WV_PATROL_MASK_REGIONS : Fld := ⟨WV_PATROL_MASK, 0, 16⟩

def WV_PATROL_POS : Nat := 0x40051008
def WV_PATROL_POS_REGION : Fld := ⟨WV_PATROL_POS, 28, 4⟩
def WV_PATROL_POS_LINE : Fld := ⟨WV_PATROL_POS, 0, 13⟩

def WV_PATROL_STAT : Nat := 0x4005100C
def WV_PATROL_STAT_LAG_US : Fld := ⟨WV_PATROL_STAT, 16, 16⟩
def WV_PATROL_STAT_PASSES : Fld := ⟨WV_PATROL_STAT, 0, 16⟩

def WV_LINE_CFG : Nat := 0x40051010
def WV_LINE_CFG_WINDOW_MIN : Fld := ⟨WV_LINE_CFG, 16, 16⟩
def WV_LINE_CFG_THRESHOLD : Fld := ⟨WV_LINE_CFG, 0, 4⟩

/-! Table 09-19. -/

def WV_SEG (n : Nat) : Nat := 0x40051020 + 0x4 * n
def WV_SEG_EXHAUSTED (n : Nat) : Fld := ⟨WV_SEG n, 10, 1⟩
def WV_SEG_READY (n : Nat) : Fld := ⟨WV_SEG n, 8, 1⟩
def WV_SEG_SPARES_LEFT (n : Nat) : Fld := ⟨WV_SEG n, 0, 8⟩

def WV_RETIRE_CMD : Nat := 0x40051040
def WV_RETIRE_CMD_ADDR : Fld := ⟨WV_RETIRE_CMD, 3, 29⟩

def WV_RETIRE_STAT : Nat := 0x40051044
def WV_RETIRE_STAT_RESULT : Fld := ⟨WV_RETIRE_STAT, 24, 8⟩

def WV_UNCORR_ADDR : Nat := 0x40051048
def WV_UNCORR_ADDR_ADDR : Fld := ⟨WV_UNCORR_ADDR, 0, 32⟩

/-! Table 09-20. -/

def WV_CNT_DEMAND_DARN : Nat := 0x40051080
def WV_CNT_DEMAND_DARN_COUNT : Fld := ⟨WV_CNT_DEMAND_DARN, 0, 32⟩

def WV_CNT_PATROL_DARN : Nat := 0x40051084
def WV_CNT_PATROL_DARN_COUNT : Fld := ⟨WV_CNT_PATROL_DARN, 0, 32⟩

def WV_CNT_CHECK_ONLY : Nat := 0x40051088
def WV_CNT_CHECK_ONLY_COUNT : Fld := ⟨WV_CNT_CHECK_ONLY, 0, 32⟩

def WV_CNT_UNCORR : Nat := 0x4005108C
def WV_CNT_UNCORR_COUNT : Fld := ⟨WV_CNT_UNCORR, 0, 32⟩

def WV_CNT_RETIRED : Nat := 0x40051090
def WV_CNT_RETIRED_COUNT : Fld := ⟨WV_CNT_RETIRED, 0, 32⟩

def WV_CNT_TRACK_EVICT : Nat := 0x40051094
def WV_CNT_TRACK_EVICT_COUNT : Fld := ⟨WV_CNT_TRACK_EVICT, 0, 32⟩

/-! Table 09-21. -/

def WV_EVENTS : Nat := 0x400510B0
def WV_EVENTS_CATCHUP : Fld := ⟨WV_EVENTS, 5, 1⟩
def WV_EVENTS_PASS_DONE : Fld := ⟨WV_EVENTS, 4, 1⟩
def WV_EVENTS_SPARES_EXHAUSTED : Fld := ⟨WV_EVENTS, 3, 1⟩
def WV_EVENTS_LINE_RETIRED : Fld := ⟨WV_EVENTS, 2, 1⟩
def WV_EVENTS_UNCORR : Fld := ⟨WV_EVENTS, 1, 1⟩
def WV_EVENTS_PATROL_DARN : Fld := ⟨WV_EVENTS, 0, 1⟩

def WV_INT_EN : Nat := 0x400510B4
def WV_INT_EN_EN : Fld := ⟨WV_INT_EN, 0, 6⟩

/-! Table 09-22. -/

def WV_TEST_KEY : Nat := 0x40051100
def WV_TEST_KEY_KEY : Fld := ⟨WV_TEST_KEY, 0, 32⟩

def WV_TEST_STAT : Nat := 0x40051104
def WV_TEST_STAT_ENABLED : Fld := ⟨WV_TEST_STAT, 0, 1⟩

def WV_TEST_ADDR : Nat := 0x40051108
def WV_TEST_ADDR_ADDR : Fld := ⟨WV_TEST_ADDR, 3, 29⟩

def WV_TEST_DATA_LO : Nat := 0x4005110C
def WV_TEST_DATA_LO_DATA : Fld := ⟨WV_TEST_DATA_LO, 0, 32⟩

def WV_TEST_DATA_HI : Nat := 0x40051110
def WV_TEST_DATA_HI_DATA : Fld := ⟨WV_TEST_DATA_HI, 0, 32⟩

def WV_TEST_CHK : Nat := 0x40051114
def WV_TEST_CHK_WARP : Fld := ⟨WV_TEST_CHK, 8, 8⟩
def WV_TEST_CHK_WEFT : Fld := ⟨WV_TEST_CHK, 0, 8⟩

def WV_TEST_CMD : Nat := 0x40051118
def WV_TEST_CMD_RESULT : Fld := ⟨WV_TEST_CMD, 24, 8⟩
def WV_TEST_CMD_OP : Fld := ⟨WV_TEST_CMD, 0, 2⟩

def WV_TEST_SYND : Nat := 0x4005111C
def WV_TEST_SYND_OUTCOME : Fld := ⟨WV_TEST_SYND, 16, 2⟩
def WV_TEST_SYND_WARP_SYN : Fld := ⟨WV_TEST_SYND, 8, 8⟩
def WV_TEST_SYND_WEFT_SYN : Fld := ⟨WV_TEST_SYND, 0, 8⟩

/-! Table 10-6. -/

def SYS_PAIR_STATUS : Nat := 0x40000040
def SYS_PAIR_STATUS_STANDBY_READY : Fld := ⟨SYS_PAIR_STATUS, 7, 1⟩
def SYS_PAIR_STATUS_Q_RETIRED : Fld := ⟨SYS_PAIR_STATUS, 6, 1⟩
def SYS_PAIR_STATUS_P_RETIRED : Fld := ⟨SYS_PAIR_STATUS, 5, 1⟩
def SYS_PAIR_STATUS_PRIMARY : Fld := ⟨SYS_PAIR_STATUS, 4, 1⟩
def SYS_PAIR_STATUS_MODE_Q : Fld := ⟨SYS_PAIR_STATUS, 0, 2⟩

/-! Table 10-7. -/

def SYS_PAIR_SELF : Nat := 0x40000044
def SYS_PAIR_SELF_CAUSE : Fld := ⟨SYS_PAIR_SELF, 8, 4⟩
def SYS_PAIR_SELF_PHYS : Fld := ⟨SYS_PAIR_SELF, 2, 1⟩
def SYS_PAIR_SELF_STANDBY : Fld := ⟨SYS_PAIR_SELF, 1, 1⟩
def SYS_PAIR_SELF_ROLE : Fld := ⟨SYS_PAIR_SELF, 0, 1⟩

/-! Table 10-8. -/

def SYS_PAIR_CTL : Nat := 0x40000048
def SYS_PAIR_CTL_HANDOVER : Fld := ⟨SYS_PAIR_CTL, 0, 1⟩

def SYS_MBOX : Nat := 0x4000004C
def SYS_MBOX_VALUE : Fld := ⟨SYS_MBOX, 0, 32⟩

/-! Table 10-9. -/

def SYS_PAIR_EVENTS : Nat := 0x40000050
def SYS_PAIR_EVENTS_MBOX : Fld := ⟨SYS_PAIR_EVENTS, 6, 1⟩
def SYS_PAIR_EVENTS_NO_STANDBY : Fld := ⟨SYS_PAIR_EVENTS, 5, 1⟩
def SYS_PAIR_EVENTS_SELFTEST_FAIL : Fld := ⟨SYS_PAIR_EVENTS, 4, 1⟩
def SYS_PAIR_EVENTS_ROTATE_DUE : Fld := ⟨SYS_PAIR_EVENTS, 3, 1⟩
def SYS_PAIR_EVENTS_FAILOVER : Fld := ⟨SYS_PAIR_EVENTS, 2, 1⟩
def SYS_PAIR_EVENTS_WDT_FAULT : Fld := ⟨SYS_PAIR_EVENTS, 1, 1⟩
def SYS_PAIR_EVENTS_MISMATCH : Fld := ⟨SYS_PAIR_EVENTS, 0, 1⟩

def SYS_PAIR_INT_EN : Nat := 0x40000054
def SYS_PAIR_INT_EN_EN : Fld := ⟨SYS_PAIR_INT_EN, 0, 7⟩

/-! Table 10-10. -/

def SYS_PAIR_ROT : Nat := 0x40000058
def SYS_PAIR_ROT_PERIOD_S : Fld := ⟨SYS_PAIR_ROT, 0, 32⟩

/-! Table 10-11. -/

def SYS_WDT_CFG (x : Nat) : Nat := 0x40000060 + 0x10 * x
def SYS_WDT_CFG_WARN_MS (x : Nat) : Fld := ⟨SYS_WDT_CFG x, 16, 16⟩
def SYS_WDT_CFG_TIMEOUT_MS (x : Nat) : Fld := ⟨SYS_WDT_CFG x, 1, 15⟩
def SYS_WDT_CFG_ENABLE (x : Nat) : Fld := ⟨SYS_WDT_CFG x, 0, 1⟩

def SYS_WDT_KICK (x : Nat) : Nat := 0x40000064 + 0x10 * x
def SYS_WDT_KICK_KEY (x : Nat) : Fld := ⟨SYS_WDT_KICK x, 0, 32⟩

def SYS_WDT_LEFT (x : Nat) : Nat := 0x40000068 + 0x10 * x
def SYS_WDT_LEFT_LEFT_MS (x : Nat) : Fld := ⟨SYS_WDT_LEFT x, 0, 16⟩

/-! Table 10-12. -/

def SYS_ICLOCK_BASE (x : Nat) : Nat := 0x40000080 + 0x8 * x
def SYS_ICLOCK_BASE_ADDR (x : Nat) : Fld := ⟨SYS_ICLOCK_BASE x, 5, 27⟩

def SYS_ICLOCK_SIZE (x : Nat) : Nat := 0x40000084 + 0x8 * x
def SYS_ICLOCK_SIZE_BAD_RANGE (x : Nat) : Fld := ⟨SYS_ICLOCK_SIZE x, 31, 1⟩
def SYS_ICLOCK_SIZE_FILLING (x : Nat) : Fld := ⟨SYS_ICLOCK_SIZE x, 30, 1⟩
def SYS_ICLOCK_SIZE_LINES (x : Nat) : Fld := ⟨SYS_ICLOCK_SIZE x, 5, 10⟩

/-! Table 10-13. -/

def GT_CTRL (k : Nat) : Nat := 0x40020000 + 0x1000 * k
def GT_CTRL_GATED (k : Nat) : Fld := ⟨GT_CTRL k, 4, 1⟩
def GT_CTRL_CLK_EXT (k : Nat) : Fld := ⟨GT_CTRL k, 3, 1⟩
def GT_CTRL_DBG_FREEZE (k : Nat) : Fld := ⟨GT_CTRL k, 2, 1⟩
def GT_CTRL_PRELOAD (k : Nat) : Fld := ⟨GT_CTRL k, 1, 1⟩
def GT_CTRL_EN (k : Nat) : Fld := ⟨GT_CTRL k, 0, 1⟩

/-! Table 10-14. -/

def GT_PSC (k : Nat) : Nat := 0x40020004 + 0x1000 * k
def GT_PSC_PSC_ACTIVE (k : Nat) : Fld := ⟨GT_PSC k, 16, 4⟩
def GT_PSC_PSC (k : Nat) : Fld := ⟨GT_PSC k, 0, 4⟩

def GT_STATUS (k : Nat) : Nat := 0x40020018 + 0x1000 * k
def GT_STATUS_CC_PEND (k : Nat) : Fld := ⟨GT_STATUS k, 12, 4⟩
def GT_STATUS_CAP_PENDING (k : Nat) : Fld := ⟨GT_STATUS k, 8, 4⟩
def GT_STATUS_PSC_PEND (k : Nat) : Fld := ⟨GT_STATUS k, 1, 1⟩
def GT_STATUS_RELOAD_PEND (k : Nat) : Fld := ⟨GT_STATUS k, 0, 1⟩

/-! Table 10-15. -/

def GT_CNT_LO (k : Nat) : Nat := 0x40020008 + 0x1000 * k
def GT_CNT_LO_CNT (k : Nat) : Fld := ⟨GT_CNT_LO k, 0, 32⟩

def GT_CNT_HI (k : Nat) : Nat := 0x4002000C + 0x1000 * k
def GT_CNT_HI_CNT (k : Nat) : Fld := ⟨GT_CNT_HI k, 0, 16⟩

def GT_RELOAD_LO (k : Nat) : Nat := 0x40020010 + 0x1000 * k
def GT_RELOAD_LO_RELOAD (k : Nat) : Fld := ⟨GT_RELOAD_LO k, 0, 32⟩

def GT_RELOAD_HI (k : Nat) : Nat := 0x40020014 + 0x1000 * k
def GT_RELOAD_HI_RELOAD (k : Nat) : Fld := ⟨GT_RELOAD_HI k, 0, 16⟩

/-! Table 10-16. -/

def GT_CFG (k : Nat) (c : Nat) : Nat := 0x40020020 + 0x1000 * k + 0x10 * c
def GT_CFG_CC_PRELOAD (k : Nat) (c : Nat) : Fld := ⟨GT_CFG k c, 20, 1⟩
def GT_CFG_EPSC (k : Nat) (c : Nat) : Fld := ⟨GT_CFG k c, 16, 4⟩
def GT_CFG_FDIV (k : Nat) (c : Nat) : Fld := ⟨GT_CFG k c, 12, 3⟩
def GT_CFG_FILTER (k : Nat) (c : Nat) : Fld := ⟨GT_CFG k c, 8, 4⟩
def GT_CFG_EDGE (k : Nat) (c : Nat) : Fld := ⟨GT_CFG k c, 5, 2⟩
def GT_CFG_OUT_ACT (k : Nat) (c : Nat) : Fld := ⟨GT_CFG k c, 2, 3⟩
def GT_CFG_MODE (k : Nat) (c : Nat) : Fld := ⟨GT_CFG k c, 0, 2⟩

def GT_VAL_LO (k : Nat) (c : Nat) : Nat := 0x40020024 + 0x1000 * k + 0x10 * c
def GT_VAL_LO_VAL (k : Nat) (c : Nat) : Fld := ⟨GT_VAL_LO k c, 0, 32⟩

def GT_VAL_HI (k : Nat) (c : Nat) : Nat := 0x40020028 + 0x1000 * k + 0x10 * c
def GT_VAL_HI_VAL (k : Nat) (c : Nat) : Fld := ⟨GT_VAL_HI k c, 0, 16⟩

/-! Table 10-17. -/

def GT_EVENTS (k : Nat) : Nat := 0x40020060 + 0x1000 * k
def GT_EVENTS_WRITE_IGNORED (k : Nat) : Fld := ⟨GT_EVENTS k, 12, 1⟩
def GT_EVENTS_OVERCAPTURE (k : Nat) : Fld := ⟨GT_EVENTS k, 8, 4⟩
def GT_EVENTS_CC (k : Nat) : Fld := ⟨GT_EVENTS k, 4, 4⟩
def GT_EVENTS_RELOAD_PASSED (k : Nat) : Fld := ⟨GT_EVENTS k, 1, 1⟩
def GT_EVENTS_WRAP (k : Nat) : Fld := ⟨GT_EVENTS k, 0, 1⟩

def GT_INT_EN (k : Nat) : Nat := 0x40020064 + 0x1000 * k
def GT_INT_EN_EN (k : Nat) : Fld := ⟨GT_INT_EN k, 0, 13⟩

/-! Table 10-18. -/

def GT_TRIG (l : Nat) : Nat := 0x40020100 + 0x4 * l
def GT_TRIG_ACTION (l : Nat) : Fld := ⟨GT_TRIG l, 24, 8⟩
def GT_TRIG_DEST (l : Nat) : Fld := ⟨GT_TRIG l, 16, 8⟩
def GT_TRIG_EVENT (l : Nat) : Fld := ⟨GT_TRIG l, 8, 8⟩
def GT_TRIG_SOURCE (l : Nat) : Fld := ⟨GT_TRIG l, 0, 8⟩

/-! Table 11-14. -/

def MNT_STATE : Nat := 0x40010000
def MNT_STATE_LAST_RESULT : Fld := ⟨MNT_STATE, 24, 8⟩
def MNT_STATE_LAST_WAKE_FROM : Fld := ⟨MNT_STATE, 21, 3⟩
def MNT_STATE_LIMP : Fld := ⟨MNT_STATE, 15, 1⟩
def MNT_STATE_ENTRY_PENDING : Fld := ⟨MNT_STATE, 14, 1⟩
def MNT_STATE_DEFER : Fld := ⟨MNT_STATE, 8, 4⟩
def MNT_STATE_STATE : Fld := ⟨MNT_STATE, 0, 3⟩

/-! Table 11-15. -/

def MNT_ENTER : Nat := 0x40010004
def MNT_ENTER_TARGET : Fld := ⟨MNT_ENTER, 0, 3⟩

/-! Table 11-16. -/

def MNT_DOMAIN : Nat := 0x40010008
def MNT_DOMAIN_REQ : Fld := ⟨MNT_DOMAIN, 1, 10⟩
def MNT_DOMAIN_PD0 : Fld := ⟨MNT_DOMAIN, 0, 1⟩

def MNT_DOMAIN_ALLOW : Nat := 0x4001000C
def MNT_DOMAIN_ALLOW_ALLOW : Fld := ⟨MNT_DOMAIN_ALLOW, 0, 11⟩

def MNT_DOMAIN_STAT : Nat := 0x40010010
def MNT_DOMAIN_STAT_RESULT : Fld := ⟨MNT_DOMAIN_STAT, 24, 8⟩
def MNT_DOMAIN_STAT_DISP : Fld := ⟨MNT_DOMAIN_STAT, 0, 22⟩

/-! Table 11-17. -/

def MNT_SLEEP_CFG : Nat := 0x40010014
def MNT_SLEEP_CFG_BANK_HOLD : Fld := ⟨MNT_SLEEP_CFG, 9, 7⟩
def MNT_SLEEP_CFG_BANK0_HOLD : Fld := ⟨MNT_SLEEP_CFG, 8, 1⟩
def MNT_SLEEP_CFG_Q_TCM_RET : Fld := ⟨MNT_SLEEP_CFG, 1, 1⟩
def MNT_SLEEP_CFG_P_TCM_RET : Fld := ⟨MNT_SLEEP_CFG, 0, 1⟩

def MNT_SNIFF : Nat := 0x40010018
def MNT_SNIFF_INTERVAL_MS : Fld := ⟨MNT_SNIFF, 16, 16⟩
def MNT_SNIFF_LISTEN_10US : Fld := ⟨MNT_SNIFF, 8, 8⟩
def MNT_SNIFF_ASSIGN : Fld := ⟨MNT_SNIFF, 0, 5⟩

/-! Table 11-18. -/

def MNT_WAKE_EN : Nat := 0x4001001C
def MNT_WAKE_EN_EN : Fld := ⟨MNT_WAKE_EN, 0, 18⟩

def MNT_GPIO_WAKE : Nat := 0x40010020
def MNT_GPIO_WAKE_TYPE_7 : Fld := ⟨MNT_GPIO_WAKE, 28, 2⟩
def MNT_GPIO_WAKE_TYPE_6 : Fld := ⟨MNT_GPIO_WAKE, 24, 2⟩
def MNT_GPIO_WAKE_TYPE_5 : Fld := ⟨MNT_GPIO_WAKE, 20, 2⟩
def MNT_GPIO_WAKE_TYPE_4 : Fld := ⟨MNT_GPIO_WAKE, 16, 2⟩
def MNT_GPIO_WAKE_TYPE_3 : Fld := ⟨MNT_GPIO_WAKE, 12, 2⟩
def MNT_GPIO_WAKE_TYPE_2 : Fld := ⟨MNT_GPIO_WAKE, 8, 2⟩
def MNT_GPIO_WAKE_TYPE_1 : Fld := ⟨MNT_GPIO_WAKE, 4, 2⟩
def MNT_GPIO_WAKE_TYPE_0 : Fld := ⟨MNT_GPIO_WAKE, 0, 2⟩

def MNT_WAKE_SRC : Nat := 0x40010024
def MNT_WAKE_SRC_FIRST : Fld := ⟨MNT_WAKE_SRC, 24, 5⟩
def MNT_WAKE_SRC_SRC : Fld := ⟨MNT_WAKE_SRC, 0, 18⟩

def MNT_WAKE_LOST : Nat := 0x40010028
def MNT_WAKE_LOST_LOST : Fld := ⟨MNT_WAKE_LOST, 0, 18⟩

def MNT_WAKE_TIME_LO : Nat := 0x4001002C
def MNT_WAKE_TIME_LO_TIME : Fld := ⟨MNT_WAKE_TIME_LO, 0, 32⟩

def MNT_WAKE_TIME_HI : Nat := 0x40010030
def MNT_WAKE_TIME_HI_EN : Fld := ⟨MNT_WAKE_TIME_HI, 31, 1⟩
def MNT_WAKE_TIME_HI_TIME : Fld := ⟨MNT_WAKE_TIME_HI, 0, 16⟩

/-! Table 11-19. -/

def MNT_SUPPLY : Nat := 0x40010034
def MNT_SUPPLY_VIN_MV : Fld := ⟨MNT_SUPPLY, 16, 16⟩
def MNT_SUPPLY_WARN_MV : Fld := ⟨MNT_SUPPLY, 0, 16⟩

def MNT_SUPPLY_STAT : Nat := 0x40010038
def MNT_SUPPLY_STAT_SG_CAP : Fld := ⟨MNT_SUPPLY_STAT, 2, 1⟩
def MNT_SUPPLY_STAT_RECOVERING : Fld := ⟨MNT_SUPPLY_STAT, 1, 1⟩
def MNT_SUPPLY_STAT_WARN : Fld := ⟨MNT_SUPPLY_STAT, 0, 1⟩

def MNT_LADDER : Nat := 0x4001003C
def MNT_LADDER_REG_FAILS : Fld := ⟨MNT_LADDER, 24, 8⟩
def MNT_LADDER_BACKOFF_S : Fld := ⟨MNT_LADDER, 16, 8⟩
def MNT_LADDER_XTAL_ATTEMPTS : Fld := ⟨MNT_LADDER, 12, 4⟩
def MNT_LADDER_XTAL_DRIVE : Fld := ⟨MNT_LADDER, 8, 2⟩
def MNT_LADDER_WAS_WAKE_FAILED : Fld := ⟨MNT_LADDER, 1, 1⟩
def MNT_LADDER_RETRY_XTAL : Fld := ⟨MNT_LADDER, 0, 1⟩

/-! Table 11-20. -/

def MNT_SEAM : Nat := 0x40010040
def MNT_SEAM_RELEASE : Fld := ⟨MNT_SEAM, 8, 8⟩
def MNT_SEAM_HELD : Fld := ⟨MNT_SEAM, 0, 8⟩

def MNT_SAVE_STAT : Nat := 0x40010044
def MNT_SAVE_STAT_EXT_BYTES : Fld := ⟨MNT_SAVE_STAT, 16, 16⟩
def MNT_SAVE_STAT_FIXED_BYTES : Fld := ⟨MNT_SAVE_STAT, 0, 16⟩

def MNT_RESET_CAUSE : Nat := 0x40010048
def MNT_RESET_CAUSE_CAUSE : Fld := ⟨MNT_RESET_CAUSE, 0, 3⟩

/-! Table 11-21. -/

def MNT_EVENTS : Nat := 0x40010050
def MNT_EVENTS_SLOW_ON_RC : Fld := ⟨MNT_EVENTS, 11, 1⟩
def MNT_EVENTS_DOMAIN_REFUSED : Fld := ⟨MNT_EVENTS, 10, 1⟩
def MNT_EVENTS_SAVE_LOST : Fld := ⟨MNT_EVENTS, 9, 1⟩
def MNT_EVENTS_WAKE_RETRIED : Fld := ⟨MNT_EVENTS, 8, 1⟩
def MNT_EVENTS_LADDER_BACKOFF : Fld := ⟨MNT_EVENTS, 7, 1⟩
def MNT_EVENTS_LIMP : Fld := ⟨MNT_EVENTS, 6, 1⟩
def MNT_EVENTS_RECOVERED : Fld := ⟨MNT_EVENTS, 5, 1⟩
def MNT_EVENTS_WARN : Fld := ⟨MNT_EVENTS, 4, 1⟩
def MNT_EVENTS_EDGE_IN_WINDOW : Fld := ⟨MNT_EVENTS, 3, 1⟩
def MNT_EVENTS_ENTRY_ABORTED : Fld := ⟨MNT_EVENTS, 2, 1⟩
def MNT_EVENTS_ENTRY_REFUSED : Fld := ⟨MNT_EVENTS, 1, 1⟩
def MNT_EVENTS_WAKE : Fld := ⟨MNT_EVENTS, 0, 1⟩

def MNT_INT_EN : Nat := 0x40010054
def MNT_INT_EN_EN : Fld := ⟨MNT_INT_EN, 0, 12⟩

/-! Table 12-13. -/

def WL_CFG (l : Nat) : Nat := 0x40180000 + 0x100 * l
def WL_CFG_MAX_LEN (l : Nat) : Fld := ⟨WL_CFG l, 16, 12⟩
def WL_CFG_FALLBACK_EN (l : Nat) : Fld := ⟨WL_CFG l, 4, 1⟩
def WL_CFG_AN_EN (l : Nat) : Fld := ⟨WL_CFG l, 3, 1⟩
def WL_CFG_RATE (l : Nat) : Fld := ⟨WL_CFG l, 1, 2⟩
def WL_CFG_ENABLE (l : Nat) : Fld := ⟨WL_CFG l, 0, 1⟩

def WL_STATUS (l : Nat) : Nat := 0x40180004 + 0x100 * l
def WL_STATUS_LP_ABILITY (l : Nat) : Fld := ⟨WL_STATUS l, 16, 16⟩
def WL_STATUS_SYNC (l : Nat) : Fld := ⟨WL_STATUS l, 11, 1⟩
def WL_STATUS_TX_FAULT (l : Nat) : Fld := ⟨WL_STATUS l, 10, 1⟩
def WL_STATUS_MOD_ABS (l : Nat) : Fld := ⟨WL_STATUS l, 9, 1⟩
def WL_STATUS_LOS (l : Nat) : Fld := ⟨WL_STATUS l, 8, 1⟩
def WL_STATUS_AN_DONE (l : Nat) : Fld := ⟨WL_STATUS l, 5, 1⟩
def WL_STATUS_FALLEN (l : Nat) : Fld := ⟨WL_STATUS l, 4, 1⟩
def WL_STATUS_RATE_NOW (l : Nat) : Fld := ⟨WL_STATUS l, 3, 1⟩
def WL_STATUS_STATE (l : Nat) : Fld := ⟨WL_STATUS l, 0, 3⟩

def WL_EVENTS (l : Nat) : Nat := 0x40180008 + 0x100 * l
def WL_EVENTS_AN_DONE (l : Nat) : Fld := ⟨WL_EVENTS l, 5, 1⟩
def WL_EVENTS_TX_FAULT (l : Nat) : Fld := ⟨WL_EVENTS l, 4, 1⟩
def WL_EVENTS_MODULE (l : Nat) : Fld := ⟨WL_EVENTS l, 3, 1⟩
def WL_EVENTS_FALLBACK (l : Nat) : Fld := ⟨WL_EVENTS l, 2, 1⟩
def WL_EVENTS_LINK_DOWN (l : Nat) : Fld := ⟨WL_EVENTS l, 1, 1⟩
def WL_EVENTS_LINK_UP (l : Nat) : Fld := ⟨WL_EVENTS l, 0, 1⟩

def WL_INT_EN (l : Nat) : Nat := 0x4018000C + 0x100 * l
def WL_INT_EN_EN (l : Nat) : Fld := ⟨WL_INT_EN l, 0, 6⟩

def WL_FALLBACK (l : Nat) : Nat := 0x40180010 + 0x100 * l
def WL_FALLBACK_WINDOW_S (l : Nat) : Fld := ⟨WL_FALLBACK l, 8, 8⟩
def WL_FALLBACK_LOSSES (l : Nat) : Fld := ⟨WL_FALLBACK l, 0, 8⟩

def WL_CNT_RX (l : Nat) : Nat := 0x40180020 + 0x100 * l
def WL_CNT_RX_COUNT (l : Nat) : Fld := ⟨WL_CNT_RX l, 0, 32⟩

def WL_CNT_TX (l : Nat) : Nat := 0x40180024 + 0x100 * l
def WL_CNT_TX_COUNT (l : Nat) : Fld := ⟨WL_CNT_TX l, 0, 32⟩

def WL_CNT_FCS (l : Nat) : Nat := 0x40180028 + 0x100 * l
def WL_CNT_FCS_COUNT (l : Nat) : Fld := ⟨WL_CNT_FCS l, 0, 32⟩

def WL_CNT_LONG (l : Nat) : Nat := 0x4018002C + 0x100 * l
def WL_CNT_LONG_COUNT (l : Nat) : Fld := ⟨WL_CNT_LONG l, 0, 32⟩

def WL_CNT_SHORT (l : Nat) : Nat := 0x40180030 + 0x100 * l
def WL_CNT_SHORT_COUNT (l : Nat) : Fld := ⟨WL_CNT_SHORT l, 0, 32⟩

def WL_CNT_PAUSE (l : Nat) : Nat := 0x40180034 + 0x100 * l
def WL_CNT_PAUSE_COUNT (l : Nat) : Fld := ⟨WL_CNT_PAUSE l, 0, 32⟩

def WL_CNT_SYNC_LOSS (l : Nat) : Nat := 0x40180038 + 0x100 * l
def WL_CNT_SYNC_LOSS_COUNT (l : Nat) : Fld := ⟨WL_CNT_SYNC_LOSS l, 0, 32⟩

/-! Table 12-14. -/

def FSW_MAC_LO : Nat := 0x40181000
def FSW_MAC_LO_MAC : Fld := ⟨FSW_MAC_LO, 0, 32⟩

def FSW_MAC_HI : Nat := 0x40181004
def FSW_MAC_HI_MAC : Fld := ⟨FSW_MAC_HI, 0, 16⟩

def FSW_CFG : Nat := 0x40181008
def FSW_CFG_AGE_S : Fld := ⟨FSW_CFG, 16, 16⟩
def FSW_CFG_CUT_THROUGH : Fld := ⟨FSW_CFG, 1, 1⟩
def FSW_CFG_ENABLE : Fld := ⟨FSW_CFG, 0, 1⟩

def FSW_PORT (p : Nat) : Nat := 0x40181010 + 0x4 * p
def FSW_PORT_TAG_EGRESS (p : Nat) : Fld := ⟨FSW_PORT p, 16, 1⟩
def FSW_PORT_DEF_PCP (p : Nat) : Fld := ⟨FSW_PORT p, 12, 3⟩
def FSW_PORT_PVID (p : Nat) : Fld := ⟨FSW_PORT p, 0, 12⟩

def FSW_PCP_MAP : Nat := 0x4018101C
def FSW_PCP_MAP_MAP : Fld := ⟨FSW_PCP_MAP, 0, 16⟩

def FSW_VLAN (i : Nat) : Nat := 0x40181040 + 0x4 * i
def FSW_VLAN_VALID (i : Nat) : Fld := ⟨FSW_VLAN i, 31, 1⟩
def FSW_VLAN_MEMBER (i : Nat) : Fld := ⟨FSW_VLAN i, 16, 3⟩
def FSW_VLAN_VID (i : Nat) : Fld := ⟨FSW_VLAN i, 0, 12⟩

def FSW_RING : Nat := 0x40181080
def FSW_RING_RING_ID : Fld := ⟨FSW_RING, 16, 16⟩
def FSW_RING_CHECK_MS : Fld := ⟨FSW_RING, 8, 8⟩
def FSW_RING_ACTIVE_VALID : Fld := ⟨FSW_RING, 6, 1⟩
def FSW_RING_BLOCKED : Fld := ⟨FSW_RING, 5, 1⟩
def FSW_RING_ACTIVE : Fld := ⟨FSW_RING, 4, 1⟩
def FSW_RING_MODE : Fld := ⟨FSW_RING, 0, 2⟩

def FSW_Q_LIMIT : Nat := 0x40181084
def FSW_Q_LIMIT_LIMIT : Fld := ⟨FSW_Q_LIMIT, 0, 32⟩

def FSW_BUF_STAT : Nat := 0x40181088
def FSW_BUF_STAT_FREE_KIB : Fld := ⟨FSW_BUF_STAT, 0, 10⟩

def FSW_EVENTS : Nat := 0x40181090
def FSW_EVENTS_MX_DROP : Fld := ⟨FSW_EVENTS, 8, 1⟩
def FSW_EVENTS_ITX_DONE : Fld := ⟨FSW_EVENTS, 7, 1⟩
def FSW_EVENTS_IRX_FULL : Fld := ⟨FSW_EVENTS, 6, 1⟩
def FSW_EVENTS_BUF_FULL : Fld := ⟨FSW_EVENTS, 5, 1⟩
def FSW_EVENTS_TABLE_FULL : Fld := ⟨FSW_EVENTS, 4, 1⟩
def FSW_EVENTS_FAILOVER : Fld := ⟨FSW_EVENTS, 3, 1⟩
def FSW_EVENTS_FLUSH_RX : Fld := ⟨FSW_EVENTS, 2, 1⟩
def FSW_EVENTS_RING_CLOSED : Fld := ⟨FSW_EVENTS, 1, 1⟩
def FSW_EVENTS_RING_BROKEN : Fld := ⟨FSW_EVENTS, 0, 1⟩

def FSW_INT_EN : Nat := 0x40181094
def FSW_INT_EN_EN : Fld := ⟨FSW_INT_EN, 0, 9⟩

def FSW_HOST_MAC_LO : Nat := 0x40181098
def FSW_HOST_MAC_LO_MAC : Fld := ⟨FSW_HOST_MAC_LO, 0, 32⟩

def FSW_HOST_MAC_HI : Nat := 0x4018109C
def FSW_HOST_MAC_HI_MAC : Fld := ⟨FSW_HOST_MAC_HI, 0, 16⟩

def FSW_IRX_BASE : Nat := 0x401810C0
def FSW_IRX_BASE_ADDR : Fld := ⟨FSW_IRX_BASE, 5, 27⟩

def FSW_IRX_SIZE : Nat := 0x401810C4
def FSW_IRX_SIZE_ENTRIES : Fld := ⟨FSW_IRX_SIZE, 0, 16⟩

def FSW_IRX_WR : Nat := 0x401810C8
def FSW_IRX_WR_WR : Fld := ⟨FSW_IRX_WR, 0, 16⟩

def FSW_IRX_RD : Nat := 0x401810CC
def FSW_IRX_RD_RD : Fld := ⟨FSW_IRX_RD, 0, 16⟩

def FSW_IRX_BUF : Nat := 0x401810D0
def FSW_IRX_BUF_ADDR : Fld := ⟨FSW_IRX_BUF, 11, 21⟩

def FSW_ITX_BASE : Nat := 0x401810E0
def FSW_ITX_BASE_ADDR : Fld := ⟨FSW_ITX_BASE, 5, 27⟩

def FSW_ITX_SIZE : Nat := 0x401810E4
def FSW_ITX_SIZE_ENTRIES : Fld := ⟨FSW_ITX_SIZE, 0, 16⟩

def FSW_ITX_WR : Nat := 0x401810E8
def FSW_ITX_WR_WR : Fld := ⟨FSW_ITX_WR, 0, 16⟩

def FSW_ITX_RD : Nat := 0x401810EC
def FSW_ITX_RD_RD : Fld := ⟨FSW_ITX_RD, 0, 16⟩

def FSW_CNT_FILTER : Nat := 0x40181100
def FSW_CNT_FILTER_COUNT : Fld := ⟨FSW_CNT_FILTER, 0, 32⟩

def FSW_CNT_VLAN_DROP : Nat := 0x40181104
def FSW_CNT_VLAN_DROP_COUNT : Fld := ⟨FSW_CNT_VLAN_DROP, 0, 32⟩

def FSW_CNT_Q_DROP : Nat := 0x40181108
def FSW_CNT_Q_DROP_COUNT : Fld := ⟨FSW_CNT_Q_DROP, 0, 32⟩

def FSW_CNT_STOMP : Nat := 0x4018110C
def FSW_CNT_STOMP_COUNT : Fld := ⟨FSW_CNT_STOMP, 0, 32⟩

def FSW_CNT_IRX_DROP : Nat := 0x40181110
def FSW_CNT_IRX_DROP_COUNT : Fld := ⟨FSW_CNT_IRX_DROP, 0, 32⟩

def FSW_CNT_MX_DROP : Nat := 0x40181114
def FSW_CNT_MX_DROP_COUNT : Fld := ⟨FSW_CNT_MX_DROP, 0, 32⟩

def FSW_CNT_MX_REPLAY : Nat := 0x40181118
def FSW_CNT_MX_REPLAY_COUNT : Fld := ⟨FSW_CNT_MX_REPLAY, 0, 32⟩

def FSW_CNT_FLUSH : Nat := 0x4018111C
def FSW_CNT_FLUSH_COUNT : Fld := ⟨FSW_CNT_FLUSH, 0, 32⟩

def FSW_CNT_RING_OWN : Nat := 0x40181120
def FSW_CNT_RING_OWN_COUNT : Fld := ⟨FSW_CNT_RING_OWN, 0, 32⟩

/-! Table 12-15. -/

def CSP_CFG (k : Nat) : Nat := 0x40030000 + 0x1000 * k
def CSP_CFG_RDY_TIMEOUT_US (k : Nat) : Fld := ⟨CSP_CFG k, 24, 8⟩
def CSP_CFG_DIV (k : Nat) : Fld := ⟨CSP_CFG k, 8, 8⟩
def CSP_CFG_RDY_EN (k : Nat) : Fld := ⟨CSP_CFG k, 6, 1⟩
def CSP_CFG_STROBE (k : Nat) : Fld := ⟨CSP_CFG k, 5, 1⟩
def CSP_CFG_DDR (k : Nat) : Fld := ⟨CSP_CFG k, 4, 1⟩
def CSP_CFG_LANES (k : Nat) : Fld := ⟨CSP_CFG k, 2, 2⟩
def CSP_CFG_ROLE (k : Nat) : Fld := ⟨CSP_CFG k, 1, 1⟩
def CSP_CFG_ENABLE (k : Nat) : Fld := ⟨CSP_CFG k, 0, 1⟩

def CSP_STATUS (k : Nat) : Nat := 0x40030004 + 0x1000 * k
def CSP_STATUS_RDY_LOW (k : Nat) : Fld := ⟨CSP_STATUS k, 3, 1⟩
def CSP_STATUS_SLV_LOADER (k : Nat) : Fld := ⟨CSP_STATUS k, 2, 1⟩
def CSP_STATUS_SEL_ACTIVE (k : Nat) : Fld := ⟨CSP_STATUS k, 1, 1⟩
def CSP_STATUS_M_BUSY (k : Nat) : Fld := ⟨CSP_STATUS k, 0, 1⟩

def CSP_M_ADDR (k : Nat) : Nat := 0x40030008 + 0x1000 * k
def CSP_M_ADDR_ADDR (k : Nat) : Fld := ⟨CSP_M_ADDR k, 0, 32⟩

def CSP_M_CMD (k : Nat) : Nat := 0x4003000C + 0x1000 * k
def CSP_M_CMD_START (k : Nat) : Fld := ⟨CSP_M_CMD k, 31, 1⟩
def CSP_M_CMD_DIR (k : Nat) : Fld := ⟨CSP_M_CMD k, 30, 1⟩
def CSP_M_CMD_KEEP_SEL (k : Nat) : Fld := ⟨CSP_M_CMD k, 29, 1⟩
def CSP_M_CMD_LEN (k : Nat) : Fld := ⟨CSP_M_CMD k, 0, 16⟩

def CSP_M_STAT (k : Nat) : Nat := 0x40030010 + 0x1000 * k
def CSP_M_STAT_RESULT (k : Nat) : Fld := ⟨CSP_M_STAT k, 24, 8⟩
def CSP_M_STAT_DONE (k : Nat) : Fld := ⟨CSP_M_STAT k, 0, 16⟩

def CSP_SLV_LAST (k : Nat) : Nat := 0x40030020 + 0x1000 * k
def CSP_SLV_LAST_STATUS (k : Nat) : Fld := ⟨CSP_SLV_LAST k, 24, 8⟩
def CSP_SLV_LAST_FLAGS (k : Nat) : Fld := ⟨CSP_SLV_LAST k, 16, 4⟩
def CSP_SLV_LAST_WORDS (k : Nat) : Fld := ⟨CSP_SLV_LAST k, 0, 16⟩

def CSP_SLV_NEXT (k : Nat) : Nat := 0x40030024 + 0x1000 * k
def CSP_SLV_NEXT_ADDR (k : Nat) : Fld := ⟨CSP_SLV_NEXT k, 0, 32⟩

def CSP_EVENTS (k : Nat) : Nat := 0x40030028 + 0x1000 * k
def CSP_EVENTS_BAD_OP (k : Nat) : Fld := ⟨CSP_EVENTS k, 5, 1⟩
def CSP_EVENTS_RDY_TIMEOUT (k : Nat) : Fld := ⟨CSP_EVENTS k, 4, 1⟩
def CSP_EVENTS_OVERRUN (k : Nat) : Fld := ⟨CSP_EVENTS k, 3, 1⟩
def CSP_EVENTS_TORN (k : Nat) : Fld := ⟨CSP_EVENTS k, 2, 1⟩
def CSP_EVENTS_SLV_DONE (k : Nat) : Fld := ⟨CSP_EVENTS k, 1, 1⟩
def CSP_EVENTS_M_DONE (k : Nat) : Fld := ⟨CSP_EVENTS k, 0, 1⟩

def CSP_INT_EN (k : Nat) : Nat := 0x4003002C + 0x1000 * k
def CSP_INT_EN_EN (k : Nat) : Fld := ⟨CSP_INT_EN k, 0, 6⟩

def CSP_CNT_TORN (k : Nat) : Nat := 0x40030030 + 0x1000 * k
def CSP_CNT_TORN_COUNT (k : Nat) : Fld := ⟨CSP_CNT_TORN k, 0, 32⟩

/-! Table 12-16. -/

def UART_CFG (u : Nat) : Nat := 0x40040000 + 0x1000 * u
def UART_CFG_DIV (u : Nat) : Fld := ⟨UART_CFG u, 16, 16⟩
def UART_CFG_STOP2 (u : Nat) : Fld := ⟨UART_CFG u, 4, 1⟩
def UART_CFG_PARITY (u : Nat) : Fld := ⟨UART_CFG u, 2, 2⟩
def UART_CFG_DATA8 (u : Nat) : Fld := ⟨UART_CFG u, 1, 1⟩
def UART_CFG_ENABLE (u : Nat) : Fld := ⟨UART_CFG u, 0, 1⟩

def UART_RS485 (u : Nat) : Nat := 0x40040004 + 0x1000 * u
def UART_RS485_DE_LAG (u : Nat) : Fld := ⟨UART_RS485 u, 8, 4⟩
def UART_RS485_DE_LEAD (u : Nat) : Fld := ⟨UART_RS485 u, 4, 4⟩
def UART_RS485_HALF_DUPLEX (u : Nat) : Fld := ⟨UART_RS485 u, 1, 1⟩
def UART_RS485_DE_EN (u : Nat) : Fld := ⟨UART_RS485 u, 0, 1⟩

def UART_DATA (u : Nat) : Nat := 0x40040008 + 0x1000 * u
def UART_DATA_EMPTY (u : Nat) : Fld := ⟨UART_DATA u, 31, 1⟩
def UART_DATA_DATA (u : Nat) : Fld := ⟨UART_DATA u, 0, 10⟩

def UART_STATUS (u : Nat) : Nat := 0x4004000C + 0x1000 * u
def UART_STATUS_DE (u : Nat) : Fld := ⟨UART_STATUS u, 17, 1⟩
def UART_STATUS_TX_IDLE (u : Nat) : Fld := ⟨UART_STATUS u, 16, 1⟩
def UART_STATUS_TX_LEVEL (u : Nat) : Fld := ⟨UART_STATUS u, 8, 7⟩
def UART_STATUS_RX_LEVEL (u : Nat) : Fld := ⟨UART_STATUS u, 0, 7⟩

def UART_EVENTS (u : Nat) : Nat := 0x40040010 + 0x1000 * u
def UART_EVENTS_RX_TIMEOUT (u : Nat) : Fld := ⟨UART_EVENTS u, 7, 1⟩
def UART_EVENTS_BREAK (u : Nat) : Fld := ⟨UART_EVENTS u, 6, 1⟩
def UART_EVENTS_PARITY (u : Nat) : Fld := ⟨UART_EVENTS u, 5, 1⟩
def UART_EVENTS_FRAMING (u : Nat) : Fld := ⟨UART_EVENTS u, 4, 1⟩
def UART_EVENTS_OVERRUN (u : Nat) : Fld := ⟨UART_EVENTS u, 3, 1⟩
def UART_EVENTS_TX_IDLE (u : Nat) : Fld := ⟨UART_EVENTS u, 2, 1⟩
def UART_EVENTS_TX_THRESH (u : Nat) : Fld := ⟨UART_EVENTS u, 1, 1⟩
def UART_EVENTS_RX_THRESH (u : Nat) : Fld := ⟨UART_EVENTS u, 0, 1⟩

def UART_INT_EN (u : Nat) : Nat := 0x40040014 + 0x1000 * u
def UART_INT_EN_EN (u : Nat) : Fld := ⟨UART_INT_EN u, 0, 8⟩

def UART_THRESH (u : Nat) : Nat := 0x40040018 + 0x1000 * u
def UART_THRESH_TX_TH (u : Nat) : Fld := ⟨UART_THRESH u, 8, 6⟩
def UART_THRESH_RX_TH (u : Nat) : Fld := ⟨UART_THRESH u, 0, 6⟩

def UART_CNT_DROP (u : Nat) : Nat := 0x4004001C + 0x1000 * u
def UART_CNT_DROP_COUNT (u : Nat) : Fld := ⟨UART_CNT_DROP u, 0, 32⟩

/-! Table 12-17. -/

def I2C_CFG (i : Nat) : Nat := 0x40044000 + 0x1000 * i
def I2C_CFG_SEG (i : Nat) : Fld := ⟨I2C_CFG i, 4, 2⟩
def I2C_CFG_SPEED (i : Nat) : Fld := ⟨I2C_CFG i, 1, 2⟩
def I2C_CFG_ENABLE (i : Nat) : Fld := ⟨I2C_CFG i, 0, 1⟩

def I2C_CMD (i : Nat) : Nat := 0x40044004 + 0x1000 * i
def I2C_CMD_START (i : Nat) : Fld := ⟨I2C_CMD i, 31, 1⟩
def I2C_CMD_RLEN (i : Nat) : Fld := ⟨I2C_CMD i, 16, 8⟩
def I2C_CMD_WLEN (i : Nat) : Fld := ⟨I2C_CMD i, 8, 8⟩
def I2C_CMD_ADDR (i : Nat) : Fld := ⟨I2C_CMD i, 0, 7⟩

def I2C_STAT (i : Nat) : Nat := 0x40044008 + 0x1000 * i
def I2C_STAT_RESULT (i : Nat) : Fld := ⟨I2C_STAT i, 24, 8⟩
def I2C_STAT_BUSY (i : Nat) : Fld := ⟨I2C_STAT i, 16, 1⟩
def I2C_STAT_WDONE (i : Nat) : Fld := ⟨I2C_STAT i, 8, 8⟩
def I2C_STAT_RDONE (i : Nat) : Fld := ⟨I2C_STAT i, 0, 8⟩

def I2C_EVENTS (i : Nat) : Nat := 0x4004400C + 0x1000 * i
def I2C_EVENTS_TIMEOUT (i : Nat) : Fld := ⟨I2C_EVENTS i, 3, 1⟩
def I2C_EVENTS_ARB_LOST (i : Nat) : Fld := ⟨I2C_EVENTS i, 2, 1⟩
def I2C_EVENTS_NACK (i : Nat) : Fld := ⟨I2C_EVENTS i, 1, 1⟩
def I2C_EVENTS_DONE (i : Nat) : Fld := ⟨I2C_EVENTS i, 0, 1⟩

def I2C_INT_EN (i : Nat) : Nat := 0x40044010 + 0x1000 * i
def I2C_INT_EN_EN (i : Nat) : Fld := ⟨I2C_INT_EN i, 0, 4⟩

def I2C_BUF (i : Nat) (w : Nat) : Nat := 0x40044100 + 0x1000 * i + 0x4 * w
def I2C_BUF_DATA (i : Nat) (w : Nat) : Fld := ⟨I2C_BUF i w, 0, 32⟩

/-! Table 12-18. -/

def GPIO_OUT : Nat := 0x40046000
def GPIO_OUT_OUT : Fld := ⟨GPIO_OUT, 0, 32⟩

def GPIO_OE : Nat := 0x40046004
def GPIO_OE_OE : Fld := ⟨GPIO_OE, 0, 32⟩

def GPIO_IN : Nat := 0x40046008
def GPIO_IN_IN : Fld := ⟨GPIO_IN, 0, 32⟩

def GPIO_SET : Nat := 0x4004600C
def GPIO_SET_MASK : Fld := ⟨GPIO_SET, 0, 32⟩

def GPIO_CLR : Nat := 0x40046010
def GPIO_CLR_MASK : Fld := ⟨GPIO_CLR, 0, 32⟩

def GPIO_TOGGLE : Nat := 0x40046014
def GPIO_TOGGLE_MASK : Fld := ⟨GPIO_TOGGLE, 0, 32⟩

def GPIO_TYPE0 : Nat := 0x40046020
def GPIO_TYPE0_TYPE : Fld := ⟨GPIO_TYPE0, 0, 32⟩

def GPIO_TYPE1 : Nat := 0x40046024
def GPIO_TYPE1_TYPE : Fld := ⟨GPIO_TYPE1, 0, 32⟩

def GPIO_EVENTS : Nat := 0x40046028
def GPIO_EVENTS_EVENTS : Fld := ⟨GPIO_EVENTS, 0, 32⟩

def GPIO_INT_EN : Nat := 0x4004602C
def GPIO_INT_EN_EN : Fld := ⟨GPIO_INT_EN, 0, 32⟩

def GPIO_HOST_EVT : Nat := 0x40046040
def GPIO_HOST_EVT_HOST_EVT : Fld := ⟨GPIO_HOST_EVT, 0, 4⟩

def GPIO_HOST_CFG : Nat := 0x40046044
def GPIO_HOST_CFG_MIN_GAP_US : Fld := ⟨GPIO_HOST_CFG, 16, 16⟩
def GPIO_HOST_CFG_NOTIFY_EN : Fld := ⟨GPIO_HOST_CFG, 8, 1⟩
def GPIO_HOST_CFG_MASK : Fld := ⟨GPIO_HOST_CFG, 0, 4⟩

/-! Table 13-8. -/

def FLT_STATUS : Nat := 0x401F0000
def FLT_STATUS_LAST_EVENT : Fld := ⟨FLT_STATUS, 24, 8⟩
def FLT_STATUS_LAST_UNIT : Fld := ⟨FLT_STATUS, 16, 8⟩
def FLT_STATUS_PLANNED : Fld := ⟨FLT_STATUS, 4, 1⟩
def FLT_STATUS_LOADER : Fld := ⟨FLT_STATUS, 3, 1⟩
def FLT_STATUS_LASTING_UNACK : Fld := ⟨FLT_STATUS, 2, 1⟩
def FLT_STATUS_HEALTH_LOW : Fld := ⟨FLT_STATUS, 1, 1⟩
def FLT_STATUS_BELOW_MIN : Fld := ⟨FLT_STATUS, 0, 1⟩

/-! Table 13-9. -/

def FLT_CFG : Nat := 0x401F0004
def FLT_CFG_PIN_ON_LASTING : Fld := ⟨FLT_CFG, 0, 1⟩

def FLT_CMD : Nat := 0x401F0008
def FLT_CMD_RESULT : Fld := ⟨FLT_CMD, 24, 8⟩
def FLT_CMD_PENDING : Fld := ⟨FLT_CMD, 16, 1⟩
def FLT_CMD_UNIT : Fld := ⟨FLT_CMD, 8, 8⟩
def FLT_CMD_OP : Fld := ⟨FLT_CMD, 0, 2⟩

/-! Table 13-10. -/

def FLT_UNIT_SEL : Nat := 0x401F000C
def FLT_UNIT_SEL_UNIT : Fld := ⟨FLT_UNIT_SEL, 0, 8⟩

def FLT_UNIT : Nat := 0x401F0010
def FLT_UNIT_WINDOW_S : Fld := ⟨FLT_UNIT, 16, 16⟩
def FLT_UNIT_THRESHOLD : Fld := ⟨FLT_UNIT, 11, 5⟩
def FLT_UNIT_COUNT : Fld := ⟨FLT_UNIT, 3, 5⟩
def FLT_UNIT_STATE : Fld := ⟨FLT_UNIT, 0, 3⟩

def FLT_UNIT_TOTAL : Nat := 0x401F0014
def FLT_UNIT_TOTAL_EVENTS : Fld := ⟨FLT_UNIT_TOTAL, 0, 32⟩

/-! Table 13-11. -/

def FLT_RETIRED_LO : Nat := 0x401F0018
def FLT_RETIRED_LO_MASK : Fld := ⟨FLT_RETIRED_LO, 0, 32⟩

def FLT_RETIRED_HI : Nat := 0x401F001C
def FLT_RETIRED_HI_MASK : Fld := ⟨FLT_RETIRED_HI, 0, 32⟩

def FLT_LASTING_LO : Nat := 0x401F0020
def FLT_LASTING_LO_MASK : Fld := ⟨FLT_LASTING_LO, 0, 32⟩

def FLT_LASTING_HI : Nat := 0x401F0024
def FLT_LASTING_HI_MASK : Fld := ⟨FLT_LASTING_HI, 0, 32⟩

/-! Table 13-12. -/

def FLT_SVC_NOW_0 : Nat := 0x401F0028
def FLT_SVC_NOW_0_IS_SLEEVES : Fld := ⟨FLT_SVC_NOW_0, 24, 8⟩
def FLT_SVC_NOW_0_SG_SLEEVES : Fld := ⟨FLT_SVC_NOW_0, 16, 8⟩
def FLT_SVC_NOW_0_LINK_ENGINES : Fld := ⟨FLT_SVC_NOW_0, 8, 8⟩
def FLT_SVC_NOW_0_PAIRS : Fld := ⟨FLT_SVC_NOW_0, 0, 8⟩

def FLT_SVC_NOW_1 : Nat := 0x401F002C
def FLT_SVC_NOW_1_WIRED : Fld := ⟨FLT_SVC_NOW_1, 24, 8⟩
def FLT_SVC_NOW_1_TX_MASK : Fld := ⟨FLT_SVC_NOW_1, 16, 8⟩
def FLT_SVC_NOW_1_IS_CHAINS : Fld := ⟨FLT_SVC_NOW_1, 8, 8⟩
def FLT_SVC_NOW_1_SG_CHAINS : Fld := ⟨FLT_SVC_NOW_1, 0, 8⟩

def FLT_SVC_NOW_2 : Nat := 0x401F0030
def FLT_SVC_NOW_2_CIPHER : Fld := ⟨FLT_SVC_NOW_2, 16, 8⟩
def FLT_SVC_NOW_2_CAPACITY : Fld := ⟨FLT_SVC_NOW_2, 0, 16⟩

def FLT_SVC_MIN_0 : Nat := 0x401F0034
def FLT_SVC_MIN_0_MIN : Fld := ⟨FLT_SVC_MIN_0, 0, 32⟩

def FLT_SVC_MIN_1 : Nat := 0x401F0038
def FLT_SVC_MIN_1_MIN : Fld := ⟨FLT_SVC_MIN_1, 0, 32⟩

def FLT_SVC_MIN_2 : Nat := 0x401F003C
def FLT_SVC_MIN_2_MIN : Fld := ⟨FLT_SVC_MIN_2, 0, 32⟩

def FLT_OUTAGE_MS : Nat := 0x401F0040
def FLT_OUTAGE_MS_MS : Fld := ⟨FLT_OUTAGE_MS, 0, 32⟩

def FLT_EXCLUDED_MS : Nat := 0x401F0044
def FLT_EXCLUDED_MS_MS : Fld := ⟨FLT_EXCLUDED_MS, 0, 32⟩

def FLT_OUTAGE_MAX : Nat := 0x401F0048
def FLT_OUTAGE_MAX_MS : Fld := ⟨FLT_OUTAGE_MAX, 0, 32⟩

/-! Table 13-13. -/

def FLT_EVENTS : Nat := 0x401F0050
def FLT_EVENTS_LOG_LOST : Fld := ⟨FLT_EVENTS, 5, 1⟩
def FLT_EVENTS_RESTORED : Fld := ⟨FLT_EVENTS, 4, 1⟩
def FLT_EVENTS_BELOW_MIN : Fld := ⟨FLT_EVENTS, 3, 1⟩
def FLT_EVENTS_RETIRED : Fld := ⟨FLT_EVENTS, 2, 1⟩
def FLT_EVENTS_LASTING : Fld := ⟨FLT_EVENTS, 1, 1⟩
def FLT_EVENTS_RECORD : Fld := ⟨FLT_EVENTS, 0, 1⟩

def FLT_INT_EN : Nat := 0x401F0054
def FLT_INT_EN_EN : Fld := ⟨FLT_INT_EN, 0, 6⟩

/-! Table 13-14. -/

def FLT_LOG_WR : Nat := 0x401F0060
def FLT_LOG_WR_WR : Fld := ⟨FLT_LOG_WR, 0, 7⟩

def FLT_LOG_RD : Nat := 0x401F0064
def FLT_LOG_RD_RD : Fld := ⟨FLT_LOG_RD, 0, 7⟩

def FLT_LOG_LOST : Nat := 0x401F0068
def FLT_LOG_LOST_COUNT : Fld := ⟨FLT_LOG_LOST, 0, 32⟩

/-- One register of the map: first address, the two instance strides and counts, reset value, and the masks of
its RW, W1C, W1S, ST and RS bits (Table 00-6). Every other bit is RO, WO or reserved and a plain write ignores it
(rules R4 and R5). -/
structure RegRow where
  base : Nat
  s1 : Nat
  n1 : Nat
  s2 : Nat
  n2 : Nat
  rst : Nat
  rw : Nat
  w1c : Nat
  w1s : Nat
  st : Nat
  rs : Nat
deriving DecidableEq, Repr

/-- Does the row hold address `a`? -/
def RegRow.has (r : RegRow) (a : Nat) : Bool :=
  decide (r.base ≤ a) &&
    (let d := a - r.base
     decide (d / r.s1 < r.n1) && decide (d % r.s1 / r.s2 < r.n2) && decide (d % r.s1 % r.s2 = 0))

def regRows0 : List RegRow := [
  ⟨0x40000000, 0x4, 1, 0x4, 1, 0x12240100, 0x00000000, 0x00000000, 0x00000000, 0x00000000, 0x00000000⟩,
  ⟨0x40000004, 0x4, 1, 0x4, 1, 0x00000003, 0x00000000, 0x00000000, 0x00000000, 0x00000003, 0x00000000⟩,
  ⟨0x40000010, 0x4, 1, 0x4, 1, 0x00000000, 0x00000000, 0x0000000F, 0x00000000, 0x00000000, 0x00000000⟩,
  ⟨0x40000014, 0x4, 1, 0x4, 1, 0x00000000, 0x00000000, 0x00000000, 0x00000000, 0x00000000, 0x00000000⟩,
  ⟨0x40000018, 0x4, 1, 0x4, 1, 0x00000000, 0x00000000, 0x00000000, 0x00000000, 0x00000000, 0x00000000⟩,
  ⟨0x4000001C, 0x4, 1, 0x4, 1, 0x00000000, 0x00000000, 0x00000000, 0x00000000, 0x00000000, 0xFFFFFFFF⟩,
  ⟨0x40008000, 0x4, 1, 0x4, 1, 0x00000002, 0x00000000, 0x00000000, 0x00000000, 0x00000000, 0x00000000⟩,
  ⟨0x40008004, 0x4, 1, 0x4, 1, 0x00000000, 0x00000000, 0x00000000, 0x00000000, 0x00000000, 0x00000000⟩,
  ⟨0x40008008, 0x4, 1, 0x4, 1, 0x00000000, 0x00000000, 0x00000000, 0x00000000, 0x00000000, 0x00000000⟩,
  ⟨0x4000800C, 0x4, 1, 0x4, 1, 0x00000000, 0x00000000, 0x00000000, 0x00000000, 0x00000000, 0x00000000⟩,
  ⟨0x40008010, 0x4, 1, 0x4, 1, 0x00000000, 0x00000030, 0x00000000, 0x00000000, 0x00000000, 0x00000000⟩,
  ⟨0x40008014, 0x4, 1, 0x4, 1, 0x00000000, 0x00000000, 0x00000000, 0x00000000, 0x00000000, 0x0000FF00⟩,
  ⟨0x40008018, 0x4, 1, 0x4, 1, 0x00000000, 0x00000000, 0x00000000, 0x00000000, 0x00000000, 0x00000000⟩,
  ⟨0x40048000, 0x4, 1, 0x4, 1, 0x00000000, 0x00000000, 0x00000080, 0x00000000, 0x00000000, 0x00000000⟩,
  ⟨0x40048004, 0x4, 1, 0x4, 1, 0x00000000, 0x00000000, 0x00000000, 0x00000000, 0x00000000, 0x00000000⟩,
  ⟨0x40080000, 0x10000, 2, 0x10000, 1, 0x00000000, 0x00000000, 0x00000000, 0x00000000, 0x00FFFFFF, 0x00000000⟩,
  ⟨0x40080004, 0x10000, 2, 0x10000, 1, 0x00000000, 0x00001300, 0x00000000, 0x00000000, 0x0000000F, 0x00000000⟩,
  ⟨0x40080008, 0x10000, 2, 0x10000, 1, 0x00000000, 0x00FFFFFF, 0x00000000, 0x00000000, 0x00000000, 0x00000000⟩,
  ⟨0x4008000C, 0x10000, 2, 0x10000, 1, 0x00000000, 0x00000000, 0x00000000, 0x00000000, 0x00000000, 0x00000000⟩,
  ⟨0x40080010, 0x10000, 2, 0x10000, 1, 0x00000000, 0x00FF0300, 0x00000000, 0x00000000, 0x00000000, 0x00000000⟩,
  ⟨0x40080014, 0x10000, 2, 0x10000, 1, 0x00401E06, 0x00FFFFFF, 0x00000000, 0x00000000, 0x00000000, 0x00000000⟩,
  ⟨0x40080018, 0x10000, 2, 0x10000, 1, 0x00000000, 0xFFFF0000, 0x00000000, 0x00000000, 0x00000000, 0x00000000⟩,
  ⟨0x4008001C, 0x10000, 2, 0x10000, 1, 0x00000000, 0x00000000, 0x00000000, 0x00000000, 0x00000000, 0x00000000⟩,
  ⟨0x40080020, 0x10000, 2, 0x10000, 1, 0x00000000, 0x00000000, 0x000003FF, 0x00000000, 0x00000000, 0x00000000⟩,
  ⟨0x40080024, 0x10000, 2, 0x10000, 1, 0x00000000, 0x000003FF, 0x00000000, 0x00000000, 0x00000000, 0x00000000⟩,
  ⟨0x40080028, 0x10000, 2, 0x10000, 1, 0x00000000, 0x00000000, 0x00000000, 0x00000000, 0x00000000, 0xFFFFFFFF⟩,
  ⟨0x4008002C, 0x10000, 2, 0x10000, 1, 0x00140000, 0x00FF0000, 0x00000000, 0x00000000, 0x00000000, 0x00000000⟩,
  ⟨0x400C0000, 0x1000, 2, 0x1000, 1, 0x00000000, 0x0100FF03, 0x00000000, 0x00000000, 0x00000000, 0x00000000⟩,
  ⟨0x400C0004, 0x1000, 2, 0x1000, 1, 0x00000000, 0x00000000, 0x00000000, 0x00000000, 0x00000000, 0x00000000⟩,
  ⟨0x400C0008, 0x1000, 2, 0x1000, 1, 0x00030C18, 0x000FFFFF, 0x00000000, 0x00000000, 0x00000000, 0x00000000⟩,
  ⟨0x400C000C, 0x1000, 2, 0x1000, 1, 0x0000FFFF, 0x00000000, 0x00000000, 0x00000000, 0x00000000, 0x00000000⟩,
  ⟨0x400C0010, 0x1000, 2, 0x1000, 1, 0x00000000, 0x00000000, 0x000001FF, 0x00000000, 0x00000000, 0x00000000⟩,
  ⟨0x400C0014, 0x1000, 2, 0x1000, 1, 0x00000000, 0x000001FF, 0x00000000, 0x00000000, 0x00000000, 0x00000000⟩,
  ⟨0x400C0018, 0x1000, 2, 0x1000, 1, 0x00000000, 0x00000000, 0x00000000, 0x00000000, 0x00000000, 0xFFFFFFFF⟩,
  ⟨0x400C001C, 0x1000, 2, 0x1000, 1, 0x00000000, 0x00000000, 0x00000000, 0x00000000, 0x00000000, 0xFFFFFFFF⟩,
  ⟨0x400A0000, 0x400, 32, 0x400, 1, 0x00000000, 0x00000000, 0x00000000, 0x00000000, 0x0000007F, 0x00000000⟩,
  ⟨0x400A0004, 0x400, 32, 0x400, 1, 0x0000000C, 0x0000000F, 0x00000000, 0x00000000, 0x00000000, 0x00000000⟩,
  ⟨0x400A0008, 0x400, 32, 0x400, 1, 0x00000000, 0x00FFFFFF, 0x00000000, 0x00000000, 0x00000000, 0x00000000⟩,
  ⟨0x400A000C, 0x400, 32, 0x400, 1, 0x00000AC1, 0x0000FFFF, 0x00000000, 0x00000000, 0x00000000, 0x00000000⟩,
  ⟨0x400A0010, 0x400, 32, 0x400, 1, 0x00007F01, 0x00007F07, 0x00000000, 0x00000000, 0x00000000, 0x00000000⟩]

def regRows1 : List RegRow := [
  ⟨0x400A0014, 0x400, 32, 0x400, 1, 0x0000904E, 0xFFFFFFFF, 0x00000000, 0x00000000, 0x00000000, 0x00000000⟩,
  ⟨0x400A0018, 0x400, 32, 0x400, 1, 0x00006F4E, 0xFFFFFFFF, 0x00000000, 0x00000000, 0x00000000, 0x00000000⟩,
  ⟨0x400A001C, 0x400, 32, 0x400, 1, 0x80081008, 0xF0FFFF1F, 0x00000000, 0x00000000, 0x00000000, 0x00000000⟩,
  ⟨0x400A0020, 0x400, 32, 0x400, 1, 0x0200000C, 0xFFFF00FF, 0x00000000, 0x00000000, 0x00000000, 0x00000000⟩,
  ⟨0x400A0024, 0x400, 32, 0x400, 1, 0x000007FF, 0x000007FF, 0x00000000, 0x00000000, 0x00000000, 0x00000000⟩,
  ⟨0x400A0028, 0x400, 32, 0x400, 1, 0x00000000, 0x00000000, 0x00000000, 0x00000000, 0x00000000, 0x00000000⟩,
  ⟨0x400A002C, 0x400, 32, 0x400, 1, 0x00000000, 0x00000000, 0x00000000, 0x00000000, 0x00000000, 0x00000000⟩,
  ⟨0x400A0040, 0x400, 32, 0x400, 1, 0x00000000, 0x00000000, 0x00000000, 0x00000000, 0x00000000, 0xFFFFFFFF⟩,
  ⟨0x400A0044, 0x400, 32, 0x400, 1, 0x00000000, 0x00000000, 0x00000000, 0x00000000, 0x00000000, 0xFFFFFFFF⟩,
  ⟨0x400A0048, 0x400, 32, 0x400, 1, 0x00000000, 0x00000000, 0x00000000, 0x00000000, 0x00000000, 0xFFFFFFFF⟩,
  ⟨0x400A004C, 0x400, 32, 0x400, 1, 0x00000000, 0x00000000, 0x00000000, 0x00000000, 0x00000000, 0xFFFFFFFF⟩,
  ⟨0x400A0050, 0x400, 32, 0x400, 1, 0x00000000, 0x00000000, 0x00000000, 0x00000000, 0x00000000, 0xFFFFFFFF⟩,
  ⟨0x400A0054, 0x400, 32, 0x400, 1, 0x00000000, 0x00000000, 0x00000000, 0x00000000, 0x00000000, 0xFFFFFFFF⟩,
  ⟨0x400A0058, 0x400, 32, 0x400, 1, 0x00000000, 0x00000000, 0x00000000, 0x00000000, 0x00000000, 0xFFFFFFFF⟩,
  ⟨0x400A005C, 0x400, 32, 0x400, 1, 0x00000000, 0x00000000, 0x00000000, 0x00000000, 0x00000000, 0xFFFFFFFF⟩,
  ⟨0x400A0060, 0x400, 32, 0x400, 1, 0x00000000, 0x00000000, 0x00000000, 0x00000000, 0x00000000, 0xFFFFFFFF⟩,
  ⟨0x400A0064, 0x400, 32, 0x400, 1, 0x00000000, 0x00000000, 0x00000000, 0x00000000, 0x00000000, 0xFFFFFFFF⟩,
  ⟨0x400B0000, 0x4, 1, 0x4, 1, 0x0E100000, 0xFFFF0007, 0x00000000, 0x00000000, 0x00000000, 0x00000000⟩,
  ⟨0x400B0004, 0x4, 1, 0x4, 1, 0x00000000, 0x00000000, 0x00000000, 0x00000000, 0x00000000, 0x00000000⟩,
  ⟨0x400B0008, 0x4, 1, 0x4, 1, 0x00000000, 0x00000000, 0x00000000, 0x00000000, 0x00000000, 0x00000000⟩,
  ⟨0x400B000C, 0x4, 1, 0x4, 1, 0x00000000, 0x00000000, 0x000001FF, 0x00000000, 0x00000000, 0x00000000⟩,
  ⟨0x400B0010, 0x4, 1, 0x4, 1, 0x00000000, 0x000001FF, 0x00000000, 0x00000000, 0x00000000, 0x00000000⟩,
  ⟨0x400B0100, 0x10, 6, 0x10, 1, 0x00000000, 0xFFFFFFC0, 0x00000000, 0x00000000, 0x00000000, 0x00000000⟩,
  ⟨0x400B0104, 0x10, 6, 0x10, 1, 0x00000000, 0x0000FFFF, 0x00000000, 0x00000000, 0x00000000, 0x00000000⟩,
  ⟨0x400B0108, 0x10, 6, 0x10, 1, 0x00000000, 0x00000000, 0x00000000, 0x00000000, 0x00000000, 0x00000000⟩,
  ⟨0x400B010C, 0x10, 6, 0x10, 1, 0x00000000, 0x0000FFFF, 0x00000000, 0x00000000, 0x00000000, 0x00000000⟩,
  ⟨0x400C0020, 0x1000, 2, 0x1000, 1, 0x008000AB, 0x03FF00FF, 0x00000000, 0x00000000, 0x00000000, 0x00000000⟩,
  ⟨0x400C0028, 0x1000, 2, 0x1000, 1, 0x0000904E, 0xFFFFFFFF, 0x00000000, 0x00000000, 0x00000000, 0x00000000⟩,
  ⟨0x400C002C, 0x1000, 2, 0x1000, 1, 0x00006F4E, 0xFFFFFFFF, 0x00000000, 0x00000000, 0x00000000, 0x00000000⟩,
  ⟨0x400C0030, 0x1000, 2, 0x1000, 1, 0x00000000, 0x00000003, 0x00000000, 0x00000000, 0x00000000, 0x00000000⟩,
  ⟨0x400C0034, 0x1000, 2, 0x1000, 1, 0x00000000, 0x00000000, 0x00000000, 0x00000000, 0x00000000, 0xFFFFFFFF⟩,
  ⟨0x400C0038, 0x1000, 2, 0x1000, 1, 0x00000000, 0x00000000, 0x00000000, 0x00000000, 0x00000000, 0xFFFFFFFF⟩,
  ⟨0x400C0100, 0x1000, 2, 0x10, 6, 0x00000000, 0xFFFFFFE0, 0x00000000, 0x00000000, 0x00000000, 0x00000000⟩,
  ⟨0x400C0104, 0x1000, 2, 0x10, 6, 0x00000000, 0x0000FFFF, 0x00000000, 0x00000000, 0x00000000, 0x00000000⟩,
  ⟨0x400C0108, 0x1000, 2, 0x10, 6, 0x00000000, 0x00000000, 0x00000000, 0x00000000, 0x00000000, 0x00000000⟩,
  ⟨0x400C010C, 0x1000, 2, 0x10, 6, 0x00000000, 0x0000FFFF, 0x00000000, 0x00000000, 0x00000000, 0x00000000⟩,
  ⟨0x40047000, 0x4, 1, 0x4, 1, 0x00000000, 0x00000073, 0x00000000, 0x00000000, 0x00000000, 0x00000000⟩,
  ⟨0x40047004, 0x4, 1, 0x4, 1, 0x00000000, 0x00000000, 0x00000000, 0x00000000, 0x00000000, 0x00000000⟩,
  ⟨0x40047008, 0x4, 1, 0x4, 1, 0x00000000, 0x00000000, 0x00000000, 0x00000000, 0x00000000, 0xFFFFFFFF⟩,
  ⟨0x4004700C, 0x4, 1, 0x4, 1, 0x00000000, 0x00000000, 0x00000000, 0x00000000, 0x00000000, 0x00000000⟩]

def regRows2 : List RegRow := [
  ⟨0x40047010, 0x4, 1, 0x4, 1, 0x00000000, 0xFFFFFFFF, 0x00000000, 0x00000000, 0x00000000, 0x00000000⟩,
  ⟨0x40047014, 0x4, 1, 0x4, 1, 0x00000000, 0xFFFFFFFF, 0x00000000, 0x00000000, 0x00000000, 0x00000000⟩,
  ⟨0x4004701C, 0x4, 1, 0x4, 1, 0x00000000, 0x00000000, 0x00000000, 0x00000000, 0x00000000, 0x00000000⟩,
  ⟨0x40047018, 0x4, 1, 0x4, 1, 0x00000064, 0x000000FF, 0x00000000, 0x00000000, 0x00000000, 0x00000000⟩,
  ⟨0x40047020, 0x4, 1, 0x4, 1, 0x00000000, 0x00000000, 0x00000000, 0x00000000, 0x00000000, 0xFFFFFFFF⟩,
  ⟨0x40047024, 0x4, 1, 0x4, 1, 0x00000000, 0x00000000, 0x00000000, 0x00000000, 0x00000000, 0x00000000⟩,
  ⟨0x40047028, 0x4, 1, 0x4, 1, 0x007A1200, 0xFFFFFFFF, 0x00000000, 0x00000000, 0x00000000, 0x00000000⟩,
  ⟨0x4004702C, 0x4, 1, 0x4, 1, 0x00000000, 0xFFFFFFFF, 0x00000000, 0x00000000, 0x00000000, 0x00000000⟩,
  ⟨0x40047030, 0x4, 1, 0x4, 1, 0x00000064, 0x0000FFFF, 0x00000000, 0x00000000, 0x00000000, 0x00000000⟩,
  ⟨0x40047034, 0x4, 1, 0x4, 1, 0x3D090000, 0x00000000, 0x00000000, 0x00000000, 0x00000000, 0x00000000⟩,
  ⟨0x40047040, 0x4, 1, 0x4, 1, 0x00000000, 0x00000000, 0x00000000, 0x00000000, 0x00000000, 0x00000000⟩,
  ⟨0x40047038, 0x4, 1, 0x4, 1, 0x00000000, 0x00000000, 0x0000001F, 0x00000000, 0x00000000, 0x00000000⟩,
  ⟨0x4004703C, 0x4, 1, 0x4, 1, 0x00000000, 0x0000001F, 0x00000000, 0x00000000, 0x00000000, 0x00000000⟩,
  ⟨0x40100000, 0x4, 1, 0x4, 1, 0x00000000, 0x00000001, 0x00000000, 0x00000000, 0x00000000, 0x00000000⟩,
  ⟨0x40100004, 0x4, 1, 0x4, 1, 0x00000000, 0x00000000, 0x00000000, 0x00000000, 0x00000000, 0x00000000⟩,
  ⟨0x40100008, 0x4, 1, 0x4, 1, 0x00000000, 0x00000000, 0x00000000, 0x00000000, 0x00000000, 0xFFFFFFFF⟩,
  ⟨0x4010000C, 0x4, 1, 0x4, 1, 0x00000000, 0x00000000, 0x00000000, 0x00000000, 0x00000000, 0x00000000⟩,
  ⟨0x40100010, 0x4, 1, 0x4, 1, 0x00000000, 0xFFFFFFFF, 0x00000000, 0x00000000, 0x00000000, 0x00000000⟩,
  ⟨0x40100014, 0x4, 1, 0x4, 1, 0x00000000, 0x000000FF, 0x00000000, 0x00000000, 0x00000000, 0x00000000⟩,
  ⟨0x40100018, 0x4, 1, 0x4, 1, 0x00000000, 0xFFFFFFFF, 0x00000000, 0x00000000, 0x00000000, 0x00000000⟩,
  ⟨0x4010001C, 0x4, 1, 0x4, 1, 0x00000000, 0x0000FFFF, 0x00000000, 0x00000000, 0x00000000, 0x00000000⟩,
  ⟨0x40100020, 0x4, 1, 0x4, 1, 0x00013880, 0x003FFFFF, 0x00000000, 0x00000000, 0x00000000, 0x00000000⟩,
  ⟨0x40100024, 0x4, 1, 0x4, 1, 0x03E80FA0, 0xFFFFFFFF, 0x00000000, 0x00000000, 0x00000000, 0x00000000⟩,
  ⟨0x40100028, 0x4, 1, 0x4, 1, 0x07D00190, 0xFFFFFFFF, 0x00000000, 0x00000000, 0x00000000, 0x00000000⟩,
  ⟨0x4010002C, 0x4, 1, 0x4, 1, 0x01F40960, 0xFFFFFFFF, 0x00000000, 0x00000000, 0x00000000, 0x00000000⟩,
  ⟨0x40100030, 0x4, 1, 0x4, 1, 0x000000FA, 0x0000FFFF, 0x00000000, 0x00000000, 0x00000000, 0x00000000⟩,
  ⟨0x40100034, 0x4, 1, 0x4, 1, 0x09C40064, 0xFFFFFFFF, 0x00000000, 0x00000000, 0x00000000, 0x00000000⟩,
  ⟨0x40100038, 0x4, 1, 0x4, 1, 0x80000000, 0x80000FFF, 0x00000000, 0x00000000, 0x00000000, 0x00000000⟩,
  ⟨0x4010003C, 0x4, 1, 0x4, 1, 0x00040810, 0x07FFFFFF, 0x00000000, 0x00000000, 0x00000000, 0x00000000⟩,
  ⟨0x40100040, 0x4, 1, 0x4, 1, 0x00008514, 0x0000FFFF, 0x00000000, 0x00000000, 0x00000000, 0x00000000⟩,
  ⟨0x40100044, 0x4, 1, 0x4, 1, 0x01001003, 0xFFFFFFFF, 0x00000000, 0x00000000, 0x00000000, 0x00000000⟩,
  ⟨0x40100048, 0x4, 1, 0x4, 1, 0x00000A00, 0x0000FFFF, 0x00000000, 0x00000000, 0x00000000, 0x00000000⟩,
  ⟨0x4010004C, 0x4, 1, 0x4, 1, 0x00000003, 0x0000000F, 0x00000000, 0x00000000, 0x00000000, 0x00000000⟩,
  ⟨0x40100050, 0x4, 1, 0x4, 1, 0x00000000, 0x00000000, 0x00000000, 0x00000000, 0x00000000, 0x00000000⟩,
  ⟨0x40100054, 0x4, 1, 0x4, 1, 0x00000000, 0x00000000, 0x00000000, 0x00000000, 0x00000000, 0x00000000⟩,
  ⟨0x40100058, 0x4, 1, 0x4, 1, 0x00000000, 0x0000FFFF, 0x00000000, 0x00000000, 0x00000000, 0x00000000⟩,
  ⟨0x40100060, 0x4, 1, 0x4, 1, 0x00000000, 0x00000000, 0x000007FF, 0x00000000, 0x00000000, 0x00000000⟩,
  ⟨0x40100064, 0x4, 1, 0x4, 1, 0x00000000, 0x000007FF, 0x00000000, 0x00000000, 0x00000000, 0x00000000⟩,
  ⟨0x40100068, 0x4, 1, 0x4, 1, 0x00000000, 0x00000000, 0x00000000, 0x00000000, 0x00000000, 0x00000000⟩,
  ⟨0x40100080, 0x4, 1, 0x4, 1, 0x00000000, 0x00000000, 0x00000000, 0x00000000, 0x00000000, 0xFFFFFFFF⟩]

def regRows3 : List RegRow := [
  ⟨0x40100084, 0x4, 1, 0x4, 1, 0x00000000, 0x00000000, 0x00000000, 0x00000000, 0x00000000, 0xFFFFFFFF⟩,
  ⟨0x40100088, 0x4, 1, 0x4, 1, 0x00000000, 0x00000000, 0x00000000, 0x00000000, 0x00000000, 0xFFFFFFFF⟩,
  ⟨0x4010008C, 0x4, 1, 0x4, 1, 0x00000000, 0x00000000, 0x00000000, 0x00000000, 0x00000000, 0xFFFFFFFF⟩,
  ⟨0x40100090, 0x4, 1, 0x4, 1, 0x00000000, 0x00000000, 0x00000000, 0x00000000, 0x00000000, 0xFFFFFFFF⟩,
  ⟨0x40100094, 0x4, 1, 0x4, 1, 0x00000000, 0x00000000, 0x00000000, 0x00000000, 0x00000000, 0xFFFFFFFF⟩,
  ⟨0x40100098, 0x4, 1, 0x4, 1, 0x00000000, 0x00000000, 0x00000000, 0x00000000, 0x00000000, 0xFFFFFFFF⟩,
  ⟨0x40100100, 0x10, 8, 0x10, 1, 0x00000000, 0x8000FFFF, 0x00000000, 0x00000000, 0x00000000, 0x00000000⟩,
  ⟨0x40100104, 0x10, 8, 0x10, 1, 0x00000000, 0xFFFFFFF0, 0x00000000, 0x00000000, 0x00000000, 0x00000000⟩,
  ⟨0x40100108, 0x10, 8, 0x10, 1, 0x00000000, 0x000007FF, 0x00000000, 0x00000000, 0x00000000, 0x00000000⟩,
  ⟨0x4010010C, 0x10, 8, 0x10, 1, 0x00000000, 0x00000000, 0x00000000, 0x00000000, 0x00000000, 0x00000000⟩,
  ⟨0x40100200, 0x4, 1, 0x4, 1, 0x00000000, 0x000001FF, 0x00000000, 0x00000000, 0x00000000, 0x00000000⟩,
  ⟨0x40100204, 0x4, 1, 0x4, 1, 0x00000000, 0x00000000, 0x00000000, 0x00000000, 0x00000000, 0x00000000⟩,
  ⟨0x40100208, 0x4, 1, 0x4, 1, 0x00000000, 0x00000000, 0x00000000, 0x00000000, 0x00000000, 0x00000000⟩,
  ⟨0x40100400, 0x4, 128, 0x4, 1, 0x00000000, 0x00FFFFFF, 0x00000000, 0x00000000, 0x00000000, 0x00000000⟩,
  ⟨0x40100600, 0x4, 128, 0x4, 1, 0x00000000, 0x00FFFFFF, 0x00000000, 0x00000000, 0x00000000, 0x00000000⟩,
  ⟨0x40120000, 0x100, 6, 0x100, 1, 0x00000000, 0x00000000, 0x00000000, 0x00000000, 0x00000000, 0x00000000⟩,
  ⟨0x40120004, 0x100, 6, 0x100, 1, 0x00000000, 0x00000000, 0x00000000, 0x00000000, 0x00000000, 0x00000000⟩,
  ⟨0x40120008, 0x100, 6, 0x100, 1, 0x00000000, 0x00000000, 0x00000000, 0x00000000, 0x00000000, 0x00000000⟩,
  ⟨0x4012000C, 0x100, 6, 0x100, 1, 0x000003E8, 0x0000FFFF, 0x00000000, 0x00000000, 0x00000000, 0x00000000⟩,
  ⟨0x40120010, 0x100, 6, 0x100, 1, 0x00000000, 0x00000000, 0x00000000, 0x00000000, 0x00000000, 0xFFFFFFFF⟩,
  ⟨0x40120800, 0x4, 1, 0x4, 1, 0x00543210, 0x00000000, 0x00000000, 0x00000000, 0x00000000, 0x00000000⟩,
  ⟨0x40120804, 0x4, 1, 0x4, 1, 0x0E100000, 0xFFFF0000, 0x00000000, 0x00000000, 0x00000000, 0x00000000⟩,
  ⟨0x40120808, 0x4, 1, 0x4, 1, 0x00000000, 0x00000000, 0x0000001F, 0x00000000, 0x00000000, 0x00000000⟩,
  ⟨0x4012080C, 0x4, 1, 0x4, 1, 0x00000000, 0x0000001F, 0x00000000, 0x00000000, 0x00000000, 0x00000000⟩,
  ⟨0x40140000, 0x4, 1, 0x4, 1, 0x0000FFFE, 0xFFFFFFFF, 0x00000000, 0x00000000, 0x00000000, 0x00000000⟩,
  ⟨0x40140004, 0x4, 1, 0x4, 1, 0x00000080, 0x00007FFF, 0x00000000, 0x00000000, 0x00000000, 0x00000000⟩,
  ⟨0x40140008, 0x4, 1, 0x4, 1, 0x00000000, 0x0000003F, 0x00000000, 0x00000000, 0x00000000, 0x00000000⟩,
  ⟨0x4014000C, 0x4, 1, 0x4, 1, 0x00000000, 0xFFFFFF00, 0x00000000, 0x00000000, 0x00000000, 0x00000000⟩,
  ⟨0x40140010, 0x4, 1, 0x4, 1, 0x00000000, 0x0FFF0003, 0x00000000, 0x00000000, 0x00000000, 0x00000000⟩,
  ⟨0x40140014, 0x4, 1, 0x4, 1, 0x020000CD, 0x0FFF0FFF, 0x00000000, 0x00000000, 0x00000000, 0x00000000⟩,
  ⟨0x40140018, 0x4, 1, 0x4, 1, 0x00000000, 0x00000000, 0x00000000, 0x00000000, 0x00000000, 0x00000000⟩,
  ⟨0x4014001C, 0x4, 1, 0x4, 1, 0x00400010, 0xFFFFFFFF, 0x00000000, 0x00000000, 0x00000000, 0x00000000⟩,
  ⟨0x40140020, 0x4, 6, 0x4, 1, 0x00000800, 0x00000FFF, 0x00000000, 0x00000000, 0x00000000, 0x00000000⟩,
  ⟨0x40140040, 0x4, 1, 0x4, 1, 0x00000000, 0xFFFFFFF8, 0x00000000, 0x00000000, 0x00000000, 0x00000000⟩,
  ⟨0x40140044, 0x4, 1, 0x4, 1, 0x00000000, 0xFFFFFFC0, 0x00000000, 0x00000000, 0x00000000, 0x00000000⟩,
  ⟨0x40140048, 0x4, 1, 0x4, 1, 0x00000000, 0x0000001F, 0x00000000, 0x00000000, 0x00000000, 0x00000000⟩,
  ⟨0x4014004C, 0x4, 1, 0x4, 1, 0x02580100, 0xFFFF01FF, 0x00000000, 0x00000000, 0x00000000, 0x00000000⟩,
  ⟨0x40140050, 0x4, 1, 0x4, 1, 0x00000000, 0xFFFFFFC0, 0x00000000, 0x00000000, 0x00000000, 0x00000000⟩,
  ⟨0x40140054, 0x4, 1, 0x4, 1, 0x012C0002, 0xFFFF000F, 0x00000000, 0x00000000, 0x00000000, 0x00000000⟩,
  ⟨0x40140058, 0x4, 1, 0x4, 1, 0x00000000, 0x0000FFFF, 0x00000000, 0x00000000, 0x00000000, 0x00000000⟩]

def regRows4 : List RegRow := [
  ⟨0x4014005C, 0x4, 1, 0x4, 1, 0x00000400, 0x80001FFF, 0x00000000, 0x00000000, 0x00000000, 0x00000000⟩,
  ⟨0x40140060, 0x4, 1, 0x4, 1, 0x00000000, 0x00000000, 0x00000000, 0x00000000, 0x00000000, 0x00000000⟩,
  ⟨0x40140064, 0x4, 1, 0x4, 1, 0x00000000, 0x00000000, 0x00000000, 0x00000000, 0x00000000, 0x00000000⟩,
  ⟨0x40140068, 0x4, 1, 0x4, 1, 0x00000000, 0xFFFFFFE0, 0x00000000, 0x00000000, 0x00000000, 0x00000000⟩,
  ⟨0x40140070, 0x4, 1, 0x4, 1, 0x00000000, 0x00000000, 0x00000FFF, 0x00000000, 0x00000000, 0x00000000⟩,
  ⟨0x40140074, 0x4, 1, 0x4, 1, 0x00000000, 0x00000FFF, 0x00000000, 0x00000000, 0x00000000, 0x00000000⟩,
  ⟨0x40140080, 0x4, 1, 0x4, 1, 0x00000000, 0x00000000, 0x00000000, 0x00000000, 0x00000000, 0xFFFFFFFF⟩,
  ⟨0x40140084, 0x4, 1, 0x4, 1, 0x00000000, 0x00000000, 0x00000000, 0x00000000, 0x00000000, 0xFFFFFFFF⟩,
  ⟨0x40140088, 0x4, 1, 0x4, 1, 0x00000000, 0x00000000, 0x00000000, 0x00000000, 0x00000000, 0xFFFFFFFF⟩,
  ⟨0x4014008C, 0x4, 1, 0x4, 1, 0x00000000, 0x00000000, 0x00000000, 0x00000000, 0x00000000, 0xFFFFFFFF⟩,
  ⟨0x40140090, 0x4, 1, 0x4, 1, 0x00000000, 0x00000000, 0x00000000, 0x00000000, 0x00000000, 0xFFFFFFFF⟩,
  ⟨0x40140094, 0x4, 1, 0x4, 1, 0x00000000, 0x00000000, 0x00000000, 0x00000000, 0x00000000, 0xFFFFFFFF⟩,
  ⟨0x40140098, 0x4, 1, 0x4, 1, 0x00000000, 0x00000000, 0x00000000, 0x00000000, 0x00000000, 0xFFFFFFFF⟩,
  ⟨0x4014009C, 0x4, 1, 0x4, 1, 0x00000000, 0x00000000, 0x00000000, 0x00000000, 0x00000000, 0xFFFFFFFF⟩,
  ⟨0x401400A0, 0x4, 1, 0x4, 1, 0x00000000, 0x00000000, 0x00000000, 0x00000000, 0x00000000, 0xFFFFFFFF⟩,
  ⟨0x401400A4, 0x4, 1, 0x4, 1, 0x00000000, 0x00000000, 0x00000000, 0x00000000, 0x00000000, 0xFFFFFFFF⟩,
  ⟨0x401400A8, 0x4, 1, 0x4, 1, 0x00000000, 0x00000000, 0x00000000, 0x00000000, 0x00000000, 0xFFFFFFFF⟩,
  ⟨0x401400AC, 0x4, 1, 0x4, 1, 0x00000000, 0x00000000, 0x00000000, 0x00000000, 0x00000000, 0xFFFFFFFF⟩,
  ⟨0x401400B0, 0x4, 1, 0x4, 1, 0x00000000, 0x00000000, 0x00000000, 0x00000000, 0x00000000, 0xFFFFFFFF⟩,
  ⟨0x401400B4, 0x4, 1, 0x4, 1, 0x00000000, 0x00000000, 0x00000000, 0x00000000, 0x00000000, 0xFFFFFFFF⟩,
  ⟨0x401400B8, 0x4, 1, 0x4, 1, 0x00000000, 0x00000000, 0x00000000, 0x00000000, 0x00000000, 0xFFFFFFFF⟩,
  ⟨0x401400BC, 0x4, 1, 0x4, 1, 0x00000000, 0x00000000, 0x00000000, 0x00000000, 0x00000000, 0xFFFFFFFF⟩,
  ⟨0x401400C0, 0x4, 1, 0x4, 1, 0x00000000, 0x00000000, 0x00000000, 0x00000000, 0x00000000, 0xFFFFFFFF⟩,
  ⟨0x401400C4, 0x4, 1, 0x4, 1, 0x00000000, 0x00000000, 0x00000000, 0x00000000, 0x00000000, 0xFFFFFFFF⟩,
  ⟨0x401400C8, 0x4, 1, 0x4, 1, 0x00000000, 0x00000000, 0x00000000, 0x00000000, 0x00000000, 0xFFFFFFFF⟩,
  ⟨0x40140100, 0x10, 9, 0x10, 1, 0x00000000, 0xFFFFFFE0, 0x00000000, 0x00000000, 0x00000000, 0x00000000⟩,
  ⟨0x40140104, 0x10, 9, 0x10, 1, 0x00000000, 0x0000FFFF, 0x00000000, 0x00000000, 0x00000000, 0x00000000⟩,
  ⟨0x40140108, 0x10, 9, 0x10, 1, 0x00000000, 0x0000FFFF, 0x00000000, 0x00000000, 0x00000000, 0x00000000⟩,
  ⟨0x4014010C, 0x10, 9, 0x10, 1, 0x00000000, 0x0000FFFF, 0x00000000, 0x00000000, 0x00000000, 0x00000000⟩,
  ⟨0x40150000, 0x4, 1, 0x4, 1, 0x00000000, 0x00000000, 0x00000000, 0x00000000, 0x00000000, 0x00000000⟩,
  ⟨0x40150004, 0x4, 1, 0x4, 1, 0x00000000, 0x00000FFF, 0x00000000, 0x00000000, 0x00000000, 0x00000000⟩,
  ⟨0x40150008, 0x4, 1, 0x4, 1, 0x00000000, 0xFFFFFFFF, 0x00000000, 0x00000000, 0x00000000, 0x00000000⟩,
  ⟨0x4015000C, 0x4, 1, 0x4, 1, 0x00000000, 0xFFFFFFFF, 0x00000000, 0x00000000, 0x00000000, 0x00000000⟩,
  ⟨0x40150010, 0x4, 1, 0x4, 1, 0x00000000, 0xFFFFFFFF, 0x00000000, 0x00000000, 0x00000000, 0x00000000⟩,
  ⟨0x40150014, 0x4, 1, 0x4, 1, 0x00000000, 0x00FF1F3F, 0x00000000, 0x00000000, 0x00000000, 0x00000000⟩,
  ⟨0x40150018, 0x4, 1, 0x4, 1, 0x00000000, 0x00BFFFFF, 0x00000000, 0x00000000, 0x00000000, 0x00000000⟩,
  ⟨0x4015001C, 0x4, 1, 0x4, 1, 0x00000000, 0x00000000, 0x00000000, 0x00000000, 0x00000000, 0x00000000⟩,
  ⟨0x40150028, 0x4, 1, 0x4, 1, 0x00000000, 0x00000000, 0x00000000, 0x00000000, 0x00000000, 0xFFFFFFFF⟩,
  ⟨0x40150020, 0x4, 1, 0x4, 1, 0x00000000, 0x00000000, 0x00000007, 0x00000000, 0x00000000, 0x00000000⟩,
  ⟨0x40150024, 0x4, 1, 0x4, 1, 0x00000000, 0x00000007, 0x00000000, 0x00000000, 0x00000000, 0x00000000⟩]

def regRows5 : List RegRow := [
  ⟨0x40060000, 0x4, 1, 0x4, 1, 0x00000000, 0x00000000, 0x00000000, 0x00000000, 0x00000000, 0x00000000⟩,
  ⟨0x40060004, 0x4, 1, 0x4, 1, 0x00000000, 0x00003F3F, 0x00000000, 0x00000000, 0x00000000, 0x00000000⟩,
  ⟨0x40060008, 0x4, 1, 0x4, 1, 0x00000000, 0xFFFFFFF8, 0x00000000, 0x00000000, 0x00000000, 0x00000000⟩,
  ⟨0x4006000C, 0x4, 1, 0x4, 1, 0x00000000, 0x0000003F, 0x00000000, 0x00000000, 0x00000000, 0x00000000⟩,
  ⟨0x40060010, 0x4, 1, 0x4, 1, 0x00000000, 0x00000000, 0x00000000, 0x00000000, 0x00000000, 0x00000000⟩,
  ⟨0x40060014, 0x4, 1, 0x4, 1, 0x00000000, 0x00000000, 0x00000000, 0x00000000, 0x00000000, 0x00000000⟩,
  ⟨0x40060018, 0x4, 1, 0x4, 1, 0x00000000, 0x00000000, 0x00000000, 0x00000000, 0x00000000, 0xFFFFFFFF⟩,
  ⟨0x4006001C, 0x4, 1, 0x4, 1, 0x00400013, 0xFFFF001F, 0x00000000, 0x00000000, 0x00000000, 0x00000000⟩,
  ⟨0x40060020, 0x4, 1, 0x4, 1, 0x00000000, 0x00000000, 0x00000000, 0x00000000, 0x00000000, 0xFFFFFFFF⟩,
  ⟨0x40060024, 0x4, 1, 0x4, 1, 0x00000000, 0x00000000, 0x00000000, 0x00000000, 0x00000000, 0x00000000⟩,
  ⟨0x40060028, 0x4, 1, 0x4, 1, 0x00000000, 0x00000000, 0x00000000, 0x00000000, 0x00000000, 0xFFFFFFFF⟩,
  ⟨0x40060030, 0x4, 1, 0x4, 1, 0x00000000, 0x00000000, 0x00001FFF, 0x00000000, 0x00000000, 0x00000000⟩,
  ⟨0x40060034, 0x4, 1, 0x4, 1, 0x00000000, 0x00001FFF, 0x00000000, 0x00000000, 0x00000000, 0x00000000⟩,
  ⟨0x40060038, 0x4, 1, 0x4, 1, 0x00000000, 0x00000000, 0x00000000, 0x00000000, 0x00000000, 0x00000000⟩,
  ⟨0x40060100, 0x4, 64, 0x4, 1, 0x00000000, 0x00000000, 0x00000000, 0x00000000, 0xFFFFFFFF, 0x00000000⟩,
  ⟨0x40061000, 0x10, 8, 0x10, 1, 0x00000000, 0x00000000, 0x00000000, 0x00000000, 0x00000000, 0x00000000⟩,
  ⟨0x40061090, 0x4, 1, 0x4, 1, 0x00000000, 0x00000000, 0x00000000, 0x00000000, 0x00000000, 0x00000000⟩,
  ⟨0x40061004, 0x10, 8, 0x10, 1, 0x00000000, 0x00000000, 0x00000000, 0x00000000, 0x00000000, 0x00000000⟩,
  ⟨0x40061094, 0x4, 1, 0x4, 1, 0x00000000, 0x00000000, 0x00000000, 0x00000000, 0x00000000, 0x00000000⟩,
  ⟨0x40061008, 0x10, 8, 0x10, 1, 0x00000000, 0x00000000, 0x00000000, 0x00000000, 0x00000000, 0x00000000⟩,
  ⟨0x40061098, 0x4, 1, 0x4, 1, 0x00000000, 0x00000000, 0x00000000, 0x00000000, 0x00000000, 0x00000000⟩,
  ⟨0x4006100C, 0x10, 8, 0x10, 1, 0x00000008, 0x0000001F, 0x00000000, 0x00000000, 0x00000000, 0x00000000⟩,
  ⟨0x4006109C, 0x4, 1, 0x4, 1, 0x00000008, 0x0000001F, 0x00000000, 0x00000000, 0x00000000, 0x00000000⟩,
  ⟨0x40061100, 0x4, 1, 0x4, 1, 0x00000040, 0x00000000, 0x00000000, 0x00000000, 0x00000000, 0x00000000⟩,
  ⟨0x40061104, 0x4, 1, 0x4, 1, 0x00000418, 0x00001F3F, 0x00000000, 0x00000000, 0x00000000, 0x00000000⟩,
  ⟨0x40061108, 0x4, 1, 0x4, 1, 0x00000001, 0x00000000, 0x00000000, 0x00000000, 0x00000000, 0x00000000⟩,
  ⟨0x4006110C, 0x4, 1, 0x4, 1, 0x0E100000, 0xFFFF0000, 0x00000000, 0x00000000, 0x00000000, 0x00000000⟩,
  ⟨0x40061110, 0x4, 1, 0x4, 1, 0x00000000, 0x00000000, 0x01FF01FF, 0x00000000, 0x00000000, 0x00000000⟩,
  ⟨0x40061114, 0x4, 1, 0x4, 1, 0x00000000, 0x01FF01FF, 0x00000000, 0x00000000, 0x00000000, 0x00000000⟩,
  ⟨0x40061120, 0x4, 1, 0x4, 1, 0x00000000, 0x00000000, 0x00000000, 0x00000000, 0x00000000, 0xFFFFFFFF⟩,
  ⟨0x40061124, 0x4, 1, 0x4, 1, 0x00000000, 0x00000000, 0x00000000, 0x00000000, 0x00000000, 0xFFFFFFFF⟩,
  ⟨0x40061128, 0x4, 1, 0x4, 1, 0x00000000, 0x00000000, 0x00000000, 0x00000000, 0x00000000, 0xFFFFFFFF⟩,
  ⟨0x4006112C, 0x4, 1, 0x4, 1, 0x00000000, 0x00000000, 0x00000000, 0x00000000, 0x00000000, 0xFFFFFFFF⟩,
  ⟨0x40061130, 0x4, 1, 0x4, 1, 0x00000000, 0x00000000, 0x00000000, 0x00000000, 0x00000000, 0xFFFFFFFF⟩,
  ⟨0x40050000, 0x100, 2, 0x100, 1, 0x00000000, 0x00000000, 0x00000000, 0x00000000, 0x00000000, 0x00000000⟩,
  ⟨0x40050004, 0x100, 2, 0x100, 1, 0x00000000, 0x003FFE00, 0x00000000, 0x00000000, 0x00000000, 0x00000000⟩,
  ⟨0x40050008, 0x100, 2, 0x100, 1, 0x00000000, 0xFFFFFFF8, 0x00000000, 0x00000000, 0x00000000, 0x00000000⟩,
  ⟨0x4005000C, 0x100, 2, 0x100, 1, 0x00000000, 0x00000000, 0x00000000, 0x00000000, 0x00000000, 0x00000000⟩,
  ⟨0x40050010, 0x100, 2, 0x100, 1, 0x00000000, 0x00000000, 0x00000000, 0x00000000, 0x00000000, 0x00000000⟩,
  ⟨0x40050014, 0x100, 2, 0x100, 1, 0x00000000, 0x0000003F, 0x00000000, 0x00000000, 0x00000000, 0x00000000⟩,
  ⟨0x40050018, 0x100, 2, 0x100, 1, 0x00000000, 0x00000000, 0x00000000, 0x00000000, 0x00000000, 0x00000000⟩,
  ⟨0x4005001C, 0x100, 2, 0x100, 1, 0x00000000, 0x00000000, 0x00000000, 0x00000000, 0x00000000, 0x00000000⟩,
  ⟨0x40050020, 0x100, 2, 0x100, 1, 0x00000004, 0x00000000, 0x00000000, 0x00000000, 0x00000000, 0x00000000⟩,
  ⟨0x40050028, 0x100, 2, 0x100, 1, 0x00000000, 0x00000000, 0x00000000, 0x00000000, 0x00000000, 0x00000000⟩]

def regRows6 : List RegRow := [
  ⟨0x4005002C, 0x100, 2, 0x100, 1, 0x00000000, 0x00000000, 0x00000000, 0x00000000, 0x00000000, 0x00000000⟩,
  ⟨0x40050024, 0x100, 2, 0x100, 1, 0x00000000, 0x00000000, 0x00000000, 0x00000000, 0x00000000, 0xFFFFFFFF⟩,
  ⟨0x40050038, 0x100, 2, 0x100, 1, 0x00000000, 0x00000000, 0x00000000, 0x00000000, 0x00000000, 0xFFFFFFFF⟩,
  ⟨0x4005003C, 0x100, 2, 0x100, 1, 0x00000000, 0x00000000, 0x00000000, 0x00000000, 0x00000000, 0xFFFFFFFF⟩,
  ⟨0x40050030, 0x100, 2, 0x100, 1, 0x00000000, 0x00000000, 0x000001FF, 0x00000000, 0x00000000, 0x00000000⟩,
  ⟨0x40050034, 0x100, 2, 0x100, 1, 0x00000000, 0x000001FF, 0x00000000, 0x00000000, 0x00000000, 0x00000000⟩,
  ⟨0x40050800, 0x4, 1, 0x4, 1, 0x0001140A, 0x0001FFFF, 0x00000000, 0x00000000, 0x00000000, 0x00000000⟩,
  ⟨0x40051000, 0x4, 1, 0x4, 1, 0x03E81031, 0xFFFFFFF1, 0x00000000, 0x00000000, 0x00000000, 0x00000000⟩,
  ⟨0x40051004, 0x4, 1, 0x4, 1, 0x0000FFFF, 0x0000FFFF, 0x00000000, 0x00000000, 0x00000000, 0x00000000⟩,
  ⟨0x40051008, 0x4, 1, 0x4, 1, 0x00000000, 0x00000000, 0x00000000, 0x00000000, 0x00000000, 0x00000000⟩,
  ⟨0x4005100C, 0x4, 1, 0x4, 1, 0x00000000, 0x00000000, 0x00000000, 0x00000000, 0x00000000, 0x00000000⟩,
  ⟨0x40051010, 0x4, 1, 0x4, 1, 0x05A00002, 0xFFFF000F, 0x00000000, 0x00000000, 0x00000000, 0x00000000⟩,
  ⟨0x40051020, 0x4, 8, 0x4, 1, 0x00000080, 0x00000000, 0x00000000, 0x00000000, 0x00000000, 0x00000000⟩,
  ⟨0x40051040, 0x4, 1, 0x4, 1, 0x00000000, 0x00000000, 0x00000000, 0x00000000, 0x00000000, 0x00000000⟩,
  ⟨0x40051044, 0x4, 1, 0x4, 1, 0x00000000, 0x00000000, 0x00000000, 0x00000000, 0x00000000, 0x00000000⟩,
  ⟨0x40051048, 0x4, 1, 0x4, 1, 0x00000000, 0x00000000, 0x00000000, 0x00000000, 0x00000000, 0x00000000⟩,
  ⟨0x40051080, 0x4, 1, 0x4, 1, 0x00000000, 0x00000000, 0x00000000, 0x00000000, 0x00000000, 0xFFFFFFFF⟩,
  ⟨0x40051084, 0x4, 1, 0x4, 1, 0x00000000, 0x00000000, 0x00000000, 0x00000000, 0x00000000, 0xFFFFFFFF⟩,
  ⟨0x40051088, 0x4, 1, 0x4, 1, 0x00000000, 0x00000000, 0x00000000, 0x00000000, 0x00000000, 0xFFFFFFFF⟩,
  ⟨0x4005108C, 0x4, 1, 0x4, 1, 0x00000000, 0x00000000, 0x00000000, 0x00000000, 0x00000000, 0xFFFFFFFF⟩,
  ⟨0x40051090, 0x4, 1, 0x4, 1, 0x00000000, 0x00000000, 0x00000000, 0x00000000, 0x00000000, 0xFFFFFFFF⟩,
  ⟨0x40051094, 0x4, 1, 0x4, 1, 0x00000000, 0x00000000, 0x00000000, 0x00000000, 0x00000000, 0xFFFFFFFF⟩,
  ⟨0x400510B0, 0x4, 1, 0x4, 1, 0x00000000, 0x00000000, 0x0000003F, 0x00000000, 0x00000000, 0x00000000⟩,
  ⟨0x400510B4, 0x4, 1, 0x4, 1, 0x00000000, 0x0000003F, 0x00000000, 0x00000000, 0x00000000, 0x00000000⟩,
  ⟨0x40051100, 0x4, 1, 0x4, 1, 0x00000000, 0x00000000, 0x00000000, 0x00000000, 0x00000000, 0x00000000⟩,
  ⟨0x40051104, 0x4, 1, 0x4, 1, 0x00000000, 0x00000000, 0x00000000, 0x00000000, 0x00000000, 0x00000000⟩,
  ⟨0x40051108, 0x4, 1, 0x4, 1, 0x00000000, 0xFFFFFFF8, 0x00000000, 0x00000000, 0x00000000, 0x00000000⟩,
  ⟨0x4005110C, 0x4, 1, 0x4, 1, 0x00000000, 0xFFFFFFFF, 0x00000000, 0x00000000, 0x00000000, 0x00000000⟩,
  ⟨0x40051110, 0x4, 1, 0x4, 1, 0x00000000, 0xFFFFFFFF, 0x00000000, 0x00000000, 0x00000000, 0x00000000⟩,
  ⟨0x40051114, 0x4, 1, 0x4, 1, 0x00000000, 0x0000FFFF, 0x00000000, 0x00000000, 0x00000000, 0x00000000⟩,
  ⟨0x40051118, 0x4, 1, 0x4, 1, 0x00000000, 0x00000000, 0x00000000, 0x00000000, 0x00000000, 0x00000000⟩,
  ⟨0x4005111C, 0x4, 1, 0x4, 1, 0x00000000, 0x00000000, 0x00000000, 0x00000000, 0x00000000, 0x00000000⟩,
  ⟨0x40000040, 0x4, 1, 0x4, 1, 0x00000000, 0x00000000, 0x00000000, 0x00000000, 0x00000003, 0x00000000⟩,
  ⟨0x40000044, 0x4, 1, 0x4, 1, 0x00000100, 0x00000000, 0x00000000, 0x00000000, 0x00000000, 0x00000000⟩,
  ⟨0x40000048, 0x4, 1, 0x4, 1, 0x00000000, 0x00000000, 0x00000000, 0x00000001, 0x00000000, 0x00000000⟩,
  ⟨0x4000004C, 0x4, 1, 0x4, 1, 0x00000000, 0xFFFFFFFF, 0x00000000, 0x00000000, 0x00000000, 0x00000000⟩,
  ⟨0x40000050, 0x4, 1, 0x4, 1, 0x00000000, 0x00000000, 0x0000007F, 0x00000000, 0x00000000, 0x00000000⟩,
  ⟨0x40000054, 0x4, 1, 0x4, 1, 0x00000000, 0x0000007F, 0x00000000, 0x00000000, 0x00000000, 0x00000000⟩,
  ⟨0x40000058, 0x4, 1, 0x4, 1, 0x00015180, 0xFFFFFFFF, 0x00000000, 0x00000000, 0x00000000, 0x00000000⟩,
  ⟨0x40000060, 0x10, 2, 0x10, 1, 0x006403E8, 0xFFFFFFFE, 0x00000000, 0x00000001, 0x00000000, 0x00000000⟩]

def regRows7 : List RegRow := [
  ⟨0x40000064, 0x10, 2, 0x10, 1, 0x00000000, 0x00000000, 0x00000000, 0x00000000, 0x00000000, 0x00000000⟩,
  ⟨0x40000068, 0x10, 2, 0x10, 1, 0x00000000, 0x00000000, 0x00000000, 0x00000000, 0x00000000, 0x00000000⟩,
  ⟨0x40000080, 0x8, 2, 0x8, 1, 0x00000000, 0xFFFFFFE0, 0x00000000, 0x00000000, 0x00000000, 0x00000000⟩,
  ⟨0x40000084, 0x8, 2, 0x8, 1, 0x00000000, 0x00007FE0, 0x00000000, 0x00000000, 0x00000000, 0x00000000⟩,
  ⟨0x40020000, 0x1000, 8, 0x1000, 1, 0x00000006, 0x00000007, 0x00000000, 0x00000000, 0x00000000, 0x00000000⟩,
  ⟨0x40020004, 0x1000, 8, 0x1000, 1, 0x00000000, 0x0000000F, 0x00000000, 0x00000000, 0x00000000, 0x00000000⟩,
  ⟨0x40020018, 0x1000, 8, 0x1000, 1, 0x00000000, 0x00000000, 0x00000000, 0x00000000, 0x00000000, 0x00000000⟩,
  ⟨0x40020008, 0x1000, 8, 0x1000, 1, 0x00000000, 0x00000000, 0x00000000, 0x00000000, 0x00000000, 0xFFFFFFFF⟩,
  ⟨0x4002000C, 0x1000, 8, 0x1000, 1, 0x00000000, 0x0000FFFF, 0x00000000, 0x00000000, 0x00000000, 0x00000000⟩,
  ⟨0x40020010, 0x1000, 8, 0x1000, 1, 0xFFFFFFFF, 0xFFFFFFFF, 0x00000000, 0x00000000, 0x00000000, 0x00000000⟩,
  ⟨0x40020014, 0x1000, 8, 0x1000, 1, 0x0000FFFF, 0x0000FFFF, 0x00000000, 0x00000000, 0x00000000, 0x00000000⟩,
  ⟨0x40020020, 0x1000, 8, 0x10, 4, 0x00000000, 0x001F7F7F, 0x00000000, 0x00000000, 0x00000000, 0x00000000⟩,
  ⟨0x40020024, 0x1000, 8, 0x10, 4, 0x00000000, 0x00000000, 0x00000000, 0x00000000, 0x00000000, 0xFFFFFFFF⟩,
  ⟨0x40020028, 0x1000, 8, 0x10, 4, 0x00000000, 0x0000FFFF, 0x00000000, 0x00000000, 0x00000000, 0x00000000⟩,
  ⟨0x40020060, 0x1000, 8, 0x1000, 1, 0x00000000, 0x00000000, 0x00001FF3, 0x00000000, 0x00000000, 0x00000000⟩,
  ⟨0x40020064, 0x1000, 8, 0x1000, 1, 0x00000000, 0x00001FF3, 0x00000000, 0x00000000, 0x00000000, 0x00000000⟩,
  ⟨0x40020100, 0x4, 16, 0x4, 1, 0x000000FF, 0x00000000, 0x00000000, 0x00000000, 0xFFFFFFFF, 0x00000000⟩,
  ⟨0x40010000, 0x4, 1, 0x4, 1, 0x00000000, 0x00000000, 0x00000000, 0x00000000, 0x00000000, 0x00000000⟩,
  ⟨0x40010004, 0x4, 1, 0x4, 1, 0x00000000, 0x00000000, 0x00000000, 0x00000000, 0x00000000, 0x00000000⟩,
  ⟨0x40010008, 0x4, 1, 0x4, 1, 0x00000087, 0x000007FE, 0x00000000, 0x00000000, 0x00000000, 0x00000000⟩,
  ⟨0x4001000C, 0x4, 1, 0x4, 1, 0x00000087, 0x00000000, 0x00000000, 0x00000000, 0x000007FF, 0x00000000⟩,
  ⟨0x40010010, 0x4, 1, 0x4, 1, 0x00004015, 0x00000000, 0x00000000, 0x00000000, 0x00000000, 0x00000000⟩,
  ⟨0x40010014, 0x4, 1, 0x4, 1, 0x0000FF00, 0x0000FE03, 0x00000000, 0x00000000, 0x00000000, 0x00000000⟩,
  ⟨0x40010018, 0x4, 1, 0x4, 1, 0x03E83C00, 0xFFFFFF1F, 0x00000000, 0x00000000, 0x00000000, 0x00000000⟩,
  ⟨0x4001001C, 0x4, 1, 0x4, 1, 0x00020601, 0x0003FFFF, 0x00000000, 0x00000000, 0x00000000, 0x00000000⟩,
  ⟨0x40010020, 0x4, 1, 0x4, 1, 0x00000000, 0x33333333, 0x00000000, 0x00000000, 0x00000000, 0x00000000⟩,
  ⟨0x40010024, 0x4, 1, 0x4, 1, 0x1F000000, 0x00000000, 0x0003FFFF, 0x00000000, 0x00000000, 0x00000000⟩,
  ⟨0x40010028, 0x4, 1, 0x4, 1, 0x00000000, 0x00000000, 0x0003FFFF, 0x00000000, 0x00000000, 0x00000000⟩,
  ⟨0x4001002C, 0x4, 1, 0x4, 1, 0x00000000, 0xFFFFFFFF, 0x00000000, 0x00000000, 0x00000000, 0x00000000⟩,
  ⟨0x40010030, 0x4, 1, 0x4, 1, 0x00000000, 0x8000FFFF, 0x00000000, 0x00000000, 0x00000000, 0x00000000⟩,
  ⟨0x40010034, 0x4, 1, 0x4, 1, 0x00000BB8, 0x00000000, 0x00000000, 0x00000000, 0x0000FFFF, 0x00000000⟩,
  ⟨0x40010038, 0x4, 1, 0x4, 1, 0x00000000, 0x00000000, 0x00000000, 0x00000000, 0x00000000, 0x00000000⟩,
  ⟨0x4001003C, 0x4, 1, 0x4, 1, 0x00000000, 0x00000000, 0x00000000, 0x00000001, 0x00000000, 0x00000000⟩,
  ⟨0x40010040, 0x4, 1, 0x4, 1, 0x00000000, 0x00000000, 0x00000000, 0x0000FF00, 0x00000000, 0x00000000⟩,
  ⟨0x40010044, 0x4, 1, 0x4, 1, 0x00000400, 0x00000000, 0x00000000, 0x00000000, 0x00000000, 0x00000000⟩,
  ⟨0x40010048, 0x4, 1, 0x4, 1, 0x00000000, 0x00000000, 0x00000000, 0x00000000, 0x00000000, 0x00000000⟩,
  ⟨0x40010050, 0x4, 1, 0x4, 1, 0x00000000, 0x00000000, 0x00000FFF, 0x00000000, 0x00000000, 0x00000000⟩,
  ⟨0x40010054, 0x4, 1, 0x4, 1, 0x00000000, 0x00000FFF, 0x00000000, 0x00000000, 0x00000000, 0x00000000⟩,
  ⟨0x40180000, 0x100, 2, 0x100, 1, 0x05F20018, 0x0FFF001F, 0x00000000, 0x00000000, 0x00000000, 0x00000000⟩,
  ⟨0x40180004, 0x100, 2, 0x100, 1, 0x00000000, 0x00000000, 0x00000000, 0x00000000, 0x00000000, 0x00000000⟩]

def regRows8 : List RegRow := [
  ⟨0x40180008, 0x100, 2, 0x100, 1, 0x00000000, 0x00000000, 0x0000003F, 0x00000000, 0x00000000, 0x00000000⟩,
  ⟨0x4018000C, 0x100, 2, 0x100, 1, 0x00000000, 0x0000003F, 0x00000000, 0x00000000, 0x00000000, 0x00000000⟩,
  ⟨0x40180010, 0x100, 2, 0x100, 1, 0x00000A04, 0x0000FFFF, 0x00000000, 0x00000000, 0x00000000, 0x00000000⟩,
  ⟨0x40180020, 0x100, 2, 0x100, 1, 0x00000000, 0x00000000, 0x00000000, 0x00000000, 0x00000000, 0xFFFFFFFF⟩,
  ⟨0x40180024, 0x100, 2, 0x100, 1, 0x00000000, 0x00000000, 0x00000000, 0x00000000, 0x00000000, 0xFFFFFFFF⟩,
  ⟨0x40180028, 0x100, 2, 0x100, 1, 0x00000000, 0x00000000, 0x00000000, 0x00000000, 0x00000000, 0xFFFFFFFF⟩,
  ⟨0x4018002C, 0x100, 2, 0x100, 1, 0x00000000, 0x00000000, 0x00000000, 0x00000000, 0x00000000, 0xFFFFFFFF⟩,
  ⟨0x40180030, 0x100, 2, 0x100, 1, 0x00000000, 0x00000000, 0x00000000, 0x00000000, 0x00000000, 0xFFFFFFFF⟩,
  ⟨0x40180034, 0x100, 2, 0x100, 1, 0x00000000, 0x00000000, 0x00000000, 0x00000000, 0x00000000, 0xFFFFFFFF⟩,
  ⟨0x40180038, 0x100, 2, 0x100, 1, 0x00000000, 0x00000000, 0x00000000, 0x00000000, 0x00000000, 0xFFFFFFFF⟩,
  ⟨0x40181000, 0x4, 1, 0x4, 1, 0x00000000, 0xFFFFFFFF, 0x00000000, 0x00000000, 0x00000000, 0x00000000⟩,
  ⟨0x40181004, 0x4, 1, 0x4, 1, 0x00000000, 0x0000FFFF, 0x00000000, 0x00000000, 0x00000000, 0x00000000⟩,
  ⟨0x40181008, 0x4, 1, 0x4, 1, 0x012C0002, 0xFFFF0003, 0x00000000, 0x00000000, 0x00000000, 0x00000000⟩,
  ⟨0x40181010, 0x4, 3, 0x4, 1, 0x00000001, 0x00017FFF, 0x00000000, 0x00000000, 0x00000000, 0x00000000⟩,
  ⟨0x4018101C, 0x4, 1, 0x4, 1, 0x0000FA50, 0x0000FFFF, 0x00000000, 0x00000000, 0x00000000, 0x00000000⟩,
  ⟨0x40181040, 0x4, 16, 0x4, 1, 0x00000000, 0x80070FFF, 0x00000000, 0x00000000, 0x00000000, 0x00000000⟩,
  ⟨0x40181080, 0x4, 1, 0x4, 1, 0x00000500, 0xFFFFFF03, 0x00000000, 0x00000000, 0x00000000, 0x00000000⟩,
  ⟨0x40181084, 0x4, 1, 0x4, 1, 0x20202020, 0xFFFFFFFF, 0x00000000, 0x00000000, 0x00000000, 0x00000000⟩,
  ⟨0x40181088, 0x4, 1, 0x4, 1, 0x00000200, 0x00000000, 0x00000000, 0x00000000, 0x00000000, 0x00000000⟩,
  ⟨0x40181090, 0x4, 1, 0x4, 1, 0x00000000, 0x00000000, 0x000001FF, 0x00000000, 0x00000000, 0x00000000⟩,
  ⟨0x40181094, 0x4, 1, 0x4, 1, 0x00000000, 0x000001FF, 0x00000000, 0x00000000, 0x00000000, 0x00000000⟩,
  ⟨0x40181098, 0x4, 1, 0x4, 1, 0x00000000, 0xFFFFFFFF, 0x00000000, 0x00000000, 0x00000000, 0x00000000⟩,
  ⟨0x4018109C, 0x4, 1, 0x4, 1, 0x00000000, 0x0000FFFF, 0x00000000, 0x00000000, 0x00000000, 0x00000000⟩,
  ⟨0x401810C0, 0x4, 1, 0x4, 1, 0x00000000, 0xFFFFFFE0, 0x00000000, 0x00000000, 0x00000000, 0x00000000⟩,
  ⟨0x401810C4, 0x4, 1, 0x4, 1, 0x00000000, 0x0000FFFF, 0x00000000, 0x00000000, 0x00000000, 0x00000000⟩,
  ⟨0x401810C8, 0x4, 1, 0x4, 1, 0x00000000, 0x00000000, 0x00000000, 0x00000000, 0x00000000, 0x00000000⟩,
  ⟨0x401810CC, 0x4, 1, 0x4, 1, 0x00000000, 0x0000FFFF, 0x00000000, 0x00000000, 0x00000000, 0x00000000⟩,
  ⟨0x401810D0, 0x4, 1, 0x4, 1, 0x00000000, 0xFFFFF800, 0x00000000, 0x00000000, 0x00000000, 0x00000000⟩,
  ⟨0x401810E0, 0x4, 1, 0x4, 1, 0x00000000, 0xFFFFFFE0, 0x00000000, 0x00000000, 0x00000000, 0x00000000⟩,
  ⟨0x401810E4, 0x4, 1, 0x4, 1, 0x00000000, 0x0000FFFF, 0x00000000, 0x00000000, 0x00000000, 0x00000000⟩,
  ⟨0x401810E8, 0x4, 1, 0x4, 1, 0x00000000, 0x0000FFFF, 0x00000000, 0x00000000, 0x00000000, 0x00000000⟩,
  ⟨0x401810EC, 0x4, 1, 0x4, 1, 0x00000000, 0x00000000, 0x00000000, 0x00000000, 0x00000000, 0x00000000⟩,
  ⟨0x40181100, 0x4, 1, 0x4, 1, 0x00000000, 0x00000000, 0x00000000, 0x00000000, 0x00000000, 0xFFFFFFFF⟩,
  ⟨0x40181104, 0x4, 1, 0x4, 1, 0x00000000, 0x00000000, 0x00000000, 0x00000000, 0x00000000, 0xFFFFFFFF⟩,
  ⟨0x40181108, 0x4, 1, 0x4, 1, 0x00000000, 0x00000000, 0x00000000, 0x00000000, 0x00000000, 0xFFFFFFFF⟩,
  ⟨0x4018110C, 0x4, 1, 0x4, 1, 0x00000000, 0x00000000, 0x00000000, 0x00000000, 0x00000000, 0xFFFFFFFF⟩,
  ⟨0x40181110, 0x4, 1, 0x4, 1, 0x00000000, 0x00000000, 0x00000000, 0x00000000, 0x00000000, 0xFFFFFFFF⟩,
  ⟨0x40181114, 0x4, 1, 0x4, 1, 0x00000000, 0x00000000, 0x00000000, 0x00000000, 0x00000000, 0xFFFFFFFF⟩,
  ⟨0x40181118, 0x4, 1, 0x4, 1, 0x00000000, 0x00000000, 0x00000000, 0x00000000, 0x00000000, 0xFFFFFFFF⟩,
  ⟨0x4018111C, 0x4, 1, 0x4, 1, 0x00000000, 0x00000000, 0x00000000, 0x00000000, 0x00000000, 0xFFFFFFFF⟩]

def regRows9 : List RegRow := [
  ⟨0x40181120, 0x4, 1, 0x4, 1, 0x00000000, 0x00000000, 0x00000000, 0x00000000, 0x00000000, 0xFFFFFFFF⟩,
  ⟨0x40030000, 0x1000, 8, 0x1000, 1, 0x64000140, 0xFF00FF7F, 0x00000000, 0x00000000, 0x00000000, 0x00000000⟩,
  ⟨0x40030004, 0x1000, 8, 0x1000, 1, 0x00000000, 0x00000000, 0x00000000, 0x00000000, 0x00000000, 0x00000000⟩,
  ⟨0x40030008, 0x1000, 8, 0x1000, 1, 0x00000000, 0xFFFFFFFF, 0x00000000, 0x00000000, 0x00000000, 0x00000000⟩,
  ⟨0x4003000C, 0x1000, 8, 0x1000, 1, 0x00000000, 0x6000FFFF, 0x00000000, 0x80000000, 0x00000000, 0x00000000⟩,
  ⟨0x40030010, 0x1000, 8, 0x1000, 1, 0x00000000, 0x00000000, 0x00000000, 0x00000000, 0x00000000, 0x00000000⟩,
  ⟨0x40030020, 0x1000, 8, 0x1000, 1, 0x00000000, 0x00000000, 0x00000000, 0x00000000, 0x00000000, 0x00000000⟩,
  ⟨0x40030024, 0x1000, 8, 0x1000, 1, 0x00000000, 0x00000000, 0x00000000, 0x00000000, 0x00000000, 0x00000000⟩,
  ⟨0x40030028, 0x1000, 8, 0x1000, 1, 0x00000000, 0x00000000, 0x0000003F, 0x00000000, 0x00000000, 0x00000000⟩,
  ⟨0x4003002C, 0x1000, 8, 0x1000, 1, 0x00000000, 0x0000003F, 0x00000000, 0x00000000, 0x00000000, 0x00000000⟩,
  ⟨0x40030030, 0x1000, 8, 0x1000, 1, 0x00000000, 0x00000000, 0x00000000, 0x00000000, 0x00000000, 0xFFFFFFFF⟩,
  ⟨0x40040000, 0x1000, 4, 0x1000, 1, 0x00D90002, 0xFFFF001F, 0x00000000, 0x00000000, 0x00000000, 0x00000000⟩,
  ⟨0x40040004, 0x1000, 4, 0x1000, 1, 0x00000000, 0x00000FF3, 0x00000000, 0x00000000, 0x00000000, 0x00000000⟩,
  ⟨0x40040008, 0x1000, 4, 0x1000, 1, 0x80000000, 0x00000000, 0x00000000, 0x00000000, 0x00000000, 0x000003FF⟩,
  ⟨0x4004000C, 0x1000, 4, 0x1000, 1, 0x00010000, 0x00000000, 0x00000000, 0x00000000, 0x00000000, 0x00000000⟩,
  ⟨0x40040010, 0x1000, 4, 0x1000, 1, 0x00000000, 0x00000000, 0x000000FF, 0x00000000, 0x00000000, 0x00000000⟩,
  ⟨0x40040014, 0x1000, 4, 0x1000, 1, 0x00000000, 0x000000FF, 0x00000000, 0x00000000, 0x00000000, 0x00000000⟩,
  ⟨0x40040018, 0x1000, 4, 0x1000, 1, 0x00001020, 0x00003F3F, 0x00000000, 0x00000000, 0x00000000, 0x00000000⟩,
  ⟨0x4004001C, 0x1000, 4, 0x1000, 1, 0x00000000, 0x00000000, 0x00000000, 0x00000000, 0x00000000, 0xFFFFFFFF⟩,
  ⟨0x40044000, 0x1000, 2, 0x1000, 1, 0x00000000, 0x00000037, 0x00000000, 0x00000000, 0x00000000, 0x00000000⟩,
  ⟨0x40044004, 0x1000, 2, 0x1000, 1, 0x00000000, 0x00FFFF7F, 0x00000000, 0x80000000, 0x00000000, 0x00000000⟩,
  ⟨0x40044008, 0x1000, 2, 0x1000, 1, 0x00000000, 0x00000000, 0x00000000, 0x00000000, 0x00000000, 0x00000000⟩,
  ⟨0x4004400C, 0x1000, 2, 0x1000, 1, 0x00000000, 0x00000000, 0x0000000F, 0x00000000, 0x00000000, 0x00000000⟩,
  ⟨0x40044010, 0x1000, 2, 0x1000, 1, 0x00000000, 0x0000000F, 0x00000000, 0x00000000, 0x00000000, 0x00000000⟩,
  ⟨0x40044100, 0x1000, 2, 0x4, 64, 0x00000000, 0xFFFFFFFF, 0x00000000, 0x00000000, 0x00000000, 0x00000000⟩,
  ⟨0x40046000, 0x4, 1, 0x4, 1, 0x00000000, 0xFFFFFFFF, 0x00000000, 0x00000000, 0x00000000, 0x00000000⟩,
  ⟨0x40046004, 0x4, 1, 0x4, 1, 0x00000000, 0xFFFFFFFF, 0x00000000, 0x00000000, 0x00000000, 0x00000000⟩,
  ⟨0x40046008, 0x4, 1, 0x4, 1, 0x00000000, 0x00000000, 0x00000000, 0x00000000, 0x00000000, 0x00000000⟩,
  ⟨0x4004600C, 0x4, 1, 0x4, 1, 0x00000000, 0x00000000, 0x00000000, 0x00000000, 0x00000000, 0x00000000⟩,
  ⟨0x40046010, 0x4, 1, 0x4, 1, 0x00000000, 0x00000000, 0x00000000, 0x00000000, 0x00000000, 0x00000000⟩,
  ⟨0x40046014, 0x4, 1, 0x4, 1, 0x00000000, 0x00000000, 0x00000000, 0x00000000, 0x00000000, 0x00000000⟩,
  ⟨0x40046020, 0x4, 1, 0x4, 1, 0x00000000, 0xFFFFFFFF, 0x00000000, 0x00000000, 0x00000000, 0x00000000⟩,
  ⟨0x40046024, 0x4, 1, 0x4, 1, 0x00000000, 0xFFFFFFFF, 0x00000000, 0x00000000, 0x00000000, 0x00000000⟩,
  ⟨0x40046028, 0x4, 1, 0x4, 1, 0x00000000, 0x00000000, 0xFFFFFFFF, 0x00000000, 0x00000000, 0x00000000⟩,
  ⟨0x4004602C, 0x4, 1, 0x4, 1, 0x00000000, 0xFFFFFFFF, 0x00000000, 0x00000000, 0x00000000, 0x00000000⟩,
  ⟨0x40046040, 0x4, 1, 0x4, 1, 0x00000000, 0x00000000, 0x0000000F, 0x00000000, 0x00000000, 0x00000000⟩,
  ⟨0x40046044, 0x4, 1, 0x4, 1, 0x03E80000, 0xFFFF010F, 0x00000000, 0x00000000, 0x00000000, 0x00000000⟩,
  ⟨0x401F0000, 0x4, 1, 0x4, 1, 0x0000000A, 0x00000000, 0x00000000, 0x00000000, 0x00000000, 0x00000000⟩,
  ⟨0x401F0004, 0x4, 1, 0x4, 1, 0x00000001, 0x00000001, 0x00000000, 0x00000000, 0x00000000, 0x00000000⟩,
  ⟨0x401F0008, 0x4, 1, 0x4, 1, 0x00000000, 0x0000FF00, 0x00000000, 0x00000000, 0x00000000, 0x00000000⟩]

def regRows10 : List RegRow := [
  ⟨0x401F000C, 0x4, 1, 0x4, 1, 0x00000000, 0x000000FF, 0x00000000, 0x00000000, 0x00000000, 0x00000000⟩,
  ⟨0x401F0010, 0x4, 1, 0x4, 1, 0x02581800, 0x00000000, 0x00000000, 0x00000000, 0xFFFFF800, 0x00000000⟩,
  ⟨0x401F0014, 0x4, 1, 0x4, 1, 0x00000000, 0x00000000, 0x00000000, 0x00000000, 0x00000000, 0x00000000⟩,
  ⟨0x401F0018, 0x4, 1, 0x4, 1, 0x00000000, 0x00000000, 0x00000000, 0x00000000, 0x00000000, 0x00000000⟩,
  ⟨0x401F001C, 0x4, 1, 0x4, 1, 0x00000000, 0x00000000, 0x00000000, 0x00000000, 0x00000000, 0x00000000⟩,
  ⟨0x401F0020, 0x4, 1, 0x4, 1, 0x00000000, 0x00000000, 0x00000000, 0x00000000, 0x00000000, 0x00000000⟩,
  ⟨0x401F0024, 0x4, 1, 0x4, 1, 0x00000000, 0x00000000, 0x00000000, 0x00000000, 0x00000000, 0x00000000⟩,
  ⟨0x401F0028, 0x4, 1, 0x4, 1, 0x00000000, 0x00000000, 0x00000000, 0x00000000, 0x00000000, 0x00000000⟩,
  ⟨0x401F002C, 0x4, 1, 0x4, 1, 0x00000000, 0x00000000, 0x00000000, 0x00000000, 0x00000000, 0x00000000⟩,
  ⟨0x401F0030, 0x4, 1, 0x4, 1, 0x00000000, 0x00000000, 0x00000000, 0x00000000, 0x00000000, 0x00000000⟩,
  ⟨0x401F0034, 0x4, 1, 0x4, 1, 0x00000000, 0x00000000, 0x00000000, 0x00000000, 0xFFFFFFFF, 0x00000000⟩,
  ⟨0x401F0038, 0x4, 1, 0x4, 1, 0x00000000, 0x00000000, 0x00000000, 0x00000000, 0xFFFFFFFF, 0x00000000⟩,
  ⟨0x401F003C, 0x4, 1, 0x4, 1, 0x00000000, 0x00000000, 0x00000000, 0x00000000, 0xFFFFFFFF, 0x00000000⟩,
  ⟨0x401F0040, 0x4, 1, 0x4, 1, 0x00000000, 0x00000000, 0x00000000, 0x00000000, 0x00000000, 0x00000000⟩,
  ⟨0x401F0044, 0x4, 1, 0x4, 1, 0x00000000, 0x00000000, 0x00000000, 0x00000000, 0x00000000, 0x00000000⟩,
  ⟨0x401F0048, 0x4, 1, 0x4, 1, 0x00000000, 0x00000000, 0x00000000, 0x00000000, 0x00000000, 0x00000000⟩,
  ⟨0x401F0050, 0x4, 1, 0x4, 1, 0x00000000, 0x00000000, 0x0000003F, 0x00000000, 0x00000000, 0x00000000⟩,
  ⟨0x401F0054, 0x4, 1, 0x4, 1, 0x00000000, 0x0000003F, 0x00000000, 0x00000000, 0x00000000, 0x00000000⟩,
  ⟨0x401F0060, 0x4, 1, 0x4, 1, 0x00000000, 0x00000000, 0x00000000, 0x00000000, 0x00000000, 0x00000000⟩,
  ⟨0x401F0064, 0x4, 1, 0x4, 1, 0x00000000, 0x0000007F, 0x00000000, 0x00000000, 0x00000000, 0x00000000⟩,
  ⟨0x401F0068, 0x4, 1, 0x4, 1, 0x00000000, 0x00000000, 0x00000000, 0x00000000, 0x00000000, 0xFFFFFFFF⟩]

/-- Every register of the spec's tables. -/
def regRows : List RegRow :=
  regRows0 ++ regRows1 ++ regRows2 ++ regRows3 ++ regRows4 ++ regRows5 ++ regRows6 ++ regRows7 ++ regRows8 ++ regRows9 ++ regRows10

/-- The row that holds address `a`; none where the address names no register (rule R30). -/
def regFind (a : Nat) : Option RegRow := regRows.find? (·.has a)

/-- The registers whose reset value is not zero. -/
def resetRows : List RegRow := [
  ⟨0x40000000, 0x4, 1, 0x4, 1, 0x12240100, 0x00000000, 0x00000000, 0x00000000, 0x00000000, 0x00000000⟩,
  ⟨0x40000004, 0x4, 1, 0x4, 1, 0x00000003, 0x00000000, 0x00000000, 0x00000000, 0x00000003, 0x00000000⟩,
  ⟨0x40008000, 0x4, 1, 0x4, 1, 0x00000002, 0x00000000, 0x00000000, 0x00000000, 0x00000000, 0x00000000⟩,
  ⟨0x40080014, 0x10000, 2, 0x10000, 1, 0x00401E06, 0x00FFFFFF, 0x00000000, 0x00000000, 0x00000000, 0x00000000⟩,
  ⟨0x4008002C, 0x10000, 2, 0x10000, 1, 0x00140000, 0x00FF0000, 0x00000000, 0x00000000, 0x00000000, 0x00000000⟩,
  ⟨0x400C0008, 0x1000, 2, 0x1000, 1, 0x00030C18, 0x000FFFFF, 0x00000000, 0x00000000, 0x00000000, 0x00000000⟩,
  ⟨0x400C000C, 0x1000, 2, 0x1000, 1, 0x0000FFFF, 0x00000000, 0x00000000, 0x00000000, 0x00000000, 0x00000000⟩,
  ⟨0x400A0004, 0x400, 32, 0x400, 1, 0x0000000C, 0x0000000F, 0x00000000, 0x00000000, 0x00000000, 0x00000000⟩,
  ⟨0x400A000C, 0x400, 32, 0x400, 1, 0x00000AC1, 0x0000FFFF, 0x00000000, 0x00000000, 0x00000000, 0x00000000⟩,
  ⟨0x400A0010, 0x400, 32, 0x400, 1, 0x00007F01, 0x00007F07, 0x00000000, 0x00000000, 0x00000000, 0x00000000⟩,
  ⟨0x400A0014, 0x400, 32, 0x400, 1, 0x0000904E, 0xFFFFFFFF, 0x00000000, 0x00000000, 0x00000000, 0x00000000⟩,
  ⟨0x400A0018, 0x400, 32, 0x400, 1, 0x00006F4E, 0xFFFFFFFF, 0x00000000, 0x00000000, 0x00000000, 0x00000000⟩,
  ⟨0x400A001C, 0x400, 32, 0x400, 1, 0x80081008, 0xF0FFFF1F, 0x00000000, 0x00000000, 0x00000000, 0x00000000⟩,
  ⟨0x400A0020, 0x400, 32, 0x400, 1, 0x0200000C, 0xFFFF00FF, 0x00000000, 0x00000000, 0x00000000, 0x00000000⟩,
  ⟨0x400A0024, 0x400, 32, 0x400, 1, 0x000007FF, 0x000007FF, 0x00000000, 0x00000000, 0x00000000, 0x00000000⟩,
  ⟨0x400B0000, 0x4, 1, 0x4, 1, 0x0E100000, 0xFFFF0007, 0x00000000, 0x00000000, 0x00000000, 0x00000000⟩,
  ⟨0x400C0020, 0x1000, 2, 0x1000, 1, 0x008000AB, 0x03FF00FF, 0x00000000, 0x00000000, 0x00000000, 0x00000000⟩,
  ⟨0x400C0028, 0x1000, 2, 0x1000, 1, 0x0000904E, 0xFFFFFFFF, 0x00000000, 0x00000000, 0x00000000, 0x00000000⟩,
  ⟨0x400C002C, 0x1000, 2, 0x1000, 1, 0x00006F4E, 0xFFFFFFFF, 0x00000000, 0x00000000, 0x00000000, 0x00000000⟩,
  ⟨0x40047018, 0x4, 1, 0x4, 1, 0x00000064, 0x000000FF, 0x00000000, 0x00000000, 0x00000000, 0x00000000⟩,
  ⟨0x40047028, 0x4, 1, 0x4, 1, 0x007A1200, 0xFFFFFFFF, 0x00000000, 0x00000000, 0x00000000, 0x00000000⟩,
  ⟨0x40047030, 0x4, 1, 0x4, 1, 0x00000064, 0x0000FFFF, 0x00000000, 0x00000000, 0x00000000, 0x00000000⟩,
  ⟨0x40047034, 0x4, 1, 0x4, 1, 0x3D090000, 0x00000000, 0x00000000, 0x00000000, 0x00000000, 0x00000000⟩,
  ⟨0x40100020, 0x4, 1, 0x4, 1, 0x00013880, 0x003FFFFF, 0x00000000, 0x00000000, 0x00000000, 0x00000000⟩,
  ⟨0x40100024, 0x4, 1, 0x4, 1, 0x03E80FA0, 0xFFFFFFFF, 0x00000000, 0x00000000, 0x00000000, 0x00000000⟩,
  ⟨0x40100028, 0x4, 1, 0x4, 1, 0x07D00190, 0xFFFFFFFF, 0x00000000, 0x00000000, 0x00000000, 0x00000000⟩,
  ⟨0x4010002C, 0x4, 1, 0x4, 1, 0x01F40960, 0xFFFFFFFF, 0x00000000, 0x00000000, 0x00000000, 0x00000000⟩,
  ⟨0x40100030, 0x4, 1, 0x4, 1, 0x000000FA, 0x0000FFFF, 0x00000000, 0x00000000, 0x00000000, 0x00000000⟩,
  ⟨0x40100034, 0x4, 1, 0x4, 1, 0x09C40064, 0xFFFFFFFF, 0x00000000, 0x00000000, 0x00000000, 0x00000000⟩,
  ⟨0x40100038, 0x4, 1, 0x4, 1, 0x80000000, 0x80000FFF, 0x00000000, 0x00000000, 0x00000000, 0x00000000⟩,
  ⟨0x4010003C, 0x4, 1, 0x4, 1, 0x00040810, 0x07FFFFFF, 0x00000000, 0x00000000, 0x00000000, 0x00000000⟩,
  ⟨0x40100040, 0x4, 1, 0x4, 1, 0x00008514, 0x0000FFFF, 0x00000000, 0x00000000, 0x00000000, 0x00000000⟩,
  ⟨0x40100044, 0x4, 1, 0x4, 1, 0x01001003, 0xFFFFFFFF, 0x00000000, 0x00000000, 0x00000000, 0x00000000⟩,
  ⟨0x40100048, 0x4, 1, 0x4, 1, 0x00000A00, 0x0000FFFF, 0x00000000, 0x00000000, 0x00000000, 0x00000000⟩,
  ⟨0x4010004C, 0x4, 1, 0x4, 1, 0x00000003, 0x0000000F, 0x00000000, 0x00000000, 0x00000000, 0x00000000⟩,
  ⟨0x4012000C, 0x100, 6, 0x100, 1, 0x000003E8, 0x0000FFFF, 0x00000000, 0x00000000, 0x00000000, 0x00000000⟩,
  ⟨0x40120800, 0x4, 1, 0x4, 1, 0x00543210, 0x00000000, 0x00000000, 0x00000000, 0x00000000, 0x00000000⟩,
  ⟨0x40120804, 0x4, 1, 0x4, 1, 0x0E100000, 0xFFFF0000, 0x00000000, 0x00000000, 0x00000000, 0x00000000⟩,
  ⟨0x40140000, 0x4, 1, 0x4, 1, 0x0000FFFE, 0xFFFFFFFF, 0x00000000, 0x00000000, 0x00000000, 0x00000000⟩,
  ⟨0x40140004, 0x4, 1, 0x4, 1, 0x00000080, 0x00007FFF, 0x00000000, 0x00000000, 0x00000000, 0x00000000⟩,
  ⟨0x40140014, 0x4, 1, 0x4, 1, 0x020000CD, 0x0FFF0FFF, 0x00000000, 0x00000000, 0x00000000, 0x00000000⟩,
  ⟨0x4014001C, 0x4, 1, 0x4, 1, 0x00400010, 0xFFFFFFFF, 0x00000000, 0x00000000, 0x00000000, 0x00000000⟩,
  ⟨0x40140020, 0x4, 6, 0x4, 1, 0x00000800, 0x00000FFF, 0x00000000, 0x00000000, 0x00000000, 0x00000000⟩,
  ⟨0x4014004C, 0x4, 1, 0x4, 1, 0x02580100, 0xFFFF01FF, 0x00000000, 0x00000000, 0x00000000, 0x00000000⟩,
  ⟨0x40140054, 0x4, 1, 0x4, 1, 0x012C0002, 0xFFFF000F, 0x00000000, 0x00000000, 0x00000000, 0x00000000⟩,
  ⟨0x4014005C, 0x4, 1, 0x4, 1, 0x00000400, 0x80001FFF, 0x00000000, 0x00000000, 0x00000000, 0x00000000⟩,
  ⟨0x4006001C, 0x4, 1, 0x4, 1, 0x00400013, 0xFFFF001F, 0x00000000, 0x00000000, 0x00000000, 0x00000000⟩,
  ⟨0x4006100C, 0x10, 8, 0x10, 1, 0x00000008, 0x0000001F, 0x00000000, 0x00000000, 0x00000000, 0x00000000⟩,
  ⟨0x4006109C, 0x4, 1, 0x4, 1, 0x00000008, 0x0000001F, 0x00000000, 0x00000000, 0x00000000, 0x00000000⟩,
  ⟨0x40061100, 0x4, 1, 0x4, 1, 0x00000040, 0x00000000, 0x00000000, 0x00000000, 0x00000000, 0x00000000⟩,
  ⟨0x40061104, 0x4, 1, 0x4, 1, 0x00000418, 0x00001F3F, 0x00000000, 0x00000000, 0x00000000, 0x00000000⟩,
  ⟨0x40061108, 0x4, 1, 0x4, 1, 0x00000001, 0x00000000, 0x00000000, 0x00000000, 0x00000000, 0x00000000⟩,
  ⟨0x4006110C, 0x4, 1, 0x4, 1, 0x0E100000, 0xFFFF0000, 0x00000000, 0x00000000, 0x00000000, 0x00000000⟩,
  ⟨0x40050020, 0x100, 2, 0x100, 1, 0x00000004, 0x00000000, 0x00000000, 0x00000000, 0x00000000, 0x00000000⟩,
  ⟨0x40050800, 0x4, 1, 0x4, 1, 0x0001140A, 0x0001FFFF, 0x00000000, 0x00000000, 0x00000000, 0x00000000⟩,
  ⟨0x40051000, 0x4, 1, 0x4, 1, 0x03E81031, 0xFFFFFFF1, 0x00000000, 0x00000000, 0x00000000, 0x00000000⟩,
  ⟨0x40051004, 0x4, 1, 0x4, 1, 0x0000FFFF, 0x0000FFFF, 0x00000000, 0x00000000, 0x00000000, 0x00000000⟩,
  ⟨0x40051010, 0x4, 1, 0x4, 1, 0x05A00002, 0xFFFF000F, 0x00000000, 0x00000000, 0x00000000, 0x00000000⟩,
  ⟨0x40051020, 0x4, 8, 0x4, 1, 0x00000080, 0x00000000, 0x00000000, 0x00000000, 0x00000000, 0x00000000⟩,
  ⟨0x40000044, 0x4, 1, 0x4, 1, 0x00000100, 0x00000000, 0x00000000, 0x00000000, 0x00000000, 0x00000000⟩,
  ⟨0x40000058, 0x4, 1, 0x4, 1, 0x00015180, 0xFFFFFFFF, 0x00000000, 0x00000000, 0x00000000, 0x00000000⟩,
  ⟨0x40000060, 0x10, 2, 0x10, 1, 0x006403E8, 0xFFFFFFFE, 0x00000000, 0x00000001, 0x00000000, 0x00000000⟩,
  ⟨0x40020000, 0x1000, 8, 0x1000, 1, 0x00000006, 0x00000007, 0x00000000, 0x00000000, 0x00000000, 0x00000000⟩,
  ⟨0x40020010, 0x1000, 8, 0x1000, 1, 0xFFFFFFFF, 0xFFFFFFFF, 0x00000000, 0x00000000, 0x00000000, 0x00000000⟩,
  ⟨0x40020014, 0x1000, 8, 0x1000, 1, 0x0000FFFF, 0x0000FFFF, 0x00000000, 0x00000000, 0x00000000, 0x00000000⟩,
  ⟨0x40020100, 0x4, 16, 0x4, 1, 0x000000FF, 0x00000000, 0x00000000, 0x00000000, 0xFFFFFFFF, 0x00000000⟩,
  ⟨0x40010008, 0x4, 1, 0x4, 1, 0x00000087, 0x000007FE, 0x00000000, 0x00000000, 0x00000000, 0x00000000⟩,
  ⟨0x4001000C, 0x4, 1, 0x4, 1, 0x00000087, 0x00000000, 0x00000000, 0x00000000, 0x000007FF, 0x00000000⟩,
  ⟨0x40010010, 0x4, 1, 0x4, 1, 0x00004015, 0x00000000, 0x00000000, 0x00000000, 0x00000000, 0x00000000⟩,
  ⟨0x40010014, 0x4, 1, 0x4, 1, 0x0000FF00, 0x0000FE03, 0x00000000, 0x00000000, 0x00000000, 0x00000000⟩,
  ⟨0x40010018, 0x4, 1, 0x4, 1, 0x03E83C00, 0xFFFFFF1F, 0x00000000, 0x00000000, 0x00000000, 0x00000000⟩,
  ⟨0x4001001C, 0x4, 1, 0x4, 1, 0x00020601, 0x0003FFFF, 0x00000000, 0x00000000, 0x00000000, 0x00000000⟩,
  ⟨0x40010024, 0x4, 1, 0x4, 1, 0x1F000000, 0x00000000, 0x0003FFFF, 0x00000000, 0x00000000, 0x00000000⟩,
  ⟨0x40010034, 0x4, 1, 0x4, 1, 0x00000BB8, 0x00000000, 0x00000000, 0x00000000, 0x0000FFFF, 0x00000000⟩,
  ⟨0x40010044, 0x4, 1, 0x4, 1, 0x00000400, 0x00000000, 0x00000000, 0x00000000, 0x00000000, 0x00000000⟩,
  ⟨0x40180000, 0x100, 2, 0x100, 1, 0x05F20018, 0x0FFF001F, 0x00000000, 0x00000000, 0x00000000, 0x00000000⟩,
  ⟨0x40180010, 0x100, 2, 0x100, 1, 0x00000A04, 0x0000FFFF, 0x00000000, 0x00000000, 0x00000000, 0x00000000⟩,
  ⟨0x40181008, 0x4, 1, 0x4, 1, 0x012C0002, 0xFFFF0003, 0x00000000, 0x00000000, 0x00000000, 0x00000000⟩,
  ⟨0x40181010, 0x4, 3, 0x4, 1, 0x00000001, 0x00017FFF, 0x00000000, 0x00000000, 0x00000000, 0x00000000⟩,
  ⟨0x4018101C, 0x4, 1, 0x4, 1, 0x0000FA50, 0x0000FFFF, 0x00000000, 0x00000000, 0x00000000, 0x00000000⟩,
  ⟨0x40181080, 0x4, 1, 0x4, 1, 0x00000500, 0xFFFFFF03, 0x00000000, 0x00000000, 0x00000000, 0x00000000⟩,
  ⟨0x40181084, 0x4, 1, 0x4, 1, 0x20202020, 0xFFFFFFFF, 0x00000000, 0x00000000, 0x00000000, 0x00000000⟩,
  ⟨0x40181088, 0x4, 1, 0x4, 1, 0x00000200, 0x00000000, 0x00000000, 0x00000000, 0x00000000, 0x00000000⟩,
  ⟨0x40030000, 0x1000, 8, 0x1000, 1, 0x64000140, 0xFF00FF7F, 0x00000000, 0x00000000, 0x00000000, 0x00000000⟩,
  ⟨0x40040000, 0x1000, 4, 0x1000, 1, 0x00D90002, 0xFFFF001F, 0x00000000, 0x00000000, 0x00000000, 0x00000000⟩,
  ⟨0x40040008, 0x1000, 4, 0x1000, 1, 0x80000000, 0x00000000, 0x00000000, 0x00000000, 0x00000000, 0x000003FF⟩,
  ⟨0x4004000C, 0x1000, 4, 0x1000, 1, 0x00010000, 0x00000000, 0x00000000, 0x00000000, 0x00000000, 0x00000000⟩,
  ⟨0x40040018, 0x1000, 4, 0x1000, 1, 0x00001020, 0x00003F3F, 0x00000000, 0x00000000, 0x00000000, 0x00000000⟩,
  ⟨0x40046044, 0x4, 1, 0x4, 1, 0x03E80000, 0xFFFF010F, 0x00000000, 0x00000000, 0x00000000, 0x00000000⟩,
  ⟨0x401F0000, 0x4, 1, 0x4, 1, 0x0000000A, 0x00000000, 0x00000000, 0x00000000, 0x00000000, 0x00000000⟩,
  ⟨0x401F0004, 0x4, 1, 0x4, 1, 0x00000001, 0x00000001, 0x00000000, 0x00000000, 0x00000000, 0x00000000⟩,
  ⟨0x401F0010, 0x4, 1, 0x4, 1, 0x02581800, 0x00000000, 0x00000000, 0x00000000, 0xFFFFF800, 0x00000000⟩]

/-- The reset value of the register at `a`: the value of its table, and 0 elsewhere. SLV_ASSIGN holds the physical
sleeve of its own number and its kind (Table 04-9), TXP_CONFIG.CAP the band's own cap (Table 03-19). -/
def regReset (a : Nat) : Word :=
  if 0x400A0000 ≤ a ∧ a < 0x400A8000 ∧ (a - 0x400A0000) % 0x400 = 0 then
    let n := (a - 0x400A0000) / 0x400
    BitVec.ofNat 32 (n * 0x100 + if 24 ≤ n then 0x4000 else 0)
  else if a = 0x400C0000 then 0x0000A000
  else if a = 0x400C1000 then 0x00007800
  else match resetRows.find? (·.has a) with
    | some r => BitVec.ofNat 32 r.rst
    | none => 0

/-- The bits of the register at `a` that a plain write sets: `CSP_CFG.ROLE` only on CSP0 and CSP1, `I2C_CFG.SEG` only on
I2C0 (chapter 12, rules R455 and R464), WR of the message rings only for rings 3 to 5 and RD only outside them. -/
def rwMask (r : RegRow) (a : Nat) : Nat :=
  if r.base = CSP_CFG 0 ∧ CSP_CFG 2 ≤ a then r.rw &&& 0xFFFFFFFD
  else if a = I2C_CFG 1 then r.rw &&& 0xFFFFFFCF
  else if r.base = ML_RING_WR 0 ∧ ¬ (ML_RING_WR 3 ≤ a ∧ a ≤ ML_RING_WR 5) then 0
  else if r.base = ML_RING_RD 0 ∧ (ML_RING_RD 3 ≤ a ∧ a ≤ ML_RING_RD 5) then 0
  else r.rw

end Sys2Proof.Machine
end

