-- ==== Sys2Proof/Machine/SMap.lean ====
section
/-!
DEFINITION. Sparse maps: a list of key and value pairs in one canonical form, keys strictly rising and no entry equal to
the default of its key. Registers, memory, check bytes and every per-instance record of State are held so; `d k` is what
an unlisted key `k` reads as.
-/

namespace Sys2Proof.Machine

/-- What key `k` reads as. -/
def mapGet {α : Type} (d : Nat → α) : List (Nat × α) → Nat → α
  | [], k => d k
  | (j, v) :: r, k => if j = k then v else mapGet d r k

/-- `m` without key `k`. -/
def mapErase {α : Type} : List (Nat × α) → Nat → List (Nat × α)
  | [], _ => []
  | (j, v) :: r, k => if j = k then mapErase r k else (j, v) :: mapErase r k

/-- `m` with `k` listed as `v`, in key order. -/
def mapInsert {α : Type} : List (Nat × α) → Nat → α → List (Nat × α)
  | [], k, v => [(k, v)]
  | (j, w) :: r, k, v =>
    if k < j then (k, v) :: (j, w) :: r
    else if j = k then (k, v) :: r
    else (j, w) :: mapInsert r k v

/-- `m` with `k` reading as `v`: the entry goes where `v` is the default. -/
def mapPut {α : Type} [DecidableEq α] (d : Nat → α) (m : List (Nat × α)) (k : Nat) (v : α) : List (Nat × α) :=
  if v = d k then mapErase m k else mapInsert m k v

/-- The canonical form: keys strictly rising, no entry equal to its default. -/
def mapWf {α : Type} [DecidableEq α] (d : Nat → α) : List (Nat × α) → Bool
  | [] => true
  | [(k, v)] => v != d k
  | (k, v) :: (j, w) :: r => v != d k && decide (k < j) && mapWf d ((j, w) :: r)

end Sys2Proof.Machine
end

