-- ==== Sys2Proof/Syntax.lean ====
section
/-!
DEFINITION. The commands of the block: one constructor per row of spec/opcode_table.json, with the operands a sender gives.
A measured operand (a level, a time stamp, received octets) is data from outside the model.
-/

namespace Sys2Proof

open Sys2Proof.Machine

/-- The commands of the KZG-1224: what reaches it from its board, its engines' firmware, its host, the air and its own
clocks, under the names of spec/opcode_table.json and in its order, the commands without operands last. -/
inductive Instr where
  /-- R18: An initiator's read or write burst reaches a fabric target port, is granted, checked against routes and the weave code, and completes with a status. -/
  | memoryAccess (port : Fin 15) (arrivals : List Burst)
  /-- R58: A write to a register without behaviour of its own sets its RW fields, clears W1C bits and is refused when it would change an ST field. `same` names the event bits that the commands before it set in the same bus-clock cycle (R6). -/
  | registerWrite (ini : Ini) (a : BitVec 32) (v same : Word)
  /-- R7: A read of a read-to-clear counter returns its count and sets it to 0. -/
  | rsCounterRead (ini : Ini) (a : BitVec 32)
  /-- R59: A read of STR_LOCK_LOG returns the count and first refusal, sets COUNT to 0 and frees STR_LOCK_ADDR. -/
  | strLockLogRead (ini : Ini)
  /-- R188: A read of TREF_TIME_LO, TREF_PPS_CAP_LO or SE_ASN_LO returns the low bits and latches the high bits into the HI register. -/
  | latchingLoRead (ini : Ini) (r : LoReg)
  /-- R397: VIN has stayed at or above 2.10 V for 300 µs and the reset is released, starting the boot. -/
  | resetRelease (strap : Bool)
  /-- R54: A write of 0x434F_4E46 to STR_CONFIRM makes the loader program the CONFIRMED page and apply RAISE_FLOOR and REVOKE_OTHER_KEY. -/
  | strConfirm (ini : Ini) (key : Word)
  /-- R60: STR_CMD operation 1 verifies the named slot and arms it, as a code-only arm or with a presence window. -/
  | strArm (ini : Ini) (slot : Bool)
  /-- R62: STR_CMD operation 2 verifies the named slot and, after presence, commits warm-changeable sections at a slot boundary. -/
  | strWarmRestructure (ini : Ini) (slot : Bool)
  /-- R63: STR_CMD operation 3 verifies the named or AUTO-chosen slot and, after presence, stops all units outside PD0, PD2 and M7 and reruns the boot. -/
  | strFullRestructure (ini : Ini) (slot auto : Bool)
  /-- R385: STR_CMD operation 4, after presence, sets dmstatus.authenticated until the next reset. -/
  | strUnlockDebug (ini : Ini)
  /-- R293: STR_CMD operation 5, after presence, scrubs the pockets, erases both slots and restarts the device in loader state. -/
  | strFactoryReset (ini : Ini)
  /-- R293: STR_CMD operation 6, after presence, applies ERASE_NOW to all 64 pockets and erases both journal blocks. -/
  | strEraseAllPockets (ini : Ini)
  /-- R68: Each millisecond the mantle drives SEAL_A with a new pattern and compares SEAL_B. -/
  | sealCheck (same : Bool)
  /-- R78: At the end of each 2 µs block the governor steps the chain down on a high peak or up after UP_HOLD_US of low peaks, unless deferred by a frame. -/
  | gainBlock (b : Fin 2) (c : Fin 2) (peak : Int)
  /-- R80: A full-scale sample steps the chain down at once, flags GAIN_STEP_IN_FRAME and counts the clip. -/
  | gainClip (b : Fin 2) (c : Fin 2)
  /-- R74: A write to RFx_NARROW, by firmware or the slot engine, starts a narrow hop or is deferred. -/
  | narrowHop (ini : Ini) (b : Fin 2) (khz : BitVec 24)
  /-- R74: A narrow hop deferred during a hop, transmission or calibration starts when the band leaves that state. -/
  | deferredHopStart (b : Fin 2)
  /-- R73: The synthesiser locks after a retune, sets RETUNE_DONE and the band leaves RETUNE. -/
  | retuneLock (b : Fin 2)
  /-- R109: A locked synthesiser loses lock, ending frames with SYNTH_UNLOCK, cutting a frame on air and starting a relock. -/
  | synthUnlock (b : Fin 2) (sent : BitVec 11)
  /-- R94: At t_s − 32 µs the path checks WARN, lock, calibration, narrow window, read-ahead and CCA, and either refuses the start or asserts the band blank. -/
  | txDecisionPoint (p : Fin 2) (die : Int) (energy : Int) (seen : CcaSeen) (ring : RingRead)
  /-- R95: The first symbol reaches the aerial pad at t_s. -/
  | txFirstSymbol (p : Fin 2)
  /-- R90: At an 8 µs point of a frame at +10 dBm or more, return loss below FOLD_RL reduces power by 6 dB for the rest of the frame. -/
  | vswrFoldback (p : Fin 2) (rl : BitVec 8)
  /-- R96: The last symbol ends, the path measures return loss, may retire the aerial, writes the completion report and starts the turn to receive. -/
  | txFrameEnd (p : Fin 2) (rl : BitVec 8) (fwd : BitVec 8)
  /-- R174: A buffer unit read after the first symbol fails and the frame is cut with the read's status and CUT. -/
  | txReadFailCut (p : Fin 2) (sent : BitVec 11) (unit : BitVec 8)
  /-- R96: 20 µs after the last symbol or cut, the band blank is released and the band returns to LISTEN, IDLE or DISABLED. -/
  | turnRxDone (b : Fin 2)
  /-- R171: A write of TXP_CONFIG.ENABLE = 0 completes every accepted command before its decision point with NOT_READY. -/
  | txpDisable (ini : Ini) (p : Fin 2) (v : Word)
  /-- R102: A write of RFx_CAL_REQ queues a calibration item with a deadline or refuses it. -/
  | calRequest (ini : Ini) (b : Fin 2) (deadline : BitVec 16) (item : Fin 16)
  /-- R105: A pending calibration item starts once its chain or slot gap exists. -/
  | calItemStart (b : Fin 2) (item : Fin 8)
  /-- R105: A calibration item completes and reports OK in RFx_CAL_STATUS. -/
  | calItemDone (b : Fin 2)
  /-- R105: A pending item's deadline passes without a gap and CAL_DEFERRED is reported. -/
  | calDeadline (b : Fin 2) (item : Fin 8)
  /-- R101: Die temperature moves by RECAL_DELTA and items 1 to 6 are queued with no deadline. -/
  | recalDue (b : Fin 2) (die : BitVec 8)
  /-- R100: Start-up calibration of a band completes and the band retunes to its first channel. -/
  | startCalDone (b : Fin 2)
  /-- R107: A band with valid saved calibration finishes RESTORE and retunes to its saved LO frequency. -/
  | bandRestoreDone (b : Fin 2)
  /-- R118: A sleeve branch detects a preamble and the sleeve enters ACQUIRE. -/
  | preambleDetect (n : Fin 32) (branch : Fin 2) (ts : BitVec 48)
  /-- R120: At the decision point the sleeve chooses the branch with the better SNR estimate. -/
  | diversityDecision (n : Fin 32) (snrA snrB : Int)
  /-- R121: The sleeve finds the sync word, SFD or LTF peak, stamps TS_REF and starts reading the header. -/
  | syncMatch (n : Fin 32) (branch : Fin 2) (seen : SyncSeen) (ts : BitVec 48) (m : SyncMeas)
  /-- R129: The sync point is not found within its waiting time and the reception fails before payload. -/
  | syncTimeout (n : Fin 32) (ring : RingRead)
  /-- R128: The lining finds a stronger complete sync and the sleeve abandons the frame and restarts in HEADER on the new one. -/
  | liningFire (n : Fin 32) (branch : Fin 2) (seen : SyncSeen) (before : Nat) (det ts : BitVec 48) (m : SyncMeas) (stronger : Nat)
  /-- R134: The PHR is received whole and checked; on a pass the sleeve stages the MHR, routes, reserves a report entry and requests a descriptor. -/
  | headerDone (n : Fin 32) (phr : List Byte) (tail : Bool) (staged : List Byte) (ring : RingRead)
  /-- R131: A re-search read point reaches live samples and the sleeve continues in real time. -/
  | researchReachLive (n : Fin 32)
  /-- R137: The PSDU ends or the frame is ended by abort, unlock, blank or lost samples, and the sleeve checks the FCS and writes its report. -/
  | sleeveFrameEnd (n : Fin 32) (e : RxEnd) (psdu : List Byte) (m : EndMeas)
  /-- R114: A write to SLV_CHAN changes the sleeve's channel within 2 µs, is deferred during a frame, or is refused with CHAN_OUTSIDE. -/
  | slvChanWrite (ini : Ini) (n : Fin 32) (v : Word)
  /-- R115: All deferred sleeve writes take effect together when the sleeve leaves its frame. -/
  | slvDeferredApply (n : Fin 32)
  /-- R142: A write to SLV_RQ_SIZE_k enables a ring and resets WR and RD, starts turning it off, or is ignored. -/
  | reportRingSizeWrite (ini : Ini) (k : Fin 6) (v : Word)
  /-- R142: A ring being turned off turns off once every reserved entry has been written. -/
  | reportRingOff (k : Fin 6)
  /-- R213: At the window start the slot engine arms an assignment for a link, naming the link engine. -/
  | sleeveArm (w : ArmFor)
  /-- R117: At the window end the slot engine disarms the sleeve, leaving a frame in progress to run on. -/
  | sleeveDisarm (n : Fin 32)
  /-- R144: A sleeve holds a state longer than its limit and the fault is charged to the physical sleeve. -/
  | sleeveStateTimeout (n : Fin 32) (buffer : Bool)
  /-- R144: A restart in place ends and the assignment enters SEARCH or IDLE. -/
  | sleeveRestartDone (n : Fin 32)
  /-- R147: A spare's self-test ends; on a pass it searches on the next assignment's channel, on a fail it is charged. -/
  | sleeveSelftestDone (p : Fin 32) (pass : Bool)
  /-- R147: When the carrying sleeve is not inside a frame the roles swap and the relieved sleeve becomes the spare. -/
  | sleeveRotationSwap (p : Fin 32)
  /-- R147: No swap moment comes within 10 s and the assignment is passed over until the next rotation. -/
  | sleeveRotationTimeout (p : Fin 32)
  /-- R182: A write to TXP_CQ_SIZE_k enables a ring and resets WR and RD, starts turning it off, or is ignored. -/
  | completionRingSizeWrite (ini : Ini) (p : Fin 2) (k : Fin 6) (v : Word)
  /-- R182: A completion ring being turned off turns off once every reserved report has been written. -/
  | completionRingOff (p : Fin 2) (k : Fin 6)
  /-- R187: After 4,096 slow-clock ticks the mantle updates TREF_SLOW_INC from the reference-driven count. -/
  | slowIncMeasure (counts : BitVec 23)
  /-- R189: A mode-1 gate of 10,000,000 TREF_CLK_IN cycles completes and RATE_ADJ is corrected or held. -/
  | trefGate (counts : BitVec 24)
  /-- R191: A write to TREF_PHASE_ADJ sets or replaces the phase correction to be slewed. -/
  | trefPhaseAdjWrite (ini : Ini) (v : Word)
  /-- R192: A write to TREF_STEP adds its value to the timebase, or is refused with BUSY while the slot engine runs. -/
  | trefStep (ini : Ini) (v : Word)
  /-- R193: A TREF_PPS_IN edge captures the timebase and its fraction. -/
  | ppsInEdge (rising : Bool) (frac : Fin 25)
  /-- R197: A write of SE_CTRL.RUN starts the slot engine on the anchored grid, or stops it. -/
  | seRun (ini : Ini) (v : Word)
  /-- R218: The slot engine sends a preparation event to a link engine PREP_LEAD plus advance before a slot with work. -/
  | prepEvent (k : Fin 6) (asn : BitVec 40) (plans : List PrepPlan) (upset : Bool)
  /-- R224: A link engine completes preparation of a slot and the slot engine adjusts the catch-up advance. -/
  | prepDone (k : Fin 6)
  /-- R218: At t_s − 100 µs the slot engine reads and clears NEXT_ENTRY, checks the ledger and issues the start command. -/
  | nextEntryFetch (sf : Fin 8) (i : BitVec 11)
  /-- R223: The link engine reads a completion report, corrects the ledger charge and completes or keeps the queue entry. -/
  | txCompletionProcess (p : Fin 2) (k : Fin 6)
  /-- R215: The acknowledgement window t_ack ± ACK_GUARD closes without an acknowledgement. -/
  | ackWindowEnd (k : Fin 6)
  /-- R230: An expected exchange ends without a sync, raising MISSES and escalating the hem, marking quiet, removing the partner or declaring the parent lost. -/
  | expectedExchangeMiss (p : BitVec 12)
  /-- R225: A link engine tick falls due and starts under the catch-up arithmetic. -/
  | leTick (k : Fin 6)
  /-- R234: The released spare link engine is ready 300 µs after release. -/
  | leSpareReady (k : Fin 6)
  /-- R236: A link engine restarted in place returns to service with its SRAM reloaded. -/
  | leRestartDone (k : Fin 6)
  /-- R237: The spare link engine's self-test ends in a pass or a charged failure. -/
  | leSelftestDone (pass : Bool)
  /-- R242: PT_CMD ADD scrubs an entry, writes it from the arguments, sets VALID and indexes its keys. -/
  | ptAdd (ini : Ini)
  /-- R242: PT_CMD UPDATE rewrites the addressing and policy fields and reindexes the keys as one step. -/
  | ptUpdate (ini : Ini)
  /-- R243: PT_CMD DELETE completes the partner's queue, waits for its cipher request, removes its keys and scrubs the entry. -/
  | ptDelete (ini : Ini)
  /-- R242: PT_CMD REENTER clears REMOVED, QUIET and MISSES. -/
  | ptReenter (ini : Ini)
  /-- R242: PT_CMD LOOKUP looks up a key and writes the index found to PT_INDEX. -/
  | ptLookup (ini : Ini)
  /-- R246: A link engine takes a receive report in ring order, classifies the frame and issues a cipher request or drops it. -/
  | rxReportProcess (k : Fin 6) (req : BitVec 32) (upset : Bool)
  /-- R249: The link engine acts on a frame's verdict: drops it, re-acknowledges a duplicate, or accepts it and passes it on. -/
  | rxVerdict (k : Fin 6) (p : BitVec 12) (preamble : BitVec 10) (ack : Option AckPlan) (frags : List FragPlan)
  /-- R255: A context not complete within TIMEOUT_100MS is closed and its descriptors freed. -/
  | reassemblyTimeout (p : BitVec 12) (origin : BitVec 16) (kind : Fin 16) (txn : BitVec 16)
  /-- R276: The message layer reads a submission descriptor, checks it and fragments the message onto the next hop's queue. -/
  | submission (sub : Fin 3) (frags : List FragPlan)
  /-- R276: A held submission is read once a transaction slot is free or its NOT_BEFORE_ASN is reached. -/
  | submissionRelease (sub : Fin 3) (frags : List FragPlan)
  /-- R264: A transaction's timeout passes without an answer and the message is resent or completed with NO_ACK. -/
  | txnTimeout (txn : BitVec 16) (frags : List FragPlan)
  /-- R264: After a kind 4 back-off has passed the message is sent again with the same id. -/
  | txnResend (txn : BitVec 16) (frags : List FragPlan)
  /-- R278: A completion held for a full ring is written once the ring has a free entry. -/
  | mlCompletionRelease (sub : Fin 3)
  /-- R273: A write to ML_DESC_FREE returns a delivered chain to the pool, or sets BAD_FREE. -/
  | descFree (ini : Ini) (v : Word)
  /-- R281: A write of ML_CFG.ENABLE starts or stops the message layer, afresh when its tables were rewritten. -/
  | mlEnable (ini : Ini) (v : Word)
  /-- R301: A write to CE_SUB_ADDR_r submits a request, which is checked and queued or refused. -/
  | ceSubmit (ini : Ini) (r : Fin 10) (a : BitVec 32) (upset : Bool)
  /-- R305: A free cipher engine takes the next eligible request, binding its counter value for CCM_ENC. -/
  | ceRequestStart (e : Fin 2) (upset : Bool)
  /-- R309: In streamed delivery the last plaintext octet is in OUT and STATUS NOT_READY is written. -/
  | ceStreamOutput (e : Fin 2)
  /-- R307: A request completes with its verdict or status, counts in CE_DONE_r and may let an old generation be scrubbed. -/
  | ceRequestDone (e : Fin 2)
  /-- R511: A cipher engine access to request memory fails and the request stops with that status. -/
  | ceAccessFail (e : Fin 2)
  /-- R324: A cipher engine faults during a request, which is rerun on the next free engine. -/
  | ceEngineFault (e : Fin 2)
  /-- R325: Every CE_ROT.PERIOD_S Sarnis powers the spare cipher engine and runs its known-answer tests. -/
  | ceRotationTest (pass : Bool)
  /-- R290: PCK_CMD WRITE_WRAPPED unwraps a blob under a KEK into a new generation. -/
  | pocketWriteWrapped (ini : Ini)
  /-- R290: PCK_CMD WRITE_CLEAR reads a clear key into a new generation and scrubs the source. -/
  | pocketWriteClear (ini : Ini)
  /-- R290: PCK_CMD GENERATE draws a key from the DRBG into a new generation. -/
  | pocketGenerate (ini : Ini)
  /-- R282: PCK_CMD EXPORT wraps the current generation under a KEK to memory. -/
  | pocketExport (ini : Ini)
  /-- R291: PCK_CMD ERASE moves the pocket to ERASING until its bound requests complete. -/
  | pocketErase (ini : Ini)
  /-- R291: When both generations of an erasing pocket are gone, the counter is scrubbed and the pocket becomes EMPTY. -/
  | pocketEraseComplete (n : Fin 64)
  /-- R292: PCK_CMD ERASE_NOW aborts every bound request, scrubs their outputs and the pocket. -/
  | pocketEraseNow (ini : Ini)
  /-- R319: A health test fails, samples are discarded and the start-up test reruns, reaching FAILED after three. -/
  | entropyTestFail (apt : Bool)
  /-- R320: The DRBG reseeds after 65,536 requests, 10 s or a PD2 power-up. -/
  | drbgReseed (samples : BitVec 1536)
  /-- R318: At PD2 power-up 1,024 samples pass the health tests before output is used. -/
  | entropyStartupTest (samples : BitVec 1024)
  /-- R321: A read of PCK_RANDOM consumes 32 DRBG bits, or returns 0 with NOT_READY. -/
  | pckRandomRead (ini : Ini)
  /-- R310: A read of PCK_FAILS returns both fail counts of the selected pocket and sets them to 0. -/
  | pckFailsRead (ini : Ini)
  /-- R339: A write to WV_RETIRE_CMD retires the line containing the address. -/
  | wvRetireCmd (ini : Ini) (a : BitVec 32)
  /-- R343: A write to WV_TEST_KEY enables or disables test mode. -/
  | wvTestKey (ini : Ini) (key : Word)
  /-- R343: WV_TEST_CMD WRITE_RAW writes data and check bytes unchanged into frame memory. -/
  | writeRaw (ini : Ini)
  /-- R343: WV_TEST_CMD READ_RAW reads stored data and check bytes with syndromes and outcome. -/
  | readRaw (ini : Ini)
  /-- R346: A powered-up segment, TCM or link-engine SRAM finishes its self-scrub and becomes ready. -/
  | segmentScrubDone (m : ScrubMem)
  /-- R350: FLC_CMD PROGRAM checks and accepts or refuses a page program. -/
  | flashProgram (a : Fin 2) (ini : Ini) (raw : Bool)
  /-- R350: FLC_CMD ERASE checks and accepts or refuses a block erase. -/
  | flashErase (a : Fin 2) (ini : Ini)
  /-- R350: FLC_CMD BLANK_CHECK checks whether a page is all ones. -/
  | blankCheck (a : Fin 2) (ini : Ini)
  /-- R354: FLC_CMD MARGIN_PGM reads a page at the program-margin reference. -/
  | marginPgm (a : Fin 2) (ini : Ini)
  /-- R354: FLC_CMD MARGIN_ERS reads a page at the erase-margin reference. -/
  | marginErs (a : Fin 2) (ini : Ini)
  /-- R358: FLC_CMD RETIRE replaces a logical block with the lowest free spare, keeping its contents. -/
  | flashRetire (a : Fin 2) (ini : Ini)
  /-- R352: A page program verifies or fails after 16 pulses, setting the pointer and possibly starting retirement. -/
  | flashProgramDone (a : Fin 2) (pulses : Fin 17) (ok : Bool)
  /-- R352: A block erase verifies and records its count, or fails after 32 pulses. -/
  | flashEraseDone (a : Fin 2) (pulses : Fin 33) (ok : Bool)
  /-- R354: A blank check or margin read completes with its result. -/
  | flashCheckDone (a : Fin 2) (shifted : List (Fin 64 × Unit8))
  /-- R358: A block retirement finishes its copy and updates the remap. -/
  | retireCopyDone (a : Fin 2)
  /-- R355: A SUSPEND write suspends a running erase within 50 µs or reports why not. -/
  | flashSuspend (a : Fin 2) (ini : Ini) (verified : Bool)
  /-- R355: A RESUME write resumes a suspended erase, or is deferred or refused. -/
  | flashResume (a : Fin 2) (ini : Ini)
  /-- R367: The comparator finds a difference, halts both cores and charges the physical pair. -/
  | lockstepMismatch (x : Fin 2)
  /-- R373: The standby's self-test ends, setting ROTATE_DUE or SELFTEST_FAIL. -/
  | pairSelftestDone (pass : Bool)
  /-- R373: A write of HANDOVER by the role-P pair while ROTATE_DUE swaps the pairs. -/
  | pairHandover (ini : Ini)
  /-- R378: A write to SYS_ICLOCK_SIZE_x starts loading and locking flash lines, or unlocks them. -/
  | icacheLock (ini : Ini) (x : Fin 2) (v : Word)
  /-- R378: The locked lines finish loading and FILLING clears. -/
  | icacheLockDone (x : Fin 2)
  /-- R379: A read of the claim register returns and claims the highest-priority pending source. -/
  | plicClaim (ini : Ini)
  /-- R379: A write to the claim and complete register completes a claimed source. -/
  | plicComplete (ini : Ini) (id : Word)
  /-- R380: A write to SYS_MBOX by one pair sets MBOX and raises source 77 at the other. -/
  | mailboxWrite (ini : Ini) (v : Word)
  /-- R380: A read of SYS_MBOX by the receiving pair clears MBOX. -/
  | mailboxRead (ini : Ini)
  /-- R381: A write of the key to SYS_WDT_KICK_x by the role's pair restarts its watchdog. -/
  | wdtKick (ini : Ini) (x : Fin 2) (key : Word)
  /-- R381: The watchdog reaches WARN_MS before expiry and raises source 78. -/
  | wdtWarn (x : Fin 2)
  /-- R382: A role watchdog expires, resetting an image on trial or charging the pair. -/
  | wdtExpire (x : Fin 2)
  /-- R383: A link engine, mantle controller or Sarnis watchdog expires and the engine is restarted and charged. -/
  | engineWdtExpire (e : WdtEngine)
  /-- R385: A JTAG DMI access reaches the Debug Module, ignored until debug is unlocked. -/
  | debugDmiAccess (write : Bool) (a : BitVec 7) (v : Word)
  /-- R387: A timer counter reaching RELOAD wraps to 0, applying preloaded values and pulsing trigger lines. -/
  | gtWrap (k : Fin 8)
  /-- R390: A compare channel matches and drives its output. -/
  | gtCompareMatch (k : Fin 8) (c : Fin 4)
  /-- R391: A filtered edge captures the counter into VAL or the holding stage. -/
  | gtCapture (k : Fin 8) (c : Fin 4) (rising : Bool) (ticks : BitVec 48)
  /-- R388: A write to GT_RELOAD_LO commits the 48-bit reload, at once or at the next wrap. -/
  | gtReloadCommit (ini : Ini) (k : Fin 8) (v : Word) (ticks : BitVec 48)
  /-- R387: A write to GT_CNT_LO with EN 0 commits the counter, or is ignored with WRITE_IGNORED. -/
  | gtCntWrite (ini : Ini) (k : Fin 8) (v : Word)
  /-- R390: A write to GT_VAL_LO commits a compare value. -/
  | gtValWrite (ini : Ini) (k : Fin 8) (c : Fin 4) (v : Word)
  /-- R389: A read of GT_CNT_LO or GT_VAL_LO returns the low bits, latches the high bits and begins a capture read. -/
  | gtLoRead (ini : Ini) (k : Fin 8) (c : Option (Fin 4)) (ticks : BitVec 48)
  /-- R392: A read of GT_VAL_HI returns the latch and completes a capture read. -/
  | gtValHiRead (ini : Ini) (k : Fin 8) (c : Fin 4)
  /-- R392: 64 bus cycles after a LO read the capture read completes and a held value moves into VAL. -/
  | gtCaptureReadTimeout (k : Fin 8) (c : Fin 4)
  /-- R401: A write to MNT_DOMAIN powers domains on or off, or is refused. -/
  | domainRequest (ini : Ini) (v : Word)
  /-- R405: MNT_ENTER target 0 cancels a pending entry with ENTRY_ABORTED. -/
  | enterRun (ini : Ini)
  /-- R402: MNT_ENTER target 1 stops the pairs' clocks. -/
  | enterDoze (ini : Ini)
  /-- R403: MNT_ENTER target 2 accepts, defers or refuses an entry to SLEEP. -/
  | enterSleep (ini : Ini)
  /-- R403: MNT_ENTER target 3 accepts, defers or refuses an entry to SNIFF. -/
  | enterSniff (ini : Ini)
  /-- R403: MNT_ENTER target 4 accepts, defers or refuses an entry to HIBERNATE. -/
  | enterHibernate (ini : Ini)
  /-- R407: At the second slow-clock edge after commit the wake detectors are armed. -/
  | wakeArm (levels : BitVec 18)
  /-- R418: An enabled wake source becomes active, aborting an entry or starting a wake. -/
  | wakeSource (src : Fin 18)
  /-- R426: A write of MNT_LADDER.RETRY_XTAL makes one oscillator attempt in limp state. -/
  | retryXtal (ini : Ini) (ready : Bool)
  /-- R415: A write to MNT_SEAM.RELEASE releases seam hold on a bank after HIBERNATE. -/
  | seamRelease (ini : Ini) (mask : BitVec 8)
  /-- R428: VIN falls below WARN_MV, raising WARN, cutting frames before their first symbol and suspending erases. -/
  | supplyWarn (verified : BitVec 2)
  /-- R427: Every 100 µs in RUN the mantle measures VIN and applies or releases the supply cap. -/
  | vinMeasure (mv : BitVec 16)
  /-- R431: A frame received on a wired link is checked, classified and forwarded by the switch. -/
  | wlFrameRx (l : Fin 2) (octets : List Byte) (cut : Bool) (ts : BitVec 48) (frac : Fin 25)
  /-- R432: Sync, and auto-negotiation where it ran, held 10 ms bring the link UP. -/
  | linkUp (l : Fin 2) (ability : Option (BitVec 16))
  /-- R433: LOS, sync loss or an AN restart for 1 ms takes the link down, with fallback, flush or dual-homed failover. -/
  | linkDown (l : Fin 2) (cause : LinkLoss)
  /-- R432: Auto-negotiation does not complete within 500 ms and the link returns to SEARCH. -/
  | anTimeout (l : Fin 2)
  /-- R434: Under RATE 2 the search switches rate every 20 ms. -/
  | searchRateSwitch (l : Fin 2)
  /-- R432: MOD_ABS changes and the link enters NO_MODULE or starts its 300 ms settle. -/
  | sfpModuleChange (l : Fin 2) (absent : Bool)
  /-- R432: MOD_ABS has been low for 300 ms and the link enters SEARCH. -/
  | moduleSettled (l : Fin 2)
  /-- R432: TX_FAULT goes high and the link enters FAULT with TX_DISABLE high. -/
  | linkTxFault (l : Fin 2)
  /-- R432: After 100 ms in FAULT TX_DISABLE is released and the link enters SEARCH. -/
  | linkFaultRelease (l : Fin 2)
  /-- R437: A learned address is aged out after AGE_S seconds. -/
  | fdbAgeOut (mac : BitVec 48) (vid : BitVec 12)
  /-- R443: A member's newly up ring port is unblocked after 4 × CHECK_MS without a RING_FLUSH. -/
  | ringPortUnblockTimeout (l : Fin 2)
  /-- R445: A write of FSW_RING.MODE selects the active port for dual-homed mode or leaves it. -/
  | ringModeWrite (ini : Ini) (v : Word)
  /-- R449: A Milxon READ reads COUNT words and returns them with a response. -/
  | milxonRead (src : MxFrom) (count : BitVec 16)
  /-- R449: A Milxon WRITE writes words, or replays a kept response for a repeated TAG. -/
  | milxonWrite (src : MxFrom) (data : List Word)
  /-- R449: A Milxon PING returns SYS_ID, SYS_ROLE, STR_STATUS and STR_SEQ. -/
  | milxonPing (src : MxFrom) (count : Fin 5)
  /-- R458: In loader state IMG_ERASE erases blocks 0 to 7 of a slot after presence. -/
  | imgErase (addr : Word)
  /-- R458: In loader state IMG_PROGRAM programs one page of a slot. -/
  | imgProgram (addr : Word) (data : List Word)
  /-- R455: The host releases CSPn_SEL, ending the slave transaction and recording TORN where a word was cut. -/
  | cspSelRelease (n : Fin 2) (op : Option Byte) (cut : Bool)
  /-- R460: A write of CSP_M_CMD.START moves LEN octets between the port and frame memory. -/
  | cspMasterStart (ini : Ini) (n : Fin 8) (v : Word)
  /-- R460: A master transfer completes and records its result. -/
  | cspMasterDone (n : Fin 8) (data : List Byte)
  /-- R460: RDY stays low beyond RDY_TIMEOUT_US and the master ends the command. -/
  | cspRdyTimeout (n : Fin 8) (data : List Byte)
  /-- R462: A character is received and stored, dropped on overrun, or stored as a break. -/
  | uartRxByte (u : Fin 4) (b : Byte) (framing parity brk : Bool)
  /-- R462: A write to UART_DATA pushes a byte into the transmit FIFO or drops it. -/
  | uartDataWrite (ini : Ini) (u : Fin 4) (v : Word)
  /-- R462: A read of UART_DATA pops a byte with its error flags. -/
  | uartDataRead (ini : Ini) (u : Fin 4)
  /-- R462: Four idle characters pass with data waiting and RX_TIMEOUT is set. -/
  | uartRxTimeout (u : Fin 4)
  /-- R463: DE_LAG bit times after the last stop bit with the FIFO empty, UARTn_DE falls. -/
  | uartDeRelease (u : Fin 4)
  /-- R464: A write of I2C_CMD.START begins a write and optional read transfer. -/
  | i2cStart (ini : Ini) (i : Fin 2) (v : Word)
  /-- R464: An I²C transfer ends with OK, NACK or arbitration lost. -/
  | i2cDone (i : Fin 2) (outcome : I2cEnd) (wdone : Byte) (data : List Byte)
  /-- R464: A slave stretches SCL beyond 25 ms and the transfer ends with I2C_TIMEOUT. -/
  | i2cTimeout (i : Fin 2) (wdone : Byte) (data : List Byte)
  /-- R466: An edge on a GPIO line sets its event bit and raises its interrupt source. -/
  | gpioEdge (l : Fin 32) (rising : Bool)
  /-- R466: A write to GPIO_SET sets bits of GPIO_OUT. -/
  | gpioSet (ini : Ini) (m : Word)
  /-- R466: A write to GPIO_CLR clears bits of GPIO_OUT. -/
  | gpioClr (ini : Ini) (m : Word)
  /-- R466: A write to GPIO_TOGGLE inverts bits of GPIO_OUT. -/
  | gpioToggle (ini : Ini) (m : Word)
  /-- R486: FLT_CMD operation 1 retires a unit with its lasting action, or refuses. -/
  | fltRetire (ini : Ini) (unit : BitVec 8)
  /-- R486: FLT_CMD operation 2 clears LASTING_UNACK. -/
  | fltAckLasting (ini : Ini)
  /-- R93: With SLOT_GATE set, the slot engine gates a band's chains into IDLE between its slots, or ungates them before the next gated slot, the band reaching LISTEN after the 10 µs chain settle. -/
  | slotGateChange (b : Fin 2) (gate : Bool)
  /-- R370: A pair restarted in place is released at the entry of its role after 20 µs, with SYS_PAIR_SELF.CAUSE naming the fault. -/
  | pairRestartDone (x : Fin 2)
  /-- R324: A cipher engine restarted in place after a fault returns to service within 20 µs. -/
  | ceRestartDone (e : Fin 2)
  /-- R323: The known-answer tests run at PD2 power-up end, failing engines are charged and the queue starts accepting requests 40 µs after power-up. -/
  | cePowerupTestDone (pass0 pass1 : Bool)
  /-- R462: A UART finishes sending a character, frees its place in the transmit FIFO, starts the next one and raises TX_THRESH or TX_IDLE. -/
  | uartTxCharSent (u : Fin 4)
  /-- R438: A wired-link egress port finishes sending a queued frame, taking its 1588 timestamp and freeing its buffer space for the next frame in strict priority. -/
  | egressFrameSent (p : Fin 2) (ts : BitVec 48) (frac : Fin 25)
  /-- R397: VIN falls below the reset level and every domain, PD0 included, is reset and the air timebase set to 0. -/
  | powerOnReset
  /-- R48: The CMAC of a candidate image completes, the tag, floor, key and sections are checked, ATTEMPT is programmed and section values are written to ST fields. -/
  | imageCmacDone
  /-- R56: After LE_CODE is copied the loader writes ROUTES, locks the structure registers and releases the pairs and link engines. -/
  | imageLoadLock
  /-- R60: Verification of the image named by an STR_CMD operation completes, giving a loader code or opening a presence window. -/
  | strVerifyDone
  /-- R66: A debounced PRES_BTN press begins; one that began before the window opened does not count. -/
  | presBtnPress
  /-- R65: A press that began in the presence window has been held 2 s, presence is given and the pending action starts. -/
  | presBtnHold
  /-- R65: The 30 s presence window closes without presence and the command is refused with PRESENCE_REQUIRED. -/
  | presenceWindowExpiry
  /-- R62: A verified warm restructure commits all changed values at the next slot boundary. -/
  | warmCommit
  /-- R69: The 10 min maintenance grant after a seal break ends. -/
  | sealGrantExpiry
  /-- R147: Every ROT_PERIOD_S each physical spare starts its self-test. -/
  | sleeveSelftestStart
  /-- R186: The slow clock changes between crystal and RC at a slow-clock edge, the timebase continuing from the accumulator. -/
  | slowSourceHandover
  /-- R190: TREF_CLK_IN shows no edge for 1 µs and the timebase enters holdover. -/
  | trefClkLost
  /-- R191: The phase correction is used up and SLEW_DONE is set. -/
  | slewDone
  /-- R194: TREF_PPS_OUT rises at a count matching PHASE modulo PERIOD. -/
  | ppsOutPulse
  /-- R194: TREF_PPS_OUT falls after WIDTH_US. -/
  | ppsOutWidthEnd
  /-- R198: At B(n) the ASN advances, the source is folded into the anchor and deferred slotframe writes take effect. -/
  | slotBoundary
  /-- R221: Slotframe AGE_SF passes offset 0 and every queue entry ages, promoting those past their limit. -/
  | agingWrap
  /-- R237: Every LE_ROT.PERIOD_S the spare link engine starts its 20 ms self-test. -/
  | leSelftestStart
  /-- R237: When the next active engine is idle with no preparation pending, it swaps with the spare. -/
  | leRotationSwap
  /-- R245: After PD5 was off the partner table control rebuilds the key index and sets INDEX_REBUILT. -/
  | keyIndexRebuild
  /-- R325: After a passed test the spare becomes active when the active engine finishes its request. -/
  | ceRotationSwap
  /-- R319: Every 10 s in FAILED Sarnis retries the start-up test. -/
  | entropyRetry
  /-- R321: Sarnis refills the 512-bit hardware random buffer from the DRBG. -/
  | randomRefill
  /-- R333: Each TICK_US the patrol checks BATCH lines, writing back darns and retiring lines. -/
  | patrolTick
  /-- R373: Every SYS_PAIR_ROT.PERIOD_S the standby starts its 40 ms core self-test. -/
  | pairSelftestStart
  /-- R406: When the deferral ends the mantle holds the engines and copies the save list. -/
  | sleepEntryStart
  /-- R406: At the next slow-clock edge the entry commits, seam hold engages and domains take their dispositions. -/
  | sleepCommit
  /-- R402: A pending enabled interrupt or wake source ends DOZE within 1 µs. -/
  | dozeExit
  /-- R419: The regulators become ready and the 40 MHz oscillator is started. -/
  | regulatorReady
  /-- R424: A regulator is not ready within 500 µs and is retried, or after four attempts the device hibernates. -/
  | regulatorTimeout
  /-- R419: The 40 MHz oscillator is ready and the PLLs are started. -/
  | oscReady
  /-- R424: The oscillator is not ready within 4 ms and is retried at higher drive, or limp state is entered. -/
  | oscTimeout
  /-- R419: The PLLs lock and the timebase passes to the reference at the next slow-clock edge. -/
  | pllLocked
  /-- R424: The PLLs do not lock within 200 µs and the oscillator start is retried. -/
  | pllTimeout
  /-- R419: Domains are powered and restored, LE_CODE reloaded, and the engines and pairs released. -/
  | wakeRelease
  /-- R424: The back-off after a regulator failure expires and a new wake attempt starts. -/
  | ladderRetry
  /-- R422: Every INTERVAL_MS the mantle powers the radio and runs the sniff assignment. -/
  | sniffWindowOpen
  /-- R422: The listen time ends without a sync and the domains return to their SNIFF dispositions. -/
  | sniffWindowClose
  /-- R397: The slow crystal becomes ready and the slow clock moves from the RC. -/
  | slowXtalReady
  /-- R398: The slow crystal is not ready after 2 s, or 60 s have passed, and it is started again on the RC. -/
  | slowXtalTimeout
  /-- R428: VIN has stayed above WARN_MV + 50 mV for 1 ms, WARN clears and suspended erases resume. -/
  | supplyRecovered
  /-- R442: The ring manager sends a RING_CHECK on WL0 every CHECK_MS. -/
  | ringCheckTimer
  /-- R442: No own check arrives for 3 × CHECK_MS and the manager opens the ring. -/
  | ringCheckTimeout
  /-- R448: The switch takes an internal transmit descriptor, checks and sends it, and writes its status and timestamp. -/
  | internalTx
  /-- R454: A rise of a masked GPIO_HOST_EVT bit sends an EVENT to FSW_HOST_MAC. -/
  | milxonEvent
  /-- R454: MIN_GAP_US after an EVENT, bits that rose in the gap are reported. -/
  | milxonEventGapEnd
  /-- R484: Each millisecond with BELOW_MIN set adds to FLT_OUTAGE_MS or FLT_EXCLUDED_MS. -/
  | outageMeterTick
  /-- R484: The 60 s limit of an excluded planned interval expires. -/
  | plannedIntervalEnd
  /-- R397: VIN rises through 2.10 V, the PD0 regulator, bandgap and RC oscillators start and the 300 µs reset-release count begins or restarts. -/
  | supplyRise
  /-- R428: VIN rises back above WARN_MV + 50 mV while WARN is active, RECOVERING is set and the 1 ms recovery count starts. -/
  | recoveringStart
  /-- R190: The first TREF_CLK_IN edge after a loss sets CLK_PRESENT and starts a new mode-1 gate. -/
  | trefClkRestored
  /-- R383: Sarnis, restarted from boot ROM after its watchdog expired, returns to service within 2 ms. -/
  | sarnisRestartDone
deriving DecidableEq, Repr

end Sys2Proof
end

