-- ==== Sys2Proof/Machine/State.lean ====
section
/-!
DEFINITION. The state of the KZG-1224: every register, memory, ring, queue and unit the spec names, as plain data, and the
state right after reset. Fields that a register of Machine/Regs.lean shows live in the register file; the structures here
hold the rest. A comment after a field names its rule, its width and what it is.
-/

namespace Sys2Proof.Machine

/-! ### The fabric and accesses (chapter 01) -/

/-- The answer to the last access made through the fabric or a register window: what the requester received. -/
structure Resp where
  ini : Nat              -- R28; 5; initiator the answer went to
  addr : Nat             -- R29; 32; address accessed
  status : Status        -- R9; 8; status the access completed with
  data : List Byte       -- R24; 0 to 256 bytes; data read
  fault : Bool           -- R24, R28, R29; 1; the requesting core takes an access fault
deriving DecidableEq, Repr

/-- The fabric's target ports. -/
structure Fabric where
  waiting : List Burst         -- R19, R20; list; bursts waiting for a grant, oldest first, with the cycles waited
  last : List (Nat × Nat)      -- R19; 14 ports x 5 classes x 5; initiator granted last, key port x 8 + class
deriving DecidableEq, Repr

/-! ### Time (chapter 06) -/

/-- The air timebase and its references. -/
structure Timebase where
  count : Nat            -- R184; 48; the air timebase, 125 ns units
  acc : Nat              -- R186; 22; accumulator below one count, 2^-22 units
  onSlow : Bool          -- R186; 1; the timebase is carried by the slow clock
  cyc : Nat              -- R185; 3; reference cycles of the present count period that have passed
  period : Nat           -- R185; 3; reference cycles of the present count period: 4, 5 or 6
  rateAcc : Int          -- R185; 39; rate adjustment not yet applied, in units of 1/1024 ppb of a count, signed
  slewAcc : Nat          -- R191; counter; counts since the last slewed count
  fresh : Bool           -- R187; 1; the next measurement replaces TREF_SLOW_INC outright
  cap : Nat              -- R193; 48; timebase captured at the last TREF_PPS_IN edge
  capFrac : Nat          -- R193; 5; fraction captured with it
  ppsOut : Bool          -- R194; 1; level of TREF_PPS_OUT
  ppsEnd : Nat           -- R194; 48; count at which the present pulse ends
deriving DecidableEq, Repr

/-! ### Power-on, boot and the structure image (chapters 02 and 11) -/

/-- One LE_CODE section of the loaded image (rule R46). -/
structure LeCode where
  mask : Nat
  entry : Nat
  off : Nat
  len : Nat
deriving DecidableEq, Repr

/-- The structure store: what the loaded image holds beside the ST fields (rules R42 to R47, R421). -/
structure Image where
  loaded : Bool                 -- R53; 1; an image is loaded
  key : Nat                     -- R48; 8; KEY_SLOT of the loaded image
  flags : Nat                   -- R50; 32; FLAGS of the loaded image
  tag : List Byte               -- R421; 128; tag of the loaded image
  pEntry : Nat                  -- R369; 32; address of Pair P's first instruction
  qEntry : Nat                  -- R369; 32; address of Pair Q's first instruction
  routes : List (Nat × Nat)     -- R28; 21 x 64; memory mask and window mask per initiator
  segUse : List Nat             -- R345; 8 x 8; use of each frame-memory segment
  segRetain : List Bool         -- R399; 8 x 1; retain flag of each segment
  banks : List Nat              -- R412; 8 x 8; voltage code of each I/O bank
  pads : List (Nat × Nat × Nat) -- R506; list; pad index, function code, flags
  saveExt : List (Nat × Nat)    -- R408; list; address and length in units of each SAVE_EXT entry
  leCode : List LeCode          -- R46; list; the LE_CODE sections in flash
  mantleCode : Option (Nat × Nat) -- R396; entry offset and length of MANTLE_CODE
  allowJmp : Bool               -- R67; 1; ALLOW_JMP
  sealPol : Nat                 -- R68; 2; seal policy
  oui : List Byte               -- R165; 24; Tilnurek organisation identifier
  etherType : Nat               -- R446; 16; Milxon EtherType
  transports : Nat              -- R451; 3; host transports
deriving DecidableEq, Repr

/-- The fuse bank of Sarnis (rules R48 to R50). -/
structure Fuses where
  floor : Nat            -- R49; 32; rollback floor
  raises : Nat           -- R49; 8; floor raises used, at most 128
  key0 : List Byte       -- R48; 256; image key 0
  key1 : List Byte       -- R48; 256; image key 1
  revoked0 : Bool        -- R50; 1; image key 0 revoked
  revoked1 : Bool        -- R50; 1; image key 1 revoked
  device : List Byte     -- R299; 256; device key of the journal
deriving DecidableEq, Repr

/-- Where an STR_CMD operation stands (rules R60 to R66). -/
inductive OpStage where
  | verify | window | boundary
deriving DecidableEq, Repr

/-- The pending STR_CMD operation. -/
structure StrOp where
  op : Nat
  slot : Bool
  auto : Bool
  ini : Nat
  stage : OpStage
deriving DecidableEq, Repr

/-- An image selection under rule R52: the candidates still to try, the head in verification; `full` where a full
restructure runs it, `auto` where no slot was named. -/
structure Select where
  cands : List Bool
  full : Bool
  auto : Bool
  last : Nat
deriving DecidableEq, Repr

/-- The boot and restructure machinery. -/
structure Boot where
  held : Bool            -- R397; 1; power-on reset held
  rise : Bool            -- R397; 1; the 300 us reset-release count runs
  select : Option Select -- R52; option; image selection in progress
  loading : Option Bool  -- R56; option; slot being loaded, section values written and not yet locked
  op : Option StrOp      -- R60; option; pending STR_CMD operation
  press : Option Bool    -- R65, R66; option; PRES_BTN press in progress, and whether it began inside the open window
  strap : Bool           -- R67; 1; PRES_JMP was strapped at reset
  mismatches : Nat       -- R68; 3; consecutive seal mismatches
  sealCount : Nat        -- R68; counter; patterns driven on SEAL_A
  debug : Bool           -- R385; 1; dmstatus.authenticated
  imgErase : Option Bool -- R458; option; slot of an IMG_ERASE that waits for presence
  imgProg : Option Nat   -- R458; option; address of the IMG_PROGRAM that runs
  imgGrant : List Bool   -- R458; list; slots that a granted IMG_ERASE opened until the next reset
deriving DecidableEq, Repr

/-! ### Radio (chapter 03) -/

/-- One band: what RFx_STATE does not show. -/
structure Band where
  hop : Option Nat       -- R74; option 24; deferred narrow hop
  target : Nat           -- R73; 24; LO frequency the synthesiser is set to
  savedOk : Bool         -- R107; 1; the band holds a calibration, valid by rule R101 or not
  savedTemp : Nat        -- R101; 8; die temperature of that calibration, two's complement
  savedVco : Nat         -- R107; 3; VCO band of the saved calibration
  savedLo : Nat          -- R107; 24; saved LO frequency
  cal : List (Nat × Nat × Bool) -- R105; list; pending items: item, deadline in ms (0 none), CAL_DEFERRED reported
  deferred : Bool        -- R105; 1; the running item reported CAL_DEFERRED first
  upA : Nat              -- R78; 8; us of low blocks of chain A
  upB : Nat              -- R78; 8; us of low blocks of chain B
  relock : Bool          -- R109; 1; relock due after TURN_RX
  gated : Bool           -- R93; 1; the slot engine gates the chains
  retire : List Nat      -- R93; list; aerials whose retirement takes effect at the end of the present state
  outOfService : Bool    -- R92; 1; both aerials retired
  limpOff : Bool         -- R110; 1; DISABLED by limp state
deriving DecidableEq, Repr

/-- The look-back ring of a chain (rules R75 to R77): which of its samples cannot be used. The samples themselves are the air's
(assumption log 14). -/
structure Ring where
  off : Option Nat           -- R76; option 48; since when samples are marked or not taken, none while they are usable
  marks : List (Nat × Nat)   -- R76, R77; list of 2 x 48; earlier times between which samples are marked
deriving DecidableEq, Repr

/-- A frame as it leaves the aerial (rules R153 to R158 and R167). -/
structure OnAir where
  preamble : List Byte       -- R154; 4 to 1,000 bytes; SUN FSK preamble octets
  sync : List Bool           -- R153; 16 to 32; sync word or SFD bits in the order sent
  phr : List Bool            -- R153; 8 to 36; PHR bits in the order sent, before coding
  psdu : List Byte           -- R167; up to 2,047 bytes; PSDU octets read for the frame, the FCS with them from the last symbol on
  body : List Bool           -- R155; list; PHR and PSDU bits of SUN FSK and O-QPSK after whitening, coding and interleaving
deriving DecidableEq, Repr

/-- Where an accepted start command stands (Table 03-5). -/
inductive TxPhase where
  | armed | decided | onAir
deriving DecidableEq, Repr

/-- An accepted start command (rules R168 to R182). -/
structure TxCmd where
  le : Nat               -- link engine of the completion ring
  desc : Nat             -- descriptor address
  bytes : List Byte      -- the 32 descriptor bytes
  ts : Nat               -- first-symbol time
  minCca : Nat           -- ledger minimum of the CCA window in us, 0 none
  maxThr : Option Int    -- ledger maximum of the energy threshold
  lbt : Bool             -- the ledger demands listen-before-talk
  readSt : Status        -- status of the read-ahead
  buf : List Byte        -- R172; up to 256 bytes; buffer octets read ahead
  held : Bool            -- HELD, rule R106
  phase : TxPhase
  power : Nat            -- power code at the decision point
  capped : Bool
  folded : Bool
  aerial : Nat
  ccaDone : Bool
  ccaEnergy : Int
  ccaIncomplete : Bool
deriving DecidableEq, Repr

/-- A ring in frame memory: entries reserved and not yet written, and whether it is being turned off. -/
structure RingSt where
  resv : Nat
  off : Bool
deriving DecidableEq, Repr

/-- The last cut of a frame on a path (rules R96 and R181). -/
structure TxCutRec where
  time : Nat             -- R181; 48; moment of the cut
  report : Nat           -- R180; 32; address of its completion report
  rank : Nat             -- R181; 2; place of its status in the list of rule R181
  early : Bool           -- R108; 1; no symbol had left
  buf : Nat              -- R174; 32; its buffer
  len : Nat              -- R174; 11; octets of that buffer
deriving DecidableEq, Repr

/-- One transmit path. -/
structure Path where
  cmds : List TxCmd      -- R169; at most 2; accepted start commands, the frame in progress or armed first
  rings : List (Nat × RingSt) -- R182; 6; completion-ring reservations
  prevEnd : Option Nat   -- R94; option 48; end of the previous frame
  turning : Bool         -- R96; 1; the turn to receive of Table 03-6 runs
  air : Option OnAir     -- R167; option; the frame on air, or the last one
  cut : Option TxCutRec  -- R181; option; the last cut
deriving DecidableEq, Repr

/-! ### The sleeve bank (chapter 04) -/

/-- A reception in progress on an assignment (rules R118 to R140). -/
structure RxFrame where
  branch : Nat
  diversity : Bool
  detA : Option Nat      -- detection time on branch A
  detB : Option Nat
  tsDetect : Nat
  tsRef : Nat
  coded : Bool
  errs : Nat
  rssi : Int
  rssiA : Int
  rssiB : Int
  noise : Int
  gain : Nat
  gainStep : Bool
  lined : Bool
  trunc : Bool           -- the finding re-search was truncated
  fromRing : Bool        -- found by a re-search
  mcs : Nat              -- MCS of an OFDM frame
  fcs2 : Bool            -- 2-octet FCS
  phr : List Byte
  psduLen : Nat
  white : Bool
  staged : List Byte
  le : Nat
  arm : Option Nat       -- link engine of the arm in force at detection
  reason : Nat
  partner : Nat
  ring : Option Nat      -- report ring in which an entry is reserved
  desc : Option Nat      -- receive descriptor held
  control : Bool
deriving DecidableEq, Repr

/-- One assignment: what the SLV_ registers do not show. -/
structure Sleeve where
  frame : Option RxFrame       -- R137; option; reception in progress
  waiting : List (Nat × Nat)   -- R115; list; deferred register writes: address and word
  research : Bool              -- R131; 1; the sleeve reads the look-back ring
  start : Nat                  -- R130, R132; 48; sample time at which the present or last re-search started
  began : Nat                  -- R131; 48; time at which that re-search began
  trunc : Bool                 -- R130; 1; the present re-search was truncated
  ended : Option (Nat × Nat × Nat) -- R137; option; last frame ended early: its time, report address and rank of its status
  released : Bool              -- R422; 1; searching in a sniff window
deriving DecidableEq, Repr

/-- The bank: report rings and rotation. -/
structure Bank where
  rings : List (Nat × RingSt)  -- R141, R142; 6; report-ring reservations
  testing : List Nat           -- R147; list; physical spares in self-test
  swap : List (Nat × Nat)      -- R147; list; spare and the assignment it searches in parallel for
  nextNarrow : Nat             -- R147; 5; next assignment of the narrow round robin
  nextWide : Nat               -- R147; 5; next assignment of the wide round robin
  restarting : List Nat        -- R144; list; physical sleeves restarting in place
deriving DecidableEq, Repr

/-! ### Flash, frame memory and the patrol (chapter 09) -/

/-- What a block of a flash array records (rules R347 to R357). -/
structure Block where
  phys : Nat             -- R347; 7; physical block
  erases : Nat           -- R353; 16; erase count
  pulses : Nat           -- R353; 8; pulses of the last erase
  wear : Bool            -- R357; 1; WEAR flag
  failing : Bool         -- R359; 1; last program or erase failed
  ptr : Nat              -- R351; 8; program pointer
  ptrOk : Bool           -- R351; 1; pointer rebuilt
  darns : Nat            -- R331; 8; darns and check-bit errors read
deriving DecidableEq, Repr

/-- An operation of an array in progress. -/
structure FlashJob where
  op : Nat               -- Table 09-3
  block : Nat
  page : Nat
  data : List Byte       -- data bytes of a PROGRAM: 512, or the 64 of a journal record
  chk : List Byte        -- their check bytes, weft and warp of each unit in turn
  off : Nat              -- offset in the page, 0 but for a journal record
deriving DecidableEq, Repr

/-- One flash array. -/
structure FlashArr where
  job : Option FlashJob        -- R350; option; operation in progress
  susp : Option FlashJob       -- R355; option; suspended erase
  resume : Bool                -- R355; 1; deferred RESUME
  asked : Bool                 -- R355; 1; SUSPEND written during the record of a verified erase
  recording : Bool             -- R355; 1; the running erase has verified and only its record remains
  failing : Option (Nat × Nat) -- R359; option; block and page of a deferred retirement
  copy : List (Nat × Nat × Nat) -- R358, R359; list; retirements to run: kind, block, page (1 program, 2 erase, 8 command)
  blocks : List (Nat × Block)  -- R347; 64; block records
  spares : List Nat            -- R347; list; free physical spares, lowest first
  holder : Nat                 -- R350; 5; initiator of the command in progress
deriving DecidableEq, Repr

/-- A line-tracker entry (rule R337). -/
structure Track where
  line : Nat
  count : Nat
  first : Nat
deriving DecidableEq, Repr

/-- Frame memory, its spare lines and the patrol. -/
structure Weave where
  lines : List (Nat × Nat)     -- R338; map; line address to spare line index plus 1
  track : List Track           -- R337; at most 64; the line tracker
  retain : List (Nat × Nat)    -- R336; list; retained segments to walk first, with the next line of each
  scrubbed : List (Nat × Bool) -- R510; 8; TCM and link-engine SRAM scrubbed since power-up
  due : Option Nat             -- R335; option 48; time the next patrol tick is due
  tickMin : Nat                -- R335; 48; earliest start of the next patrol tick
deriving DecidableEq, Repr

/-! ### Pairs, interrupts, debug and timers (chapter 10) -/

/-- A physical pair's run state. -/
inductive PairRun where
  | off | running | halted | restarting | selftest | stopped
deriving DecidableEq, Repr

/-- One physical pair. -/
structure Pair where
  run : PairRun                -- R367, R370; enum; run state
  cause : Nat                  -- R370; 4; SYS_PAIR_SELF.CAUSE
  standby : Bool               -- R369; 1; released as standby
  pc : Nat                     -- R369; 32; address the pair was last released at
  kicked : Bool                -- R482; 1; watchdog kicked since the last release
  resv : Option Nat            -- R375; option; unit reserved by LR
  prio : List (Nat × Nat)      -- R379; 128 x 3; PLIC priorities
  enable : List (Nat × Bool)   -- R379; 128; PLIC enables
  threshold : Nat              -- R379; 3; PLIC threshold
  claimed : List Nat           -- R379; list; sources claimed and not completed
  locked : List (Nat × Nat)    -- R378; list; locked instruction-cache lines: first line and count
deriving DecidableEq, Repr

/-- The watchdog of a role (rule R381). -/
structure Wdt where
  due : Nat                    -- R381; 48; time the count reaches 0
  paused : Option Nat          -- R381; option 48; counts left while the pair is halted by the debugger
  warned : Bool                -- R381; 1; source 78 raised
deriving DecidableEq, Repr

/-- The Debug Module (rules R384 and R385; RISC-V Debug Specification 0.13.2). -/
structure Debug where
  active : Bool                -- R384; 1; dmcontrol.dmactive
  hartsel : Nat                -- R384; 20; dmcontrol.hartsel
  halted : List (Nat × Bool)   -- R384; 9; hart halted
  resumeAck : List (Nat × Bool) -- R384; 9; hart resumed since its last resume request
  haveReset : List (Nat × Bool) -- R384; 9; hart has reset
  regs : List (Nat × Word)     -- R384; map; data, command, abstractcs, sbcs, sbaddress0 and sbdata0 words
  resetReq : Bool              -- R384; 1; dmcontrol.ndmreset
  hartReset : Bool             -- R384; 1; dmcontrol.hartreset
deriving DecidableEq, Repr

/-- One general timer (rules R387 to R395). -/
structure Timer where
  cnt : Nat                    -- R387; 48; counter
  cntStage : Nat               -- R389; 16; staged counter bits 47:32
  cntLatch : Nat               -- R389; 16; latched counter bits 47:32
  reload : Nat                 -- R388; 48; reload in use
  reloadSet : Nat              -- R388; 48; committed reload
  reloadStage : Nat            -- R388; 16; staged reload bits 47:32
  psc : Nat                    -- R388; 4; prescaler in use
  pscCount : Nat               -- R387; 16; prescaler count
  passed : Bool                -- R388; 1; a reload below the count was committed; the next tick wraps
deriving DecidableEq, Repr

/-- One channel of a timer (rules R390 to R392). -/
structure Chan where
  val : Nat                    -- R390, R391; 48; VAL
  next : Nat                   -- R390; 48; committed VAL that waits for a wrap
  stage : Nat                  -- R390; 16; staged VAL bits 47:32
  latch : Nat                  -- R389; 16; latched VAL bits 47:32
  hold : Option Nat            -- R392; option 48; holding stage
  reading : Bool               -- R392; 1; capture read in progress
  out : Bool                   -- R390; 1; output level
  edges : Nat                  -- R391; 4; edges passed by the edge prescaler since the last taken one
  level : Bool                 -- R393; 1; filtered input level
deriving DecidableEq, Repr

/-! ### The mantle (chapter 11) -/

/-- Where the mantle's sequencer stands. -/
inductive Stage where
  | run | doze | deferred | copying | committed | asleep
  | regulators | oscillator | plls | waking | window | backoff | wakeFailed
deriving DecidableEq, Repr

/-- What the block times from a moment it holds: the start of the slow crystal, of the mantle's present stage, of the 1 ms of
recovery, of a VIN reading, of the SNIFF interval and of its listen time, of FAILED entropy, of the power-up tests of PD2, and of
the last self-test of a spare cipher engine, standby, link engine and sleeve, and of a sleeve's wait for its swap; a wired link's
rate in SEARCH, AN, FAULT and settling of its module, a ring port's hold, the manager's last interval and last own check, the last
EVENT, an I2C transfer, the last millisecond of the outage meter and a planned interval. -/
inductive Wait where
  | xtal | stage | recover | vin | sniff | listen | entropy | cePower | ceTest | pairTest | leTest | slvTest | swap (p : Nat)
  | search (l : Nat) | an (l : Nat) | txFault (l : Nat) | module (l : Nat) | hold (p : Nat) | ringCheck | ringSeen | event | i2c (i : Nat)
  | outage | planned
deriving DecidableEq, Repr

/-- The mantle's sequencer. -/
structure Mantle where
  stage : Stage                -- R403 to R424; enum; stage of entry, sleep or wake
  target : Nat                 -- R403; 3; power state being entered or held
  saved : List (Nat × Nat)     -- R408; list; address and word of every register in the fixed save list
  savedVal : List (Nat × Nat)  -- R395; list; timer channel and its compare VAL in the fixed save list
  savedUse : List (Nat × Nat)  -- R238; list; ledger account and its use in us in the fixed save list
  savedAt : Nat                -- R238; 48; moment of entry, the stamp of that use
  savedLen : Nat               -- R408; 13; bytes of the fixed save list in save memory
  workWake : Option Nat        -- R233; option 48; wake armed for SE_NEXT_WORK - WAKE_LEAD
  runDisp : Nat                -- R419; 22; RUN dispositions in the save header
  tries : Nat                  -- R424; 3; attempts of the present start
  drive : Nat                  -- R424; 2; drive step of the present start
  slowXtal : Bool              -- R397; 1; the slow crystal runs the slow clock
  xtalStart : Bool             -- R398; 1; the slow crystal is being started
  vinLow : Bool                -- R428; 1; VIN below WARN_MV
  pending : List Nat           -- R479; list; switch-overs in progress, unit codes
  sniffSync : Bool             -- R423; 1; a sniff window is held open by a detected preamble
  retained : List Nat          -- R399; list; frame-memory segments retained in the present sleep state
deriving DecidableEq, Repr

/-! ### Faults (chapter 13) -/

/-- One fault unit (rules R473 to R475). -/
structure FUnit where
  state : Nat                  -- R475; 3; FLT_UNIT.STATE
  times : List Nat             -- R473; list; times of counted events within the window
  total : Nat                  -- R475; 32; events charged since power-on
  recent : List (Nat × Nat × Nat) -- R474; list; event, address and time of the last events of one kind
  window : Nat                 -- R473; 16; window in s
  threshold : Nat              -- R473; 5; threshold
deriving DecidableEq, Repr

/-- Fault and health. -/
structure Flt where
  units : List (Nat × FUnit)       -- R471; 62; fault units by code
  log : List (Nat × List Byte)     -- R489; 128 x 16 bytes; log records by index
  full : Bool                      -- R489; 1; the log holds 128 unread records
  seq : Nat                        -- R489; 16; next record sequence number
  below : Nat                      -- R483; 32; ms of the present outage interval
  belowAt : Nat                    -- R483; 48; time BELOW_MIN was set
  planned : Bool                   -- R484; 1; an excluded interval runs
  started : Bool                   -- R483; 1; a service minimum has been loaded
deriving DecidableEq, Repr

/-! ### The slot engine and the link engines (chapter 06) -/

/-- A ledger rule of the image (Table 06-7). -/
structure LRule where
  kind : Nat
  band : Nat
  low : Nat
  high : Nat
  limits : Nat
deriving DecidableEq, Repr

/-- The LEDGER section of the image; an image whose chains are all off may lack it (rule R226). -/
structure Ledger where
  present : Bool         -- R226; 1; the image carries the section
  refuse : Bool          -- R226; 1; REFUSE_UNRULED
  rules : List LRule     -- R226; 63 entries; the rules in order
  use : List (Nat × List (Nat × Nat)) -- R229; 319 accounts x 16 buckets; buckets of an account: start time and use in us, key 0 to 255 a channel account, 256 + r rule r
deriving DecidableEq, Repr

/-- A start command issued by the slot engine whose completion report has not been processed (rules R218 and R223). -/
structure Issued where
  path : Nat
  le : Nat               -- engine of the queue
  link : Nat             -- address of the link descriptor, 0 for an acknowledgement
  entry : Nat            -- queue entry, 0 for an acknowledgement
  desc : Nat
  partner : Nat
  asn : Nat
  ts : Nat
  ackReq : Bool
  shared : Bool
  charges : List (Nat × Nat × Nat) -- account, bucket and us charged (rule R229)
deriving DecidableEq, Repr

/-- A frame whose acknowledgement is awaited (rules R215 and R223). -/
structure AckWait where
  le : Nat
  entry : Nat
  partner : Nat
  shared : Bool
  ts : Nat               -- TS_START of the frame
  asn : Nat
  link : Nat             -- address of the link descriptor
  tsEnd : Nat            -- TS_END of the frame
  chan : Nat             -- channel of the frame in kHz
deriving DecidableEq, Repr

/-- One planned transmission of a preparation: link, queue entry, cipher request, first-symbol time. -/
structure PrepItem where
  link : Nat
  entry : Nat
  req : Option Nat
  ts : Nat
deriving DecidableEq, Repr

/-- A preparation event under way (rules R218 and R224). -/
structure Prep where
  asn : Nat
  bound : Nat            -- boundary of the slot
  items : List PrepItem
deriving DecidableEq, Repr

/-- A received frame whose verdict is awaited (rules R246 to R249). -/
structure RxWait where
  partner : Nat
  dup : Bool             -- class DUPLICATE, else NEW
  desc : Nat
  report : List Byte
  req : Option Nat       -- cipher request; none for an unsecured frame
  group : Bool           -- counter space RX_FC_G
  fc : Option Nat        -- frame counter of a secured frame
  asn : Nat              -- slot of the frame
  early : Bool           -- its header was read before the verdict: a STREAM_PART was written
deriving DecidableEq, Repr

/-- One physical link engine. -/
structure LinkEng where
  range : Option Nat           -- R280; 3; logical engine whose range and quota it serves, none: its own
  adv : Nat                    -- R224; counts; advance A
  preps : List Prep            -- R224; list; preparation events queued, in slot order
  due : Option Nat             -- R225; option 48; time the next tick is due
  tickMin : Nat                -- R225; 48; earliest start of the next tick
  last : Nat                   -- R383; 48; time of its last tick, or of its release
  rx : List RxWait             -- R246; list; frames whose verdict is awaited
  code : Bool                  -- R46; 1; LE_CODE loaded in its SRAM
  ready : Bool                 -- R234, R236; 1; its firmware takes preparation events
  badReports : Nat             -- R246; count; reports read with a status other than OK
deriving DecidableEq, Repr

/-- The slot engine. -/
structure SlotEng where
  asn : Nat                    -- R196; 40; absolute slot number of the current slot
  bound : Nat                  -- R198; 48; boundary of the current slot
  started : Bool               -- R197; 1; the first slot has been served
  source : Option Nat          -- R199; option 12; source in force
  srcWrite : Option (Option Nat) -- R199; option; written source that waits for a boundary
  srcOld : Word                -- R200; 32; SE_SOURCE before that write
  synced : Bool                -- R199; 1; synced with the source since the last fold
  sfWait : List (Nat × Nat)    -- R209; list; deferred slotframe writes: register address and word
  issued : List Issued         -- R218; list; start commands whose reports are to come
  acks : List AckWait          -- R215; list; acknowledgements awaited
  sent : List (Nat × Nat)      -- R214; 2; band and ASN of the last transmission started
  bq : List (Nat × Nat × Nat × Nat) -- R220; map; broadcast queues: link address, physical engine, head and tail entry
  arms : List (Nat × Nat)      -- R208, R213; list; assignments armed for a reception and the times of their disarm
  rotate : Bool                -- R237; 1; the spare passed its self-test and waits to swap
  nextLe : Nat                 -- R237; 3; next active engine of the round robin
  engines : List (Nat × LinkEng) -- R46; 6; link engines
  led : Ledger
deriving DecidableEq, Repr

/-! ### Partners and the message layer (chapter 07) -/

/-- Who holds a receive descriptor (rules R267 and R273). -/
inductive Holder where
  | free | engine | context | forward | layer | delivered
deriving DecidableEq, Repr

/-- One receive descriptor. -/
structure PoolDesc where
  holder : Holder        -- R273; enum; who holds it
  le : Nat               -- R268; 3; link engine it counts for
  control : Bool         -- R268; 1; control class
  next : Option Nat      -- R273; option 11; next descriptor of its chain
  head : Bool            -- R273; 1; first of a delivered chain
deriving DecidableEq, Repr

/-- A fragment's data in a descriptor's buffer. -/
structure Part where
  index : Nat
  desc : Nat
  off : Nat
  len : Nat
  verdict : Option Bool  -- streamed: none before the verdict
deriving DecidableEq, Repr

/-- A reassembly context (rule R255). Its 64 bytes in memory have no layout in the spec. -/
structure RaCtx where
  slot : Nat             -- place in the context area
  partner : Nat
  origin : Nat
  dest : Nat
  hops : Nat
  kind : Nat
  flags : Nat            -- octet 1 of the header
  txn : Nat
  count : Nat
  total : Nat
  frag : Option Nat      -- F, once taught
  opened : Nat           -- time of opening
  parts : List Part
  streamed : Bool
  newOrigin : Bool
deriving DecidableEq, Repr

/-- A message on its way out, as the message layer holds it. -/
structure Msg where
  kind : Nat
  flags : Nat            -- octet 1 of the header without MORE
  txn : Nat
  origin : Nat
  dest : Nat
  hops : Nat
  data : List Byte
deriving DecidableEq, Repr

/-- What a group of queue entries serves: a submission, a forward (`over`: a fragment has failed), or a message of the layer itself. -/
inductive SendFor where
  | submit (sub tag : Nat) (opened : Bool)
  | forward (descs : List Nat) (failed : Bool)
  | layer
deriving DecidableEq, Repr

/-- A message whose fragments are queued: entries still to complete. -/
structure Sending where
  txn : Nat
  dest : Nat
  what : SendFor
  entries : List Nat
  tries : Nat
deriving DecidableEq, Repr

/-- An open transaction (rule R263). Its 32 bytes in memory have no layout in the spec. -/
structure Txn where
  slot : Nat             -- place in the transaction area
  id : Nat
  dest : Nat
  sub : Nat              -- submitter, 0 Pair P, 1 Pair Q, 2 host
  tag : Nat
  msg : Msg
  tries : Nat
  retries : Nat          -- resends left
  timeout : Nat          -- counts
  since : Option Nat     -- time of the last fragment's completion
  answered : Bool        -- a kind 2 was delivered
  busy : Bool            -- the last answer was a kind 4
  resendAt : Option Nat  -- ASN at which a kind 4 back-off ends
deriving DecidableEq, Repr

/-- The partner table control and the message layer. -/
structure Layer where
  keys : List (Nat × List Byte × Nat) -- R240; 8192 slots; key index: slot, key octets, entry
  rebuilding : Bool                   -- R245; 1; the key index is being rebuilt
  ptOp : Option (Nat × Nat)           -- R242; option; partner command under way: OP and entry index
  ctxs : List RaCtx                   -- R255; at most 256; reassembly contexts
  txns : List Txn                     -- R263; at most 256; open transactions
  sends : List Sending                -- R276; list; messages whose fragments are queued
  heldDone : List (Nat × List Byte)   -- R278; list; completions held for a full ring: submitter and record
  busyWas : Bool                      -- R269; 1; FREE was below BUSY_TH
  restart : Bool                      -- R281; 1; the next ENABLE starts afresh
deriving DecidableEq, Repr

/-! ### Pockets and cipher engines (chapter 08) -/

/-- A key generation. -/
structure KeyGen where
  gen : Nat
  key : List Byte
deriving DecidableEq, Repr

/-- One pocket (rules R284 and R290 to R299). -/
structure Pocket where
  cur : Option KeyGen    -- R284; option 264; current generation
  old : Option KeyGen    -- R284; option 264; old generation
  gen : Nat              -- R290; 8; generation number
  virgin : Bool          -- R290; 1; no key written since the power-on reset
  erasing : Bool         -- R291; 1; ERASING
  fc : Nat               -- R294; 32; transmit counter
  auth : Nat             -- R310; 16; AUTH_FAILS
  rejects : Nat          -- R310; 16; REJECTS
  resv : Nat             -- R298; 33; present reservation of a persistent pocket
  lastRec : Nat          -- R298; 2; TYPE of the last journal record, 0 none
deriving DecidableEq, Repr

/-- A request in the shared queue (rules R301 to R312). -/
structure CeReq where
  addr : Nat
  r : Nat                -- requester code
  bytes : List Byte      -- the descriptor as accepted
  gen : Nat              -- generation bound
  at_ : Nat              -- time of acceptance
  engine : Option Nat    -- engine that runs it
  rerun : Bool
  deferred : Bool        -- held back by rule R298 now
  wasDeferred : Bool
  streamed : Bool        -- STATUS NOT_READY written
  fc : Option Nat        -- counter value taken
  ctx : List Byte        -- restored CMAC context, 32 bytes, empty where none
deriving DecidableEq, Repr

/-- A journal record to be programmed, and what follows once it is. -/
structure JRec where
  bytes : List Byte      -- R297; 64 bytes; the record
  kind : Nat             -- TYPE
  pocket : Nat
  resv : Nat             -- reservation it makes, 0 none
  key : List Byte        -- key of the new generation it brings into force, empty where none
  done : Bool            -- the pending PCK_CMD completes with it
deriving DecidableEq, Repr

/-- Sarnis, the pocket store and the cipher engines. -/
structure Secure where
  pockets : List (Nat × Pocket) -- R284; 64; pockets
  queue : List CeReq            -- R303; at most 64; requests, oldest first
  cmd : Option (Nat × Nat)      -- R322; option; pocket command under way: OP and pocket
  drbgKey : List Byte           -- R320; 256; CTR_DRBG key
  drbgV : List Byte             -- R320; 128; CTR_DRBG V
  drbgCount : Nat               -- R320; 17; requests since the last seed
  drbgAt : Nat                  -- R320; 48; time of the last seed
  drbgOk : Bool                 -- R320; 1; seeded, and no refused reseed outstanding
  random : List Byte            -- R321; 512; hardware random buffer
  ctxKey : List Byte            -- R315; 256; context key
  ready : Bool                  -- R323; 1; the queue accepts requests
  failedTest : List Nat         -- R323; 2; engines that failed their power-up tests
  ops : List (Nat × Nat)        -- R317; 2 x 17; operations since the mask generator was seeded
  journal : List JRec           -- R298; list; records to program, the first under way
  jArr : Nat                    -- R297; 1; array whose block 63 takes the next record
  jNext : Nat                   -- R297; 11; index of the next record in that block
  jErase : List Nat             -- R293; list; journal blocks to erase, array numbers
  restored : Bool               -- R299; 1; the journal has been read since the power-on reset
  rotate : Option Nat           -- R325; option 1; spare that passed and waits to swap
deriving DecidableEq, Repr


/-! ### Wired links, the switch, the host and the serial ports (chapter 12) -/

/-- One wired link: what WL_STATUS does not show. -/
structure WLink where
  configured : Bool            -- R509; 1; the image configures the link
  losses : List Nat            -- R435; list; times of the falls from 3.125 GBd within WINDOW_S
  settling : Bool              -- Table 12-1; 1; MOD_ABS is low and its 300 ms run
deriving DecidableEq, Repr

/-- A frame in the packet buffer, without FCS. -/
structure EFrame where
  octets : List Byte           -- the frame from the destination address on
  tx : Option Nat              -- address of the internal transmit descriptor that sent it
  stamp : Bool                 -- TS_REQ of that descriptor
  stomp : Bool                 -- forwarded cut-through with a failed FCS: it ends with the complement of the FCS
deriving DecidableEq, Repr

/-- One wired egress port. -/
structure EPort where
  queues : List (Nat × List EFrame) -- R438; 4; frames that wait, by queue number, first in first out
  sending : Option EFrame      -- R438; option; frame on the wire
  hold : Bool                  -- R443; 1; a ring port that came up and is blocked until a RING_FLUSH or 4 x CHECK_MS
deriving DecidableEq, Repr

/-- A Milxon request that waits (rule R451). -/
structure MxReq where
  port : Nat                   -- port of arrival
  src : List Byte              -- source address, 6 octets
  tci : Option Nat             -- TCI of a tagged request
  body : List Byte             -- header and data
deriving DecidableEq, Repr

/-- A kept WRITE response (rule R453). -/
structure MxKept where
  src : List Byte
  tag : Nat
  octets : List Byte           -- the response, header and data
deriving DecidableEq, Repr

/-- A transaction on a CSP slave (rules R455 to R457). -/
structure SlvTx where
  op : Nat
  status : Status
  flags : Nat                  -- READ_OVERRUN and WRITE_OVERRUN as CSP_SLV_LAST holds them
  words : Nat
  next : Nat
  silent : Bool                -- it records nothing: a READ of CSP_SLV_LAST or _NEXT, or one refused while an image operation runs
deriving DecidableEq, Repr

/-- The links, the switch, the host protocol and the serial ports. -/
structure Ports where
  links : List (Nat × WLink)   -- R430; 2; wired links
  egress : List (Nat × EPort)  -- R438; 2; egress of the wired ports
  fdb : List (List Byte × Nat × Nat × Nat) -- R437; at most 1024; learned addresses: octets, VID, port and time last seen
  mx : List MxReq              -- R451; at most 8; Milxon requests that wait
  kept : List MxKept           -- R453; at most 8; responses to the last WRITE requests, newest first
  seen : Bool                  -- R442; 1; an own check arrived in the present interval
  streak : Nat                 -- R442; 2; consecutive intervals in which an own check arrived
  risen : Nat                  -- R454; 4; masked bits of GPIO_HOST_EVT that rose and were not reported
  gap : Bool                   -- R454; 1; MIN_GAP_US runs
  events : Nat                 -- R454; 16; EVENTs sent
  slv : List (Nat × Option SlvTx) -- R455; 2; slave transaction of CSP0 and CSP1
  uartRx : List (Nat × List Nat) -- R462; 4 x 64; receive FIFOs: byte, FRAMING_ERR in bit 8, PARITY_ERR in bit 9
  uartTx : List (Nat × List Byte) -- R462; 4 x 64; transmit FIFOs, the character being sent first
  i2cAct : List (Nat × Nat)    -- R464; 2 x 32; I2C_CMD word of the transfer in progress, 0 none
  cspAct : List (Nat × Nat × Nat) -- R460; 8 x 64; CSP_M_CMD and CSP_M_ADDR words of the transfer in progress
  sent : List Byte             -- R460, R462, R464; list; octets that the last command moved out of a serial port
deriving DecidableEq, Repr


/-! ### The device -/

/-- The device: everything but the fuse bank and the queue of waiting commands. -/
structure Dev where
  regs : List (Nat × Word)           -- R32; map; register words that differ from their reset values
  mem : List Host.Cell               -- R345; map; data bytes of every memory, by storage address
  chk : List Host.Cell               -- R327; map; weave check bytes: weft of unit u at 2u, warp at 2u + 1
  resp : Resp                        -- R9; record; answer of the last access
  freeCtr : Nat                      -- model's own; counter; open values drawn
  waits : List (Wait × Nat)          -- R398, R407, R424; list; moments that waits are counted from
  fab : Fabric
  tb : Timebase
  img : Image
  boot : Boot
  bands : List (Nat × Band)          -- R70; 2; bands, 0 sub-GHz, 1 ISM
  rings : List (Nat × Ring)          -- R75; 4; look-back rings, key band x 2 + chain
  paths : List (Nat × Path)          -- R169; 2; transmit paths, 0 TX-SG, 1 TX-IS
  sleeves : List (Nat × Sleeve)      -- R143; 32; assignments
  bank : Bank
  flash : List (Nat × FlashArr)      -- R348; 2; flash arrays, 0 FA, 1 FB
  weave : Weave
  pairs : List (Nat × Pair)          -- R365; 2; physical pairs, 0 P, 1 Q
  wdts : List (Nat × Wdt)            -- R381; 2; watchdogs of roles P and Q
  dbg : Debug
  timers : List (Nat × Timer)        -- R387; 8; general timers
  chans : List (Nat × Chan)          -- R390; 32; channels, key timer x 4 + channel
  lineTog : List (Nat × Bool)        -- R393; 16; level of each trigger line
  mboxFrom : Nat                     -- R380; 2; role whose pair wrote SYS_MBOX last, 2 for another initiator
  mnt : Mantle
  flt : Flt
  pool : List (Nat × PoolDesc)       -- R267; 2048; receive descriptors
  se : SlotEng
  ml : Layer
  sec : Secure
  io : Ports
deriving DecidableEq, Repr


/-! ### Reset (assumption log 1: what the spec gives no reset value for reads as zero or empty) -/

/-- No access answered yet. -/
def Resp.init : Resp := { ini := 0, addr := 0, status := .ok, data := [], fault := false }

/-- The timebase at 0, on the slow clock. -/
def Timebase.init : Timebase :=
  { count := 0, acc := 0, onSlow := true, cyc := 0, period := 5, rateAcc := 0, slewAcc := 0, fresh := true, cap := 0,
    capFrac := 0, ppsOut := false, ppsEnd := 0 }

/-- No image loaded (rule R55): every segment off, every bank unpowered but bank 1 at 1.8 V for CSP0, no route. -/
def Image.init : Image :=
  { loaded := false, key := 0, flags := 0, tag := [], pEntry := 0, qEntry := 0, routes := [],
    segUse := [5, 5, 5, 5, 5, 5, 5, 4], segRetain := [], banks := [0, 0, 0xFF, 0xFF, 0xFF, 0xFF, 0xFF, 0xFF],
    pads := [], saveExt := [], leCode := [], mantleCode := none, allowJmp := true, sealPol := 0,
    oui := [0, 0, 0], etherType := 0x88B5, transports := 0 }

/-- The fuse bank as shipped: floor 0, no raise used, no key revoked (assumption log 2: the keys). -/
def Fuses.init : Fuses :=
  { floor := 0, raises := 0, key0 := List.replicate 32 0, key1 := List.replicate 32 0,
    revoked0 := false, revoked1 := false, device := List.replicate 32 0 }

/-- The boot machinery while the power-on reset is held (rule R397). -/
def Boot.init : Boot :=
  { held := true, rise := false, select := none, loading := none, op := none, press := none, strap := false,
    mismatches := 0, sealCount := 0, debug := false, imgErase := none, imgProg := none, imgGrant := [] }

/-- A band that is off. -/
def Band.init : Band :=
  { hop := none, target := 0, savedOk := false, savedTemp := 0, savedVco := 0, savedLo := 0, cal := [], deferred := false, upA := 0,
    upB := 0, relock := false, gated := false, retire := [], outOfService := false, limpOff := false }

/-- A look-back ring with no usable sample. -/
def Ring.init : Ring := { off := some 0, marks := [] }

/-- A transmit path with no command. -/
def Path.init : Path := { cmds := [], rings := [], prevEnd := none, turning := false, air := none, cut := none }

/-- A ring with nothing reserved. -/
def RingSt.init : RingSt := { resv := 0, off := false }

/-- An assignment with no frame. -/
def Sleeve.init : Sleeve :=
  { frame := none, waiting := [], research := false, start := 0, began := 0, trunc := false, ended := none, released := false }

/-- The sleeve bank with nothing reserved and no self-test. -/
def Bank.init : Bank :=
  { rings := [], testing := [], swap := [], nextNarrow := 0, nextWide := 24, restarting := [] }

/-- Block `b` of an array: logical block `b` stands on physical block `b`, never erased. -/
def Block.init (b : Nat) : Block :=
  { phys := b, erases := 0, pulses := 0, wear := false, failing := false, ptr := 0, ptrOk := false, darns := 0 }

/-- An idle array with its four spares, physical blocks 64 to 67. -/
def FlashArr.init : FlashArr :=
  { job := none, susp := none, resume := false, asked := false, recording := false, failing := none, copy := [],
    blocks := [], spares := [64, 65, 66, 67], holder := 0 }

/-- Frame memory before any segment is powered. -/
def Weave.init : Weave := { lines := [], track := [], retain := [], scrubbed := [], due := none, tickMin := 0 }

/-- A pair that has not been released. -/
def Pair.init : Pair :=
  { run := .off, cause := 1, standby := false, pc := 0, kicked := false, resv := none, prio := [], enable := [],
    threshold := 0, claimed := [], locked := [] }

/-- A watchdog that does not run. -/
def Wdt.init : Wdt := { due := 0, paused := none, warned := false }

/-- The Debug Module, inactive. -/
def Debug.init : Debug :=
  { active := false, hartsel := 0, halted := [], resumeAck := [], haveReset := [], regs := [], resetReq := false,
    hartReset := false }

/-- A timer at reset: reload of all ones (Table 10-15). -/
def Timer.init : Timer :=
  { cnt := 0, cntStage := 0, cntLatch := 0, reload := 0xFFFFFFFFFFFF, reloadSet := 0xFFFFFFFFFFFF,
    reloadStage := 0xFFFF, psc := 0, pscCount := 0, passed := false }

/-- A channel at reset. -/
def Chan.init : Chan :=
  { val := 0, next := 0, stage := 0, latch := 0, hold := none, reading := false, out := false, edges := 0,
    level := false }

/-- The mantle in power-on reset. -/
def Mantle.init : Mantle :=
  { stage := .run, target := 0, saved := [], savedVal := [], savedUse := [], savedAt := 0, savedLen := 1024, workWake := none, runDisp := 0, tries := 0, drive := 0, slowXtal := false,
    xtalStart := false, vinLow := false, pending := [], sniffSync := false, retained := [] }

/-- A fault unit after a power-on reset: in service, count 0, window 600 s, threshold 3 (rules R473 and R475). -/
def FUnit.init : FUnit := { state := 0, times := [], total := 0, recent := [], window := 600, threshold := 3 }

/-- Fault and health after a power-on reset. -/
def Flt.init : Flt := { units := [], log := [], full := false, seq := 0, below := 0, belowAt := 0, planned := false, started := false }

/-- A free descriptor. -/
def PoolDesc.init : PoolDesc := { holder := .free, le := 0, control := false, next := none, head := false }

/-- No LEDGER section loaded. -/
def Ledger.init : Ledger := { present := false, refuse := false, rules := [], use := [] }

/-- A link engine before its release. -/
def LinkEng.init : LinkEng :=
  { range := none, adv := 0, preps := [], due := none, tickMin := 0, last := 0, rx := [], code := false, ready := false, badReports := 0 }

/-- The slot engine, stopped, following the timebase alone (Table 06-28). -/
def SlotEng.init : SlotEng :=
  { asn := 0, bound := 0, started := false, source := none, srcWrite := none, srcOld := 0, synced := false, sfWait := [], issued := [],
    acks := [], sent := [], bq := [], arms := [], rotate := false, nextLe := 0, engines := [], led := .init }

/-- The message layer, empty. -/
def Layer.init : Layer :=
  { keys := [], rebuilding := false, ptOp := none, ctxs := [], txns := [], sends := [], heldDone := [], busyWas := false,
    restart := true }

/-- An empty pocket. -/
def Pocket.init : Pocket :=
  { cur := none, old := none, gen := 0, virgin := true, erasing := false, fc := 0, auth := 0, rejects := 0, resv := 0,
    lastRec := 0 }

/-- The secure domain after a power-on reset: every pocket empty (rule R284), the DRBG unseeded. -/
def Secure.init : Secure :=
  { pockets := [], queue := [], cmd := none, drbgKey := [], drbgV := [], drbgCount := 0, drbgAt := 0, drbgOk := false,
    random := [], ctxKey := [], ready := false, failedTest := [], ops := [], journal := [], jArr := 0, jNext := 0,
    jErase := [], restored := false, rotate := none }

/-- A link that no image configures. -/
def WLink.init : WLink := { configured := false, losses := [], settling := false }

/-- An empty egress port. -/
def EPort.init : EPort := { queues := [], sending := none, hold := false }

/-- The ports at reset: nothing learned, queued or in progress. -/
def Ports.init : Ports :=
  { links := [], egress := [], fdb := [], mx := [], kept := [], seen := false, streak := 0, risen := 0, gap := false,
    events := 0, slv := [], uartRx := [], uartTx := [], i2cAct := [], cspAct := [], sent := [] }


/-- The device right after a power-on reset, the reset still held: every register at the reset value of its table,
memory with nothing listed. -/
def Dev.reset : Dev :=
  { regs := [], mem := [], chk := [], resp := .init, freeCtr := 0, waits := [], fab := { waiting := [], last := [] },
    tb := .init, img := .init, boot := .init, bands := [], rings := [], paths := [],
    sleeves := [], bank := .init, flash := [], weave := .init, pairs := [], wdts := [], dbg := .init, timers := [], chans := [],
    lineTog := [], mboxFrom := 0, mnt := .init, flt := .init, pool := [], se := .init, ml := .init, sec := .init, io := .init }


/-- The KZG-1224: the device, the fuse bank of Sarnis, and the commands that wait, first in, first out. -/
structure State where
  dev : Dev
  fuses : Fuses
  pending : List Instr
deriving DecidableEq, Repr

/-- Why the block would stop. No command of the table stops it: the type is empty but for a name. -/
inductive Fault where
  /-- Raised by no command: the spec gives every command an effect. Safe. -/
  | none
deriving DecidableEq, Repr

/-- Why a command is not run. -/
inductive Refusal where
  /-- Raised by an arm of `exec` whose command has no meaning yet. Safe: the block stops where the hardware goes on. -/
  | notModelled (mnemonic : String)
deriving DecidableEq, Repr

/-- The machine right after reset. -/
def State.reset : State := { dev := .reset, fuses := .init, pending := [] }

end Sys2Proof.Machine
end

