-- ==== Sys2Proof/Machine/Operands.lean ====
section
/-!
DEFINITION. The operands of commands as numbers: which of several like registers an address names, the size of a burst, the
address of a word of a host request.
-/

namespace Sys2Proof.Machine

/-- The number of the register at `a` among `n` that start at `b`, `d` bytes apart. -/
def instOf (b d n a : Nat) : Option Nat :=
  if b ≤ a ∧ (a - b) % d = 0 ∧ (a - b) / d < n then some ((a - b) / d) else none

/-- Does a burst read? -/
def Burst.reads (b : Burst) : Bool :=
  match b.kind with
  | .read _ => true
  | .fetch _ => true
  | _ => false

/-- The bytes a burst moves. -/
def Burst.size (b : Burst) : Nat :=
  match b.kind with
  | .read n => n
  | .fetch n => n
  | .write d => d.length
  | _ => 4

/-- The beats of a burst: 32 bytes each. -/
def Burst.beats (b : Burst) : Nat := max 1 ((b.addr.toNat % 32 + b.size + 31) / 32)

/-- The transit errors of unit `k` of a burst. -/
def Burst.flipOf (b : Burst) (k : Nat) : BitVec 64 × BitVec 16 :=
  match b.flips.find? fun x => x.1 == k with
  | some x => x.2
  | none => (0, 0)

/-- The address of word `k` of a host request (rule R449). -/
def mxAddr (a k : Nat) (noInc : Bool) : Nat := if noInc then a else a + 4 * k

/-- The end of the piece of `d` bytes, counted from `b`, that holds `a`. -/
def pieceEnd (b d a : Nat) : Nat := b + ((a - b) / d + 1) * d

end Sys2Proof.Machine
end

