-- ==== Sys2Proof/WellFormed.lean ====
section
/-!
DEFINITION. Which commands are well formed. The types of the operands say most of it; what is left are the lengths that the
spec fixes for what a command carries. A command that is not well formed is still given a meaning by `exec`.
-/

namespace Sys2Proof

open Sys2Proof.Machine

/-- A burst of rule R18: 1 to 8 beats, some bytes, each transit error in a unit it moves, and the initiator's own. -/
def burstWf (b : Burst) : Bool :=
  decide (0 < b.size) && decide (b.beats ≤ 8) && b.flips.all fun x => decide (x.1 < (b.addr.toNat % 8 + b.size + 7) / 8)

/-- A MAC header plan: SCHEDULE sub-elements of at most 59 entries (Table 06-9), IEs that fit their length fields (rule R164), no
termination IE among the header IEs. -/
def mhrPlanWf (p : MhrPlan) : Bool :=
  p.sched.all (fun x => decide (x.slots.length ≤ 59)) && p.ies.all (fun x => decide (x.2.length ≤ 127) && x.1 != 0x7E && x.1 != 0x7F) &&
    p.payIes.all fun x => decide (x.2.length ≤ 2047)

/-- A fragment plan. -/
def fragPlanWf (p : FragPlan) : Bool := mhrPlanWf p.mhr

/-- An acknowledgement plan: what follows the header IEs holds the MIC. -/
def ackPlanWf (p : AckPlan) : Bool := mhrPlanWf p.mhr && decide (p.mhr.mic ≤ p.tail.length)

/-- A preparation: a header plan for a frame of its own. -/
def prepPlanWf (p : PrepPlan) : Bool := (p.own.map fun o => mhrPlanWf o.mhr).getD true

/-- Is the command well formed? -/
def WellFormed : Instr → Bool
  | .memoryAccess _ l => l.all burstWf
  | .headerDone _ phr _ _ _ => decide (phr.length ≤ 5)
  | .sleeveFrameEnd _ _ psdu _ => decide (psdu.length ≤ 2047)
  | .prepEvent _ _ plans _ => plans.all prepPlanWf
  | .rxVerdict _ _ _ ack frags => (ack.map ackPlanWf).getD true && frags.all fragPlanWf
  | .submission _ frags => frags.all fragPlanWf
  | .submissionRelease _ frags => frags.all fragPlanWf
  | .txnTimeout _ frags => frags.all fragPlanWf
  | .txnResend _ frags => frags.all fragPlanWf
  | .milxonWrite _ data => decide (data.length < 65536)
  | .i2cDone _ _ _ data => decide (data.length < 256)
  | .i2cTimeout _ _ data => decide (data.length < 256)
  | .cspMasterDone _ data => decide (data.length < 65536)
  | .cspRdyTimeout _ data => decide (data.length < 65536)
  | _ => true

end Sys2Proof
end

