-- ==== Sys2Proof/Config.lean ====
section
/-!
DEFINITION. What an implementation fixes, and the values the spec leaves open. None of these constants has a body, so
nothing can be proved of a value of theirs: a statement holds whatever they are.
-/

namespace Sys2Proof.Config

/-- A fresh open value: `free n` is the `n`-th one, `n` counted by `Dev.freeCtr` (assumption log 3). -/
opaque free : Nat → Nat

/-- The contents of the Sarnis boot ROM, which the spec does not list (assumption log 3). -/
opaque bootRom : Nat → Byte

/-- The words of the debug-module registers whose contents depend on a hart's internal registers, which the spec does
not make state of this block (assumption log 3). -/
opaque hartWord : Nat → Word

/-- The status with which a store to a flash address completes: rule R376 names only the core's access fault
(assumption log 3). -/
opaque flashStore : Status

/-- The status that goes with an access which a core ends by itself, so that it reaches no target: rules R14 and R375 name
only the core's access fault (assumption log 3). -/
opaque coreStatus : Status

/-- The status of an IMG_ERASE whose ADDR names no slot, which rule R458 does not state (assumption log 3). -/
opaque imgStatus : Status

/-- The fixed conditioning key of rule R319, taken as an AES-256 key; the spec gives neither its size nor its value
(assumption log 58). -/
opaque condKey : BitVec 256

end Sys2Proof.Config
end

