-- ==== Sys2Proof/Machine/Ops.lean ====
section
/-!
DEFINITION. The named operations over registers, time and open values that every family uses.
-/

namespace Sys2Proof.Machine

/-! ### Registers -/

/-- The word of the register at `a`. -/
def Dev.reg (s : Dev) (a : Nat) : Word := mapGet regReset s.regs a

/-- The register at `a` takes the word `v`. -/
def Dev.setReg (s : Dev) (a : Nat) (v : Word) : Dev := { s with regs := mapPut regReset s.regs a v }

/-- The value of a field. -/
def Dev.rd (s : Dev) (f : Fld) : Nat := bits (s.reg f.addr).toNat f.lo f.w

/-- A word with field `f` set to `v`, the other bits as they were. -/
def setField (x : Word) (f : Fld) (v : Nat) : Word :=
  BitVec.ofNat 32 (x.toNat % 2 ^ f.lo + 2 ^ f.lo * (v % 2 ^ f.w) + 2 ^ (f.lo + f.w) * (x.toNat / 2 ^ (f.lo + f.w)))

/-- A field takes the low bits of `v`. -/
def Dev.wr (s : Dev) (f : Fld) (v : Nat) : Dev := s.setReg f.addr (setField (s.reg f.addr) f v)

/-- Is the field not 0? -/
def Dev.on (s : Dev) (f : Fld) : Bool := s.rd f != 0

/-- The bit of `f` is set. -/
def Dev.set (s : Dev) (f : Fld) : Dev := s.wr f 1

/-- The bit of `f` is cleared. -/
def Dev.clr (s : Dev) (f : Fld) : Dev := s.wr f 0

/-- A bit takes the value of a Bool. -/
def Dev.put (s : Dev) (f : Fld) (b : Bool) : Dev := s.wr f (if b then 1 else 0)

/-- Bit `i` of field `f`. -/
def Dev.bit (s : Dev) (f : Fld) (i : Nat) : Bool := bitOf (s.rd f) i

/-- Bit `i` of field `f` is set or cleared. -/
def Dev.putBit (s : Dev) (f : Fld) (i : Nat) (b : Bool) : Dev := s.put ⟨f.addr, f.lo + i, 1⟩ b

/-- A counter field goes up by `n` and stays at its largest value (rule R7's RS counters saturate). -/
def Dev.add (s : Dev) (f : Fld) (n : Nat) : Dev := s.wr f (min (s.rd f + n) (2 ^ f.w - 1))

/-- A counter field goes up by one and stays at its largest value. -/
def Dev.bump (s : Dev) (f : Fld) : Dev := s.add f 1

/-- A status is written to a result field. -/
def Dev.st (s : Dev) (f : Fld) (c : Status) : Dev := s.wr f c.code

/-- `f s` where `c` holds, else `s`. -/
def Dev.when (s : Dev) (c : Bool) (f : Dev → Dev) : Dev := if c then f s else s

/-- `f` over a list, from the left. -/
def Dev.each {α : Type} (s : Dev) (l : List α) (f : Dev → α → Dev) : Dev := l.foldl f s

/-! ### Records kept by number -/

def Dev.band (s : Dev) (b : Nat) : Band := mapGet (fun _ => Band.init) s.bands b
def Dev.setBand (s : Dev) (b : Nat) (v : Band) : Dev := { s with bands := mapPut (fun _ => Band.init) s.bands b v }
def Dev.ring (s : Dev) (b c : Nat) : Ring := mapGet (fun _ => Ring.init) s.rings (2 * b + c)
def Dev.setRing (s : Dev) (b c : Nat) (v : Ring) : Dev := { s with rings := mapPut (fun _ => Ring.init) s.rings (2 * b + c) v }
def Dev.path (s : Dev) (p : Nat) : Path := mapGet (fun _ => Path.init) s.paths p
def Dev.setPath (s : Dev) (p : Nat) (v : Path) : Dev := { s with paths := mapPut (fun _ => Path.init) s.paths p v }
def Dev.sleeve (s : Dev) (n : Nat) : Sleeve := mapGet (fun _ => Sleeve.init) s.sleeves n
def Dev.setSleeve (s : Dev) (n : Nat) (v : Sleeve) : Dev :=
  { s with sleeves := mapPut (fun _ => Sleeve.init) s.sleeves n v }
def Dev.arr (s : Dev) (a : Nat) : FlashArr := mapGet (fun _ => FlashArr.init) s.flash a
def Dev.setArr (s : Dev) (a : Nat) (v : FlashArr) : Dev := { s with flash := mapPut (fun _ => FlashArr.init) s.flash a v }
def FlashArr.block (f : FlashArr) (b : Nat) : Block := mapGet Block.init f.blocks b
def FlashArr.setBlock (f : FlashArr) (b : Nat) (v : Block) : FlashArr := { f with blocks := mapPut Block.init f.blocks b v }
def Dev.pair (s : Dev) (x : Nat) : Pair := mapGet (fun _ => Pair.init) s.pairs x
def Dev.setPair (s : Dev) (x : Nat) (v : Pair) : Dev := { s with pairs := mapPut (fun _ => Pair.init) s.pairs x v }
def Dev.wdt (s : Dev) (x : Nat) : Wdt := mapGet (fun _ => Wdt.init) s.wdts x
def Dev.setWdt (s : Dev) (x : Nat) (v : Wdt) : Dev := { s with wdts := mapPut (fun _ => Wdt.init) s.wdts x v }
def Dev.timer (s : Dev) (k : Nat) : Timer := mapGet (fun _ => Timer.init) s.timers k
def Dev.setTimer (s : Dev) (k : Nat) (v : Timer) : Dev := { s with timers := mapPut (fun _ => Timer.init) s.timers k v }
def Dev.chan (s : Dev) (i : Nat) : Chan := mapGet (fun _ => Chan.init) s.chans i
def Dev.setChan (s : Dev) (i : Nat) (v : Chan) : Dev := { s with chans := mapPut (fun _ => Chan.init) s.chans i v }
def Dev.unit (s : Dev) (c : Nat) : FUnit := mapGet (fun _ => FUnit.init) s.flt.units c
def Dev.setUnit (s : Dev) (c : Nat) (v : FUnit) : Dev :=
  { s with flt := { s.flt with units := mapPut (fun _ => FUnit.init) s.flt.units c v } }

def Dev.eng (s : Dev) (k : Nat) : LinkEng := mapGet (fun _ => LinkEng.init) s.se.engines k
def Dev.setEng (s : Dev) (k : Nat) (v : LinkEng) : Dev :=
  { s with se := { s.se with engines := mapPut (fun _ => LinkEng.init) s.se.engines k v } }
def Dev.pocket (s : Dev) (n : Nat) : Pocket := mapGet (fun _ => Pocket.init) s.sec.pockets n
def Dev.setPocket (s : Dev) (n : Nat) (v : Pocket) : Dev :=
  { s with sec := { s.sec with pockets := mapPut (fun _ => Pocket.init) s.sec.pockets n v } }

/-- The record of ring `k` among `l`. -/
def ringGet (l : List (Nat × RingSt)) (k : Nat) : RingSt := mapGet (fun _ => RingSt.init) l k

/-- Ring `k` of `l` takes the record `v`. -/
def ringPut (l : List (Nat × RingSt)) (k : Nat) (v : RingSt) : List (Nat × RingSt) := mapPut (fun _ => RingSt.init) l k v

/-! ### Time -/

/-- The air timebase: a 48-bit count of 125 ns (rule R3). -/
def Dev.now (s : Dev) : Nat := s.tb.count

/-- The sum of a time stamp and a difference, modulo 2^48 (rule R3). -/
def tsAdd (t : Nat) (d : Int) : Nat := unsigned 48 (t + d)

/-- `a` is at or before `b`: the difference, modulo 2^48, is below 2^47 (rules R3 and R416). -/
def tsLe (a b : Nat) : Bool := decide ((b + 2 ^ 48 - a % 2 ^ 48) % 2 ^ 48 < 2 ^ 47)

/-- The signed difference `a - b` of two time stamps. -/
def tsDiff (a b : Nat) : Int := signed 48 ((a + 2 ^ 48 - b % 2 ^ 48) % 2 ^ 48)

/-- Counts of 125 ns in `u` microseconds. -/
def us (u : Nat) : Nat := 8 * u

/-- The moment a wait is counted from. -/
def Dev.since (s : Dev) (w : Wait) : Option Nat := (s.waits.find? fun e => e.1 == w).map (·.2)

/-- A wait is counted from `t`. -/
def Dev.markAt (s : Dev) (w : Wait) (t : Nat) : Dev := { s with waits := (w, t) :: s.waits.filter fun e => e.1 != w }

/-- A wait is counted from now. -/
def Dev.mark (s : Dev) (w : Wait) : Dev := s.markAt w s.now

/-- Nothing is waited for. -/
def Dev.unmark (s : Dev) (w : Wait) : Dev := { s with waits := s.waits.filter fun e => e.1 != w }

/-- By how much the timebase may show less than the time that has passed: on the slow clock it moves by whole ticks (rule R186). -/
def Dev.grain (s : Dev) : Nat := if s.tb.onSlow then 256 else 0

/-- Have `d` counts passed since the start of a wait? One that never started is over (assumption log 14). -/
def Dev.waited (s : Dev) (w : Wait) (d : Nat) : Bool := (s.since w).all fun t => decide ((d : Int) ≤ tsDiff s.now t + (s.grain : Int))

/-! ### Open values -/

/-- The next open value, below `2 ^ w`. -/
def Dev.freeVal (s : Dev) (w : Nat) : Nat := Config.free s.freeCtr % 2 ^ w

/-- One open value has been drawn. -/
def Dev.drew (s : Dev) : Dev := { s with freeCtr := s.freeCtr + 1 }

/-- The next `n` open bytes. -/
def Dev.freeBytes (s : Dev) (n : Nat) : List Byte :=
  (List.range n).map fun i => BitVec.ofNat 8 (Config.free (s.freeCtr + i))

/-- `n` open values have been drawn. -/
def Dev.drewN (s : Dev) (n : Nat) : Dev := { s with freeCtr := s.freeCtr + n }

/-! ### Power domains (Table 01-12) -/

/-- The disposition of domain `n`: 0 off, 1 on, 2 retained, 3 stopped (MNT_DOMAIN_STAT.DISP). -/
def Dev.disp (s : Dev) (n : Nat) : Nat := bits (s.rd MNT_DOMAIN_STAT_DISP) (2 * n) 2

/-- Domain `n` takes a disposition. -/
def Dev.setDisp (s : Dev) (n d : Nat) : Dev := s.wr ⟨MNT_DOMAIN_STAT, 2 * n, 2⟩ d

/-- Is domain `n` on? -/
def Dev.up (s : Dev) (n : Nat) : Bool := s.disp n == 1

/-- The physical pair that carries role `x`, 0 for P and 1 for Q (rule R368). -/
def Dev.carrier (s : Dev) (x : Nat) : Nat := if x = 0 then s.rd SYS_PAIR_STATUS_PRIMARY else 1 - s.rd SYS_PAIR_STATUS_PRIMARY

/-- The role of a physical pair. -/
def Dev.roleOf (s : Dev) (x : Nat) : Nat := if x = s.rd SYS_PAIR_STATUS_PRIMARY then 0 else 1

/-- Is hart `h` halted by the debugger (rule R384: harts 0 and 1 are the physical pairs, 2 to 7 the link engines, 8 the
mantle controller)? -/
def Dev.hartHalted (s : Dev) (h : Nat) : Bool := mapGet (fun _ => false) s.dbg.halted h

/-- Hart `h` has been reset: it is not halted, and dmstatus shows the reset until it is acknowledged. -/
def Dev.hartReset (s : Dev) (h : Nat) : Dev :=
  { s with dbg := { s.dbg with halted := mapPut (fun _ => false) s.dbg.halted h false,
                               haveReset := mapPut (fun _ => false) s.dbg.haveReset h true } }

/-- The answer of an access is put on the bus. -/
def Dev.answer (s : Dev) (ini addr : Nat) (st : Status) (data : List Byte) (fault : Bool) : Dev :=
  { s with resp := { ini := ini, addr := addr, status := st, data := data, fault := fault } }

/-- The answer of a register access: a word read, or a write accepted. -/
def Dev.reply (s : Dev) (ini : Nat) (addr : Nat) (st : Status) (v : Nat) : Dev :=
  s.answer ini addr st (leBytes 4 v) false

/-- A meaning that changes the device alone. -/
def onDev (f : Dev → Dev) (s : State) : Host.Outcome State Fault Refusal := .next { s with dev := f s.dev }

end Sys2Proof.Machine
end

