-- ==== Sys2Proof/Machine/Flags.lean ====
section
/-!
DEFINITION. How the bits of a register answer a plain write and a read (Table 00-6 and rules R4 to R7 and R30): RW bits as
written, W1C event flags cleared where 1 is written, RS bits cleared by a read.
-/

namespace Sys2Proof.Machine

/-- The word a plain write of `v` leaves in a register that holds `cur`: RW bits as written, W1C bits cleared where 1 is
written, every other bit as it was (Table 00-6). -/
def plainWord (rw w1c cur v : Nat) : Nat :=
  (cur &&& (0xFFFFFFFF - (rw ||| w1c))) ||| (v &&& rw) ||| (cur &&& w1c &&& (0xFFFFFFFF - v % 2 ^ 32))

/-- A plain write of `v` to the register at `a`; an offset that names no register ignores it (rule R30). -/
def Dev.plainWrite (s : Dev) (a v : Nat) : Dev :=
  match regFind a with
  | some r => s.setReg a (BitVec.ofNat 32 (plainWord (rwMask r a) r.w1c (s.reg a).toNat v))
  | none => s

/-- A plain read of the register at `a`: its word, then its RS bits are 0 (rule R7). An offset that names no register
reads as 0 (rule R30). -/
def Dev.plainRead (s : Dev) (a : Nat) : Dev × Nat :=
  match regFind a with
  | some r => (if r.rs = 0 then s else s.setReg a (s.reg a &&& BitVec.ofNat 32 (0xFFFFFFFF - r.rs)), (s.reg a).toNat)
  | none => (s, 0)

/-- Is the code a unit of Table 13-1? -/
def isUnit (c : Nat) : Bool := decide (c ≤ 0x1D) || (decide (0x20 ≤ c) && decide (c ≤ 0x3F))

/-- The word whose ST fields a write to `a` is held against: those of FLT_UNIT are the window and the threshold of the unit that
FLT_UNIT_SEL names (Table 13-10). -/
def Dev.stWord (s : Dev) (a : Nat) : Nat :=
  if a = FLT_UNIT then
    let c := s.rd FLT_UNIT_SEL_UNIT
    if isUnit c then (s.unit c).window % 65536 * 2 ^ 16 + (s.unit c).threshold % 32 * 2 ^ 11 else 0
  else (s.reg a).toNat

/-- Would a write of `v` change an ST field of the register at `a` (rules R8 and R58)? -/
def Dev.stChange (s : Dev) (a v : Nat) : Bool :=
  match regFind a with
  | some r => (s.stWord a ^^^ v) &&& r.st != 0
  | none => false

/-- A refused ST write is counted; the first since STR_LOCK_LOG was read gives initiator and address (rule R59). -/
def Dev.lockLog (s : Dev) (ini a : Nat) : Dev :=
  let s := if s.rd STR_LOCK_LOG_COUNT = 0 then (s.wr STR_LOCK_LOG_INITIATOR ini).wr STR_LOCK_ADDR_ADDR a else s
  s.bump STR_LOCK_LOG_COUNT

/-- The trigger lines are the same registers in every timer window (Table 10-18): the address under which GT0 shows them. -/
def gtShared (a : Nat) : Nat :=
  if 0x40020000 ≤ a ∧ a < 0x40028000 ∧ 0x100 ≤ a % 0x1000 ∧ a % 0x1000 < 0x140 then 0x40020000 + a % 0x1000 else a

/-- A word that an engine's own transfer writes to the register at `a` (rules R4, R8 and R32): the fields a plain write sets
(assumption log 20). -/
def Dev.wordIn (s : Dev) (ini a v : Nat) : Dev × Status :=
  if s.stChange (gtShared a) v then (s.lockLog ini a, .structureLocked) else (s.plainWrite (gtShared a) v, .ok)

/-- A word that an engine's own transfer reads from the register at `a` (rules R7 and R32). -/
def Dev.wordOut (s : Dev) (a : Nat) : Dev × Nat := s.plainRead (gtShared a)

end Sys2Proof.Machine
end

