-- ==== Sys2Proof/Machine/Store.lean ====
section
/-!
DEFINITION. Storage and the weave code: the one place where bytes of every memory are kept, the code of rules R327 to R331,
the targets of the address map with their routes and power, and one access to a unit without its fault charge.
Storage addresses are the bus addresses of frame memory, TCM and save memory; memories without a bus address of their own
have the private ranges named below (assumption log 4).
-/

namespace Sys2Proof.Machine

/-! ### Storage -/

/-- Storage address of the SRAM of link engine `k`. -/
def leBase (k : Nat) : Nat := 0x100000000 + k * 0x10000
/-- Storage address of the spare lines of segment `n` (rule R338). -/
def spareBase (n : Nat) : Nat := 0x200000000 + n * 0x1000
/-- Storage address of physical block `b` of array `a` (rule R347). -/
def flashBase (a b : Nat) : Nat := 0x300000000 + a * 0x1000000 + b * 0x10000
/-- Storage address of Sarnis's SRAM. -/
def sarnisBase : Nat := 0x400000000
/-- Storage address of the mantle's SRAM. -/
def mantleBase : Nat := 0x500000000
/-- Bus address of the save memory (rule R411). -/
def saveBase : Nat := 0x40018000

/-- What a data byte that nothing has written reads as: ones in flash (erased), zero elsewhere (assumption log 4). -/
def byteReset (k : Nat) : Byte := if 0x300000000 ≤ k ∧ k < 0x400000000 then 0xFF else 0

/-- What an unwritten check byte reads as: 0xFF, valid for zero and for all-ones data alike (rule R327). -/
def chkReset (_ : Nat) : Byte := 0xFF

/-- The canonical form of memory and of its check bytes. -/
def Memory.wf (s : Dev) : Bool := mapWf byteReset s.mem && mapWf chkReset s.chk

/-- The data byte at a storage address. -/
def Dev.byte (s : Dev) (k : Nat) : Byte := mapGet byteReset s.mem k

/-- The data byte at a storage address takes a value. -/
def Dev.setByte (s : Dev) (k : Nat) (v : Byte) : Dev := { s with mem := mapPut byteReset s.mem k v }

/-- A check byte takes a value. -/
def Dev.setChk (s : Dev) (k : Nat) (v : Byte) : Dev := { s with chk := mapPut chkReset s.chk k v }

/-- The bytes from storage address `k` on. -/
def Dev.bytes (s : Dev) (k n : Nat) : List Byte := (List.range n).map fun i => s.byte (k + i)

/-- The bytes `l` are stored from storage address `k` on, check bytes left as they are. -/
def Dev.setBytes (s : Dev) (k : Nat) : List Byte → Dev
  | [] => s
  | b :: r => (s.setByte k b).setBytes (k + 1) r

/-- The unit at storage address `k`, a multiple of 8. -/
def Dev.unitAt (s : Dev) (k : Nat) : Unit8 :=
  { data := BitVec.ofNat 64 (ofLe (s.bytes k 8)),
    weft := mapGet chkReset s.chk (2 * (k / 8)), warp := mapGet chkReset s.chk (2 * (k / 8) + 1) }

/-- A unit is stored whole, check bytes included. -/
def Dev.setUnitAt (s : Dev) (k : Nat) (u : Unit8) : Dev :=
  ((s.setBytes k (leBytes 8 u.data.toNat)).setChk (2 * (k / 8)) u.weft).setChk (2 * (k / 8) + 1) u.warp

/-! ### The weave code -/

/-- Row `i` of a unit: byte `i` (rule R327). -/
def rowOf (d i : Nat) : Nat := bits d (8 * i) 8

/-- Column `j` of a unit: bit `j` of every byte, as an 8-bit number. -/
def colOf (d j : Nat) : Nat := (List.range 8).foldl (fun x i => x + (if bitOf d (8 * i + j) then 2 ^ i else 0)) 0

/-- The odd parity bit of an 8-bit number. -/
def oddBit (x : Nat) : Nat := 1 - ones 8 x % 2

/-- The weft byte: the odd parity of each row (rule R327). -/
def weftOf (d : BitVec 64) : BitVec 8 :=
  BitVec.ofNat 8 ((List.range 8).foldl (fun x i => x + 2 ^ i * oddBit (rowOf d.toNat i)) 0)

/-- The warp byte: the odd parity of each column (rule R327). -/
def warpOf (d : BitVec 64) : BitVec 8 :=
  BitVec.ofNat 8 ((List.range 8).foldl (fun x j => x + 2 ^ j * oddBit (colOf d.toNat j)) 0)

/-- A unit with valid check bytes. -/
def woven (d : BitVec 64) : Unit8 := { data := d, weft := weftOf d, warp := warpOf d }

/-- The outcomes of Table 09-1, coded as FLC_MARGIN.WORST: 0 clean, 1 lone check-bit mismatch, 2 darn, 3 UNCORRECTABLE. -/
def outcomeOf (weft warp : Nat) : Nat :=
  match ones 8 weft, ones 8 warp with
  | 0, 0 => 0
  | 1, 1 => 2
  | 1, 0 => 1
  | 0, 1 => 1
  | _, _ => 3

/-- The two syndromes of a unit (rule R329). -/
def syndromes (u : Unit8) : Nat × Nat := ((weftOf u.data ^^^ u.weft).toNat, (warpOf u.data ^^^ u.warp).toNat)

/-- The outcome of a check of a unit. -/
def Unit8.outcome (u : Unit8) : Nat := outcomeOf (syndromes u).1 (syndromes u).2

/-- The number of the lowest bit set. -/
def lowBit (x : Nat) : Nat := ((List.range 8).find? fun i => bitOf x i).getD 0

/-- The data a checker delivers: the bit at the row and column named is inverted on a darn (Table 09-1). -/
def Unit8.delivered (u : Unit8) : BitVec 64 :=
  if u.outcome = 2 then
    u.data ^^^ BitVec.ofNat 64 (2 ^ (8 * lowBit (syndromes u).1 + lowBit (syndromes u).2))
  else u.data

/-- The unit a checker passes on: a darned or check-bit-corrected unit with valid check bytes, an UNCORRECTABLE one as it
came (rule R25). -/
def Unit8.passed (u : Unit8) : Unit8 := if u.outcome = 3 then u else woven u.delivered

/-! ### Targets, routes and power -/

/-- What an address reaches (Table 01-4 and rule R515). -/
inductive Target where
  | tcm (p : Nat)
  | leRam (k : Nat)
  | sarnisRam
  | mantleRam
  | rom
  | flash (a : Nat)
  | seg (n : Nat)
  | save
  | win (w : Nat)
deriving DecidableEq, Repr

/-- The register windows of Table 01-4: first address, last address and power domain. Window `w` is the `w`-th. -/
def windows : List (Nat × Nat × Nat) := [
  (0x40000000, 0x40007FFF, 1), (0x40008000, 0x4000FFFF, 1), (0x40010000, 0x4001FFFF, 0), (0x40020000, 0x40027FFF, 1),
  (0x40030000, 0x40037FFF, 1), (0x40040000, 0x40043FFF, 1), (0x40044000, 0x40045FFF, 1), (0x40046000, 0x40046FFF, 1),
  (0x40047000, 0x40047FFF, 1), (0x40048000, 0x40048FFF, 1), (0x40050000, 0x4005FFFF, 7), (0x40060000, 0x4007FFFF, 2),
  (0x40080000, 0x4008FFFF, 1), (0x40090000, 0x4009FFFF, 1), (0x400A0000, 0x400BFFFF, 1), (0x400C0000, 0x400FFFFF, 1),
  (0x40100000, 0x4013FFFF, 5), (0x40140000, 0x4017FFFF, 5), (0x40180000, 0x401EFFFF, 10), (0x401F0000, 0x401FFFFF, 1)]

/-- The window that holds an address. -/
def windowOf (a : Nat) : Option Nat := windows.findIdx? fun w => decide (w.1 ≤ a) && decide (a ≤ w.2.1)

/-- The target an initiator reaches at an address; none where the address is unmapped for it (rules R29 and R515). -/
def Dev.target (s : Dev) (ini a : Nat) : Option Target :=
  if a < 0x40000 then
    if ini < 2 then some (.tcm (s.carrier ini))
    else if ini < 8 ∧ a < 0x10000 then some (.leRam (ini - 2))
    else if ini = 8 ∧ a < 0x4000 then some .mantleRam
    else if ini = 9 ∧ a < 0x10000 then some .sarnisRam
    else none
  else if 0x01000000 ≤ a ∧ a < 0x01040000 then some (.tcm 0)
  else if 0x01040000 ≤ a ∧ a < 0x01080000 then some (.tcm 1)
  else if 0x08000000 ≤ a ∧ a < 0x08010000 then some .rom
  else if 0x10000000 ≤ a ∧ a < 0x10400000 then some (.flash 0)
  else if 0x10400000 ≤ a ∧ a < 0x10800000 then some (.flash 1)
  else if 0x20000000 ≤ a ∧ a < 0x20200000 then some (.seg ((a - 0x20000000) / 0x40000))
  else if saveBase ≤ a ∧ a < saveBase + 0x1000 then some .save
  else (windowOf a).map .win

/-- The ROUTES memory-mask bit of a target (Table 02-6). -/
def Target.maskBit : Target → Nat
  | .tcm p => p
  | .flash a => 2 + a
  | .seg n => 4 + n
  | .save => 12
  | _ => 13

/-- The routes of an initiator in the loaded image. -/
def Dev.routesOf (s : Dev) (ini : Nat) : Nat × Nat := (s.img.routes[ini]?).getD (0, 0)

/-- May the initiator reach the target? Sarnis and debug have the fixed routes of rules R15 and R27, every other
initiator those of the ROUTES section. An engine's private memory needs no route, and neither does a pair's own TCM at
0x0000_0000; through the fabric window of a TCM every initiator is under its routes (rule R515). An access by another initiator
to the boot ROM, which only Sarnis sees, counts as an access without a route (assumption log 55). -/
def Dev.routed (s : Dev) (ini a : Nat) (t : Target) : Bool :=
  match t with
  | .leRam _ => true
  | .sarnisRam => true
  | .mantleRam => true
  | .rom => ini == 9
  | .win w =>
    if ini = 9 then w == 11
    else if ini = 0x14 then s.boot.debug && w != 11
    else bitOf (s.routesOf ini).2 w
  | .tcm p => if ini = 9 then false else if ini = 0x14 then s.boot.debug
              else decide (a < 0x40000) || bitOf (s.routesOf ini).1 p
  | .flash a => if ini = 9 then true else if ini = 0x14 then s.boot.debug else bitOf (s.routesOf ini).1 (2 + a)
  | .seg n => if ini = 9 then true else if ini = 0x14 then s.boot.debug else bitOf (s.routesOf ini).1 (4 + n)
  | .save => if ini = 9 then false else if ini = 0x14 then s.boot.debug else bitOf (s.routesOf ini).1 12

/-- Is the memory or window powered and able to answer at address `a` (rules R31, R345, R346, R349 and R510)? -/
def Dev.alive (s : Dev) (t : Target) (a : Nat) : Bool :=
  match t with
  | .tcm p => s.disp (3 + p) != 0 && s.disp (3 + p) != 2 && mapGet (fun _ => false) s.weave.scrubbed p
  | .leRam k => s.up 5 && mapGet (fun _ => false) s.weave.scrubbed (2 + k)
  | .sarnisRam => s.up 2
  | .rom => s.up 2
  | .mantleRam => true
  | .flash x => s.up 7 &&
      (match (s.arr x).susp with
       | some j => (a - 0x10000000) % 0x400000 / 0x10000 != j.block
       | none => true)
  | .seg n => s.up 6 && (s.img.segUse[n]?).getD 5 != 5 && s.on (WV_SEG_READY n)
  | .save => true
  | .win w => s.up ((windows[w]?).map (·.2.2) |>.getD 1)

/-- The storage address behind bus address `a` of a memory target: spare lines (rule R338) and the block remap
(rule R347) applied. -/
def Dev.place (s : Dev) (t : Target) (a : Nat) : Nat :=
  match t with
  | .tcm p => 0x01000000 + p * 0x40000 + a % 0x40000
  | .leRam k => leBase k + a
  | .sarnisRam => sarnisBase + a
  | .mantleRam => mantleBase + a
  | .flash x =>
    let o := (a - 0x10000000) % 0x400000
    flashBase x ((s.arr x).block (o / 0x10000)).phys + o % 0x10000
  | .seg n =>
    match mapGet (fun _ => 0) s.weave.lines (a / 32 * 32) with
    | 0 => a
    | i + 1 => spareBase n + i * 32 + a % 32
  | _ => a

/-- The fault unit that a memory belongs to (event UNCORR_DATA of Table 13-2). -/
def Target.unit : Target → Option Nat
  | .tcm p => some p
  | .leRam k => some (2 + k)
  | .flash a => some (0x0C + a)
  | .seg n => some (0x0E + n)
  | _ => none

/-! ### One unit through the fabric, its fault charge apart -/

/-- Transit errors inverted into a unit. -/
def Unit8.flip (u : Unit8) (d : BitVec 64) (c : BitVec 16) : Unit8 :=
  { data := u.data ^^^ d, weft := u.weft ^^^ BitVec.ofNat 8 c.toNat, warp := u.warp ^^^ BitVec.ofNat 8 (c.toNat / 256) }

/-- The address of the first UNCORRECTABLE SRAM unit is held until UNCORR is cleared (rule R332). -/
def Dev.logUncorr (s : Dev) (a : Nat) : Dev :=
  (if s.on WV_EVENTS_UNCORR then s else s.wr WV_UNCORR_ADDR_ADDR a).set WV_EVENTS_UNCORR

/-- A memory's demand read counts what it met: darns and lone check-bit mismatches (rule R331), and an UNCORRECTABLE
unit with the first one's address (rule R332). -/
def Dev.countRead (s : Dev) (t : Target) (a o : Nat) : Dev :=
  match t, o with
  | _, 0 => s
  | .flash x, 3 =>
    let s := if s.on (FLC_EVENTS_UNCORR x) then s else s.wr (FLC_UNCORR_ADDR_ADDR x) a
    (s.bump (FLC_UNCORR_COUNT_COUNT x)).set (FLC_EVENTS_UNCORR x)
  | .flash x, _ =>
    let f := s.arr x
    let b := (a - 0x10000000) % 0x400000 / 0x10000
    let k := f.block b
    (s.bump (FLC_DARN_COUNT_COUNT x)).setArr x (f.setBlock b { k with darns := min (k.darns + 1) 0xFF })
  | _, 3 => (s.logUncorr a).bump WV_CNT_UNCORR_COUNT
  | _, 2 => s.bump WV_CNT_DEMAND_DARN_COUNT
  | _, _ => s.bump WV_CNT_CHECK_ONLY_COUNT

/-- Fabric errors are logged: the status bit, LAST_CODE, and the first error's address and source (rule R33). -/
def Dev.logFab (s : Dev) (f : Fld) (code a ini cls : Nat) : Dev :=
  let first := s.rd ⟨SYS_FAB_STATUS, 0, 4⟩ == 0
  let s := (s.set f).wr SYS_FAB_STATUS_LAST_CODE code
  if first then ((s.wr SYS_FAB_ERR_ADDR_ADDR a).wr SYS_FAB_ERR_SRC_CLASS cls).wr SYS_FAB_ERR_SRC_INITIATOR ini else s

/-- The fabric class of an initiator (Table 01-3). -/
def classOf (ini : Nat) : Nat :=
  if ini < 2 then 3 else if ini < 9 then 0 else if ini < 12 then 1 else if ini < 16 then 0
  else if ini < 18 then 2 else 4

/-- Does an access of a failing kind make its initiator take an access fault: is it a core (rules R24, R28 and R29)? -/
def isCore (ini : Nat) : Bool := decide (ini < 10)

/-- A write by initiator `ini` to the unit at storage address `k` ends the other pairs' LR reservations of it
(rule R375). -/
def Dev.breakResv (s : Dev) (ini k : Nat) : Dev :=
  s.each [0, 1] fun s x =>
    if (s.pair x).resv = some (k / 8 * 8) ∧ ¬ (ini < 2 ∧ s.carrier ini = x) then
      s.setPair x { s.pair x with resv := none }
    else s

/-- Ranges that Sarnis alone reaches, whatever the routes: the private part of its window (rule R283) and the counter
journal in logical block 63 of each array (rule R297). -/
def sarnisOnly (a : Nat) : Bool :=
  (decide (0x40070000 ≤ a) && decide (a < 0x40080000)) || (decide (0x103F0000 ≤ a) && decide (a < 0x10400000)) ||
    (decide (0x107F0000 ≤ a) && decide (a < 0x10800000))

/-- Check of an address before its unit moves: unmapped, no route, not able to answer, or the target it reaches. -/
def Dev.reach (s : Dev) (ini a : Nat) : Status × Option Target :=
  match s.target ini a with
  | none => (.unmapped, none)
  | some t =>
    if !s.routed ini a t || (sarnisOnly a && ini != 9) then (.routeDenied, none)
    else if !s.alive t a then (.notReady, none)
    else (.ok, some t)

/-- The refusals of the fabric itself are logged (rules R28, R29 and R33). -/
def Dev.logReach (s : Dev) (ini a : Nat) : Status → Dev
  | .unmapped => s.logFab SYS_FAB_STATUS_UNMAPPED Status.unmapped.code a ini (classOf ini)
  | .routeDenied => s.logFab SYS_FAB_STATUS_ROUTE_DENIED Status.routeDenied.code a ini (classOf ini)
  | _ => s

/-- An access of an initiator to the register at `a`: `f` where it reaches the window, answering a status and a word; else
the refusal of rules R28, R29 and R31, a core taking an access fault where no target was reached. -/
def Dev.guarded (s : Dev) (ini a : Nat) (f : Dev → Dev × Status × Nat) : Dev :=
  match s.reach ini a with
  | (_, some _) => let r := f s; r.1.reply ini a r.2.1 r.2.2
  | (st, none) => (s.logReach ini a st).answer ini a st (leBytes 4 0) (isCore ini && st != .notReady)

/-- A write of an initiator to the register at `a` that always completes with OK once it reaches its window. -/
def Dev.cmdAt (s : Dev) (ini a : Nat) (f : Dev → Dev) : Dev := s.guarded ini a fun s => (f s, .ok, 0)

/-- The consumer's check of a unit that came over the fabric (rule R24): a darn is counted, an UNCORRECTABLE unit logged. A darn
has no status code of its own and leaves 0x00 in LAST_CODE (assumption log 55). -/
def Dev.countTransit (s : Dev) (ini a o : Nat) : Dev :=
  match o with
  | 2 => (s.bump SYS_FAB_DARN_COUNT_COUNT).logFab SYS_FAB_STATUS_TRANSIT_DARN 0 a ini (classOf ini)
  | 3 => s.logFab SYS_FAB_STATUS_TRANSIT_UNCORR Status.uncorrectable.code a ini (classOf ini)
  | _ => s

/-- The stored unit behind address `a` of target `t`; the boot ROM is not in storage. -/
def Dev.fetchUnit (s : Dev) (t : Target) (a : Nat) : Unit8 :=
  match t with
  | .rom => woven (BitVec.ofNat 64 (ofLe ((List.range 8).map fun i => Config.bootRom (a - 0x08000000 + i))))
  | _ => s.unitAt (s.place t a)

/-- One unit is read at `a`, a multiple of 8: the state, the status, the unit as it reaches the consumer, and the fault
unit whose memory delivered an UNCORRECTABLE unit. The memory counts what it read (rule R331), and the consumer checks and
counts what arrives, check bytes of the memory included (rules R23 and R24). The address logged is that of the unit
(assumption log 55). A register window answers with the words of the unit (rule R32). -/
def Dev.readUnit (s : Dev) (ini a : Nat) (d : BitVec 64) (c : BitVec 16) : Dev × Status × Unit8 × Option Nat :=
  match s.reach ini a with
  | (_, some (.win _)) =>
    let r := s.wordOut a
    let q := r.1.wordOut (a + 4)
    let v := (woven (BitVec.ofNat 64 (r.2 + 2 ^ 32 * q.2))).flip d c
    (q.1.countTransit ini a v.outcome, if v.outcome = 3 then .uncorrectable else .ok,
     if v.outcome = 3 then v else { v with data := v.delivered }, none)
  | (_, some t) =>
    let u := s.fetchUnit t a
    let s := s.countRead t a u.outcome
    let v := u.flip d c
    let s := s.countTransit ini a v.outcome
    (s, if v.outcome = 3 then .uncorrectable else .ok, if v.outcome = 3 then v else { v with data := v.delivered },
     if v.outcome = 3 then t.unit else none)
  | (st, none) => (s.logReach ini a st, st, woven 0, none)

/-- The status that is reported where several apply: the lowest code that is not OK (chapter 00, "Status codes"). -/
def worse (a b : Status) : Status :=
  if a = .ok then b else if b = .ok then a else if a.code ≤ b.code then a else b

/-- The lowest code among the failing conditions of a list, OK where none fails (chapter 00, "Status codes"). -/
def lowestOf (l : List (Bool × Status)) : Status := l.foldl (fun a c => if c.1 then worse a c.2 else a) .ok

/-- One unit is written whole at `a` (rule R25): a darned unit is stored corrected, an UNCORRECTABLE one as it came. A
store to flash reaches nothing (rule R376), a write to the save memory is ignored (rule R411), a unit for a register window
is written to its two words unless it came UNCORRECTABLE (rules R8, R24 and R32). -/
def Dev.writeUnit (s : Dev) (ini a : Nat) (u : Unit8) : Dev × Status :=
  match s.reach ini a with
  | (_, some (.flash _)) => (s, Config.flashStore)
  | (_, some .rom) => (s, .ok)
  | (_, some .save) => (s, .ok)
  | (_, some (.win _)) =>
    let s := s.countTransit ini a u.outcome
    if u.outcome = 3 then (s, .uncorrectable)
    else
      let r := s.wordIn ini a (u.delivered.toNat % 2 ^ 32)
      let q := r.1.wordIn ini (a + 4) (u.delivered.toNat / 2 ^ 32)
      (q.1, worse r.2 q.2)
  | (_, some t) =>
    let s := if u.outcome = 2 ∨ u.outcome = 3 then s.countTransit ini a u.outcome else s
    ((s.breakResv ini (s.place t a)).setUnitAt (s.place t a) u.passed, if u.outcome = 3 then .uncorrectable else .ok)
  | (st, none) => (s.logReach ini a st, st)

/-- The bytes `new` replace bytes `o …` of a unit. -/
def mergeBytes (u : BitVec 64) (o : Nat) (new : List Byte) : BitVec 64 :=
  BitVec.ofNat 64 (ofLe (putAt (leBytes 8 u.toNat) o new))

/-- Fewer than 8 bytes are written into the unit at `a`, from its byte `o` on (rule R26): the stored unit is darned and
merged, or the write refused where it is UNCORRECTABLE. Of a register window the words covered whole are written
(assumption log 20). -/
def Dev.mergeUnit (s : Dev) (ini a o : Nat) (new : List Byte) : Dev × Status × Option Nat :=
  match s.reach ini a with
  | (_, some (.flash _)) => (s, Config.flashStore, none)
  | (_, some .rom) => (s, .ok, none)
  | (_, some .save) => (s, .ok, none)
  | (_, some (.win _)) =>
    let v := (mergeBytes 0 o new).toNat
    let r := if o = 0 ∧ 4 ≤ new.length then s.wordIn ini a (v % 2 ^ 32) else (s, .ok)
    let q := if o ≤ 4 ∧ o + new.length = 8 then r.1.wordIn ini (a + 4) (v / 2 ^ 32) else (r.1, .ok)
    (q.1, worse r.2 q.2, none)
  | (_, some t) =>
    let u := s.fetchUnit t a
    let s := s.countRead t a u.outcome
    if u.outcome = 3 then (s, .uncorrectable, t.unit)
    else ((s.breakResv ini (s.place t a)).setUnitAt (s.place t a) (woven (mergeBytes u.delivered o new)), .ok, none)
  | (st, none) => (s.logReach ini a st, st, none)

/-- Bytes are written from address `a` on, unit by unit in address order; the status is the worst met, the list holds
the fault unit and address of every UNCORRECTABLE unit met. `n` bounds the number of units. -/
def Dev.store (s : Dev) (ini : Nat) : Nat → Nat → List Byte → Dev × Status × List (Nat × Nat)
  | 0, _, _ => (s, .ok, [])
  | n + 1, a, l =>
    if l = [] then (s, .ok, [])
    else
      let o := a % 8
      let now := l.take (8 - o)
      let r := if now.length = 8 then
          let w := s.writeUnit ini a (woven (BitVec.ofNat 64 (ofLe now)))
          (w.1, w.2, (none : Option Nat))
        else s.mergeUnit ini (a / 8 * 8) o now
      let q := Dev.store r.1 ini n (a - o + 8) (l.drop (8 - o))
      (q.1, worse r.2.1 q.2.1, (match r.2.2 with | some u => [(u, a / 8 * 8)] | none => []) ++ q.2.2)

/-- `n` units are read from the unit that holds `a` on: the state, the worst status, the data and the fault units met. -/
def Dev.load (s : Dev) (ini : Nat) : Nat → Nat → Dev × Status × List Byte × List (Nat × Nat)
  | 0, _ => (s, .ok, [], [])
  | n + 1, a =>
    let r := s.readUnit ini (a / 8 * 8) 0 0
    let q := Dev.load r.1 ini n (a / 8 * 8 + 8)
    (q.1, worse r.2.1 q.2.1, leBytes 8 r.2.2.1.data.toNat ++ q.2.2.1,
     (match r.2.2.2 with | some u => [(u, a / 8 * 8)] | none => []) ++ q.2.2.2)

/-- A range of storage is scrubbed: zero data with valid check bytes (rule R328). -/
def Dev.scrub (s : Dev) (k n : Nat) : Dev :=
  { s with mem := s.mem.filter (fun c => decide (c.1 < k) || decide (k + n ≤ c.1)),
           chk := s.chk.filter (fun c => decide (c.1 < 2 * (k / 8)) || decide (2 * ((k + n) / 8) ≤ c.1)) }

/-- Storage of flash set to ones with valid check bytes, as an erase leaves it (Table 09-2). -/
def Dev.blank (s : Dev) (k n : Nat) : Dev := s.scrub k n

end Sys2Proof.Machine
end

