-- ==== Sys2Proof/Machine/Pre.lean ====
section
/-!
DEFINITION. Operations below the fault rules: rings in frame memory, the receive descriptor pool, reception reports, and
what a retirement does inside one block. Memory is reached here without a fault charge.
-/

namespace Sys2Proof.Machine

/-! ### Rings (rules R141, R142, R182) -/

/-- The ENTRIES a written size stands for: 0 off, else 16 to `top`, rounded down to a power of two. -/
def ringSize (top v : Nat) : Nat := if v = 0 then 0 else 2 ^ Nat.log2 (min (max v 16) top)

/-- Is there an entry free for a reservation: at most ENTRIES - 1 reports, reserved entries counted as occupied? -/
def ringFree (entries wr rd resv : Nat) : Bool :=
  entries != 0 && decide ((wr + entries - rd % entries) % entries + resv + 1 < entries)

/-- Bytes are written by an engine of the device, ignoring the status of the write. -/
def Dev.stow (s : Dev) (ini a : Nat) (l : List Byte) : Dev := (s.store ini (l.length + 1) a l).1

/-- The eight bytes of the unit at `a` as initiator `ini` gets them: darned, and zero where its access reaches nothing (rules R24,
R28, R29 and R31). -/
def Dev.unitSeen (s : Dev) (ini a : Nat) : List Byte :=
  match s.reach ini a with
  | (_, some (.win _)) => leBytes 4 (s.reg a).toNat ++ leBytes 4 (s.reg (a + 4)).toNat
  | (_, some t) => leBytes 8 (s.fetchUnit t a).delivered.toNat
  | (_, none) => leBytes 8 0

/-- The number that `n` bytes at address `a` hold as initiator `ini` reads them. The value alone: what such a read counts and
logs is `Dev.touch`, once for each command (assumption log 12). -/
def Dev.peek (s : Dev) (ini a n : Nat) : Nat :=
  fieldAt ((List.range ((a % 8 + n + 7) / 8)).flatMap fun i => s.unitSeen ini (a / 8 * 8 + 8 * i)) (a % 8) n

/-- The `n` bytes at address `a` as initiator `ini` reads them. -/
def Dev.peekBytes (s : Dev) (ini a n : Nat) : List Byte := leBytes n (s.peek ini a n)

/-- The report ring of link engine `k`: can an entry be reserved? -/
def Dev.rqFree (s : Dev) (k : Nat) : Bool :=
  let r := ringGet s.bank.rings k
  !r.off && ringFree (s.rd (SLV_RQ_SIZE_ENTRIES k)) (s.rd (SLV_RQ_WR_WR k)) (s.rd (SLV_RQ_RD_RD k)) r.resv

/-- An entry of report ring `k` is reserved. -/
def Dev.rqReserve (s : Dev) (k : Nat) : Dev :=
  let r := ringGet s.bank.rings k
  { s with bank := { s.bank with rings := ringPut s.bank.rings k { r with resv := r.resv + 1 } } }

/-- A ring being turned off turns off once nothing reserved is left (rule R142). -/
def Dev.rqSettle (s : Dev) (k : Nat) : Dev :=
  let r := ringGet s.bank.rings k
  if r.off ∧ r.resv = 0 then
    let s := { s with bank := { s.bank with rings := ringPut s.bank.rings k .init } }
    ((s.wr (SLV_RQ_SIZE_ENTRIES k) 0).wr (SLV_RQ_WR_WR k) 0).wr (SLV_RQ_RD_RD k) 0
  else s

/-- A reserved entry of report ring `k` is no longer reserved. -/
def Dev.rqRelease (s : Dev) (k : Nat) : Dev :=
  let r := ringGet s.bank.rings k
  { s with bank := { s.bank with rings := ringPut s.bank.rings k { r with resv := r.resv - 1 } } }.rqSettle k

/-- All 64 bytes of a report are written and WR advances (rule R136); a ring that went off under rule R235 takes none. -/
def Dev.rqWrite (s : Dev) (k : Nat) (rep : List Byte) : Dev :=
  let e := s.rd (SLV_RQ_SIZE_ENTRIES k)
  let w := s.rd (SLV_RQ_WR_WR k)
  if e = 0 then s.rqRelease k
  else
    let s := s.stow 0x0D (s.rd (SLV_RQ_BASE_ADDR k) * 64 + w * 64) rep
    (s.wr (SLV_RQ_WR_WR k) ((w + 1) % e)).rqRelease k

/-- A write of ENTRIES to report ring `k` (rule R142). -/
def Dev.rqSizeWrite (s : Dev) (k v : Nat) : Dev :=
  let r := ringGet s.bank.rings k
  let n := v % 65536
  if s.rd (SLV_RQ_SIZE_ENTRIES k) = 0 then
    if n = 0 then s
    else ((s.wr (SLV_RQ_SIZE_ENTRIES k) (ringSize 1024 n)).wr (SLV_RQ_WR_WR k) 0).wr (SLV_RQ_RD_RD k) 0
  else if n = 0 then
    { s with bank := { s.bank with rings := ringPut s.bank.rings k { r with off := true } } }.rqSettle k
  else s.set SLV_EVENTS_RING_WRITE_IGNORED

/-! ### Completion rings of a transmit path (rules R180 and R182) -/

/-- Completion ring `k` of path `p` takes a record. -/
def Dev.cqSet (s : Dev) (p k : Nat) (r : RingSt) : Dev :=
  s.setPath p { s.path p with rings := ringPut (s.path p).rings k r }

/-- Can an entry of completion ring `k` of path `p` be reserved? -/
def Dev.cqFree (s : Dev) (p k : Nat) : Bool :=
  let r := ringGet (s.path p).rings k
  !r.off && ringFree (s.rd (TXP_CQ_SIZE_ENTRIES p k)) (s.rd (TXP_CQ_WR_WR p k)) (s.rd (TXP_CQ_RD_RD p k)) r.resv

/-- An entry is reserved. -/
def Dev.cqReserve (s : Dev) (p k : Nat) : Dev :=
  let r := ringGet (s.path p).rings k
  s.cqSet p k { r with resv := r.resv + 1 }

/-- A completion ring being turned off turns off once nothing reserved is left. -/
def Dev.cqSettle (s : Dev) (p k : Nat) : Dev :=
  let r := ringGet (s.path p).rings k
  if r.off ∧ r.resv = 0 then
    (((s.cqSet p k .init).wr (TXP_CQ_SIZE_ENTRIES p k) 0).wr (TXP_CQ_WR_WR p k) 0).wr (TXP_CQ_RD_RD p k) 0
  else s

/-- All 32 bytes of a completion report are written and WR advances (rule R180); a ring that went off under rule R235 takes none. -/
def Dev.cqWrite (s : Dev) (p k : Nat) (rep : List Byte) : Dev :=
  let e := s.rd (TXP_CQ_SIZE_ENTRIES p k)
  let w := s.rd (TXP_CQ_WR_WR p k)
  let r := ringGet (s.path p).rings k
  let s := if e = 0 then s
    else (s.stow (0x0E + p) (s.rd (TXP_CQ_BASE_ADDR p k) * 32 + w * 32) rep).wr (TXP_CQ_WR_WR p k) ((w + 1) % e)
  (s.cqSet p k { r with resv := r.resv - 1 }).cqSettle p k

/-- A write of ENTRIES to completion ring `k` of path `p` (rule R182). -/
def Dev.cqSizeWrite (s : Dev) (p k v : Nat) : Dev :=
  let r := ringGet (s.path p).rings k
  let n := v % 65536
  if s.rd (TXP_CQ_SIZE_ENTRIES p k) = 0 then
    if n = 0 then s
    else ((s.wr (TXP_CQ_SIZE_ENTRIES p k) (ringSize 256 n)).wr (TXP_CQ_WR_WR p k) 0).wr (TXP_CQ_RD_RD p k) 0
  else if n = 0 then (s.cqSet p k { r with off := true }).cqSettle p k
  else s.set (TXP_EVENTS_RING_WRITE_IGNORED p)

/-! ### Partner entries (rule R239) -/

/-- Address of partner entry `i`. -/
def partnerAddr (i : Nat) : Nat := 0x201C0000 + i * 64

/-- The aerial a path follows for a partner: the last good receive aerial, or A for a broadcast or a partner with no
record (rule R88). -/
def Dev.partnerAerial (s : Dev) (i : Nat) : Nat :=
  let f := s.peek 0x0C (partnerAddr i + 0x0D) 1
  if i < 4096 ∧ bitOf f 2 then bits f 3 1 else 0

/-- The first slot of a key (rule R240). -/
def keyHash (key : List Byte) : Nat := crc16 0xFFFF key % 8192

/-- The entry that the key index finds for a key, among its eight slots (rule R240). -/
def Dev.ptFind (s : Dev) (key : List Byte) : Option Nat :=
  ((List.range 8).findSome? fun i =>
    s.ml.keys.find? fun e => e.1 == (keyHash key + i) % 8192 && e.2.1 == key).map (·.2.2)

/-- A lookup in the partner table control: a miss is counted. -/
def Dev.ptLookup (s : Dev) (key : List Byte) : Dev × Option Nat :=
  match s.ptFind key with
  | some i => (s, some i)
  | none => (s.bump PT_CNT_MISS_COUNT, none)

/-- The physical link engine whose range contains a partner index. -/
def Dev.leOfPartner (s : Dev) (i : Nat) : Option Nat :=
  (List.range 6).find? fun k =>
    decide (s.rd (LE_RANGE_FIRST k) ≤ i) && decide (i < s.rd (LE_RANGE_FIRST k) + s.rd (LE_RANGE_COUNT k))

/-! ### The receive descriptor pool (rules R267 to R273) -/

/-- The range, and with it the quota, that physical link engine `k` serves (rule R280). -/
def Dev.rangeOf (s : Dev) (k : Nat) : Nat := (s.eng k).range.getD k

/-- The record of descriptor `i`. -/
def Dev.desc (s : Dev) (i : Nat) : PoolDesc := mapGet (fun _ => PoolDesc.init) s.pool i

/-- Descriptor `i` takes a record. -/
def Dev.setDesc (s : Dev) (i : Nat) (v : PoolDesc) : Dev :=
  { s with pool := mapPut (fun _ => PoolDesc.init) s.pool i v }

/-- The buffer size BUF_SIZE names, in octets (Table 07-26). -/
def Dev.bufSize (s : Dev) : Nat := 256 * 2 ^ min (s.rd ML_POOL_CFG_BUF_SIZE) 3

/-- The control reservation not yet held. -/
def Dev.poolNeed (s : Dev) : Nat := s.rd ML_POOL_RES_CONTROL_RES - s.rd ML_POOL_STATUS_CONTROL_HELD

/-- The indices of free descriptors. -/
def Dev.freeDescs (s : Dev) : List Nat :=
  (List.range (min (s.rd ML_POOL_CFG_COUNT) 2048)).filter fun i => (s.desc i).holder == .free

/-- ML_EVENTS.POOL_BUSY is set when FREE falls below BUSY_TH (Table 07-20). -/
def Dev.poolBusy (s : Dev) : Dev :=
  let low := decide (s.rd ML_POOL_STATUS_FREE < s.rd ML_POOL_RES_BUSY_TH)
  let s := if low ∧ !s.ml.busyWas then s.set ML_EVENTS_POOL_BUSY else s
  { s with ml := { s.ml with busyWas := low } }

/-- The pool grants or refuses a descriptor to link engine `k` (rule R268). Which free descriptor it grants is an open
value (rule R267). -/
def Dev.poolRequest (s : Dev) (k : Nat) (control : Bool) (len : Nat) : Dev × Option Nat :=
  let free := s.freeDescs
  let grant := s.on ML_CFG_ENABLE && decide (len ≤ s.bufSize) &&
    (if control then decide (0 < free.length)
     else decide (s.poolNeed < free.length) && decide (s.rd (ML_POOL_QUOTA_HELD k) < min 2048 (s.rd (ML_POOL_QUOTA_QUOTA k))))
  match grant, free[s.freeVal 11 % free.length]? with
  | true, some i =>
    let s := (s.drew.setDesc i { PoolDesc.init with holder := .engine, le := k, control := control })
    let s := (s.wr ML_POOL_STATUS_FREE (free.length - 1)).add (ML_POOL_QUOTA_HELD k) 1
    let s := if control then s.add ML_POOL_STATUS_CONTROL_HELD 1 else s
    (s.poolBusy, some i)
  | _, _ =>
    (if control then (s.bump ML_CNT_CTRL_DROP_COUNT).set ML_EVENTS_CTRL_DROP
     else (s.bump ML_CNT_POOL_DROP_COUNT).set ML_EVENTS_POOL_DROP, none)

/-- A descriptor returns to the pool. -/
def Dev.poolFree (s : Dev) (i : Nat) : Dev :=
  let d := s.desc i
  if d.holder = .free then s
  else
    let s := ((s.setDesc i .init).add ML_POOL_STATUS_FREE 1).poolBusy
    let s := s.wr (ML_POOL_QUOTA_HELD d.le) (s.rd (ML_POOL_QUOTA_HELD d.le) - 1)
    if d.control then s.wr ML_POOL_STATUS_CONTROL_HELD (s.rd ML_POOL_STATUS_CONTROL_HELD - 1) else s

/-- Address of the buffer of descriptor `i` (rule R267). -/
def Dev.bufAddr (s : Dev) (i : Nat) : Nat := s.rd ML_POOL_BASE_ADDR * 256 + i * s.bufSize

/-! ### Chains and look-back rings (rules R70, R75 to R77 and R130) -/

/-- Is the band in narrow mode? -/
def Dev.narrow (s : Dev) (b : Nat) : Bool := s.rd (RF_CHAINS_A_MODE b) == 2 || s.rd (RF_CHAINS_B_MODE b) == 2

/-- Is chain `c` of band `b` on, its aerial in service? -/
def Dev.chainOn (s : Dev) (b c : Nat) : Bool :=
  s.up (8 + b) &&
    (if c = 0 then s.on (RF_CHAINS_A_ON b) && s.on (RF_CHAINS_A_MODE b) && !s.on (RF_STATE_A_RETIRED b)
     else s.on (RF_CHAINS_B_ON b) && s.on (RF_CHAINS_B_MODE b) && !s.on (RF_STATE_B_RETIRED b))

/-- The present step of a chain. -/
def stepFld (b c : Nat) : Fld := if c = 0 then RF_GAIN_A_STEP b else RF_GAIN_B_STEP b

/-- Samples that the ring of a chain holds (rule R75). -/
def Dev.ringSamples (s : Dev) (b : Nat) : Nat := if s.narrow b then 4096 else if b = 0 then 32768 else 102400

/-- The depth of every ring in counts: 1,024 us (rule R75). -/
def ringDepth : Nat := 8192

/-- How long ago a time was, in counts. -/
def Dev.age (s : Dev) (t : Nat) : Nat := (s.now + 2 ^ 48 - t % 2 ^ 48) % 2 ^ 48

/-- Is the sample that chain `c` took `age` counts ago marked, or was none taken (rule R76)? -/
def Dev.marked (s : Dev) (b c age : Nat) : Bool :=
  let r := s.ring b c
  (r.off.any fun t => decide (age ≤ s.age t)) || r.marks.any fun m => decide (s.age m.2 < age) && decide (age ≤ s.age m.1)

/-- The ring of chain `c` follows the chain: samples are marked while the band is blanked, retunes, is calibrated or does not
receive, and during a calibration item on the chain (rule R76; a chain gated or off takes none, assumption log 57). -/
def Dev.ringNote (s : Dev) (b c : Nat) : Dev :=
  let r := s.ring b c
  let good := s.chainOn b c && s.rd (RF_STATE_STATE b) == 4 && s.rd (RF_STATE_CAL_ITEM b) != c + 1
  match r.off with
  | some t =>
    if good then
      s.setRing b c { off := none, marks := (t, s.now) :: r.marks.filter fun m => decide (s.age m.2 < ringDepth) }
    else s
  | none => if good then s else s.setRing b c { r with off := some s.now }

/-- Both rings of a band follow their chains. -/
def Dev.ringsNote (s : Dev) (b : Nat) : Dev := (s.ringNote b 0).ringNote b 1

/-- The band takes a state; in a sniff window its listen time counts from LISTEN (rule R422). -/
def Dev.bandState (s : Dev) (b st : Nat) : Dev :=
  let s := (s.wr (RF_STATE_STATE b) st).ringsNote b
  if st = 4 ∧ s.mnt.stage = .window then s.mark .listen else s

/-- The first usable sample of chain `c` at or after `age` counts ago and before live, as an age (rule R130). -/
def Dev.usableFrom (s : Dev) (b c age : Nat) : Option Nat :=
  let l := (age :: ((s.ring b c).marks.map fun m => s.age m.2)).filter fun x =>
    decide (1 ≤ x) && decide (x ≤ age) && !s.marked b c x
  l.foldl (fun r x => match r with
    | some y => some (max x y)
    | none => some x) none

/-- Marked samples of chain `c` in the window of the last `len` counts, in counts; the ring holds none older than its depth
(rules R75 and R178). -/
def Dev.markedIn (s : Dev) (b c len : Nat) : Nat :=
  let r := s.ring b c
  (r.off.elim 0 fun t => min (s.age t) len) + (r.marks.map fun m => min (s.age m.1) len - min (s.age m.2) len).sum +
    (len - ringDepth)

/-! ### Reports and the end of a frame (rules R134 to R140) -/

/-- Physical sleeve that carries assignment `n`. -/
def Dev.phys (s : Dev) (n : Nat) : Nat := s.rd (SLV_ASSIGN_PHYS n)

/-- A number of the given width, from a signed one. -/
def twos (w : Nat) (x : Int) : Nat := unsigned w x

/-- LQI of a SNR in 0.01 dB: eight times the dB, rounded down, 0 to 255 (rule R139). -/
def lqiOf (snr : Int) : Nat := min 255 (8 * snr / 100).toNat

/-- The 64 bytes of a receive report (Table 04-5a); the gain step at the end of the frame is the present one of its chain. -/
def reportBytes (s : Dev) (n : Nat) (f : RxFrame) (st : Status) (rxLen : Nat) (m : EndMeas) : List Byte :=
  let mode := s.rd (SLV_ASSIGN_MODE n)
  let flag (b : Bool) (v : Nat) : Nat := if b then v else 0
  let flags := f.branch + flag f.diversity 2 + flag f.gainStep 4 + flag f.fromRing 8 +
    flag f.lined 16 + flag f.coded 32 + flag f.white 64 + flag f.trunc 128
  let rate := if mode = 0 then s.rd (SLV_FSK_RATE n) + 8 * s.rd (SLV_FSK_LEVELS n)
    else if mode = 2 then s.rd (SLV_OFDM_OPTION n) + 16 * f.mcs else 0
  leBytes 1 st.code ++ leBytes 1 flags ++ leBytes 1 n ++ leBytes 1 (f.le + 64 * f.reason) ++
  leBytes 2 f.psduLen ++ leBytes 2 rxLen ++ leBytes 8 f.tsRef ++
  leBytes 2 (if st = Status.ok then f.desc.getD 0xFFFF else 0xFFFF) ++ leBytes 2 f.partner ++
  leBytes 4 (s.rd (SLV_CHAN_CHANNEL_KHZ n)) ++ leBytes 1 rate ++ leBytes 1 f.errs ++
  leBytes 2 (twos 16 f.rssi) ++ leBytes 1 (twos 8 f.rssiA) ++ leBytes 1 (twos 8 f.rssiB) ++ leBytes 1 (twos 8 f.noise) ++
  leBytes 1 (lqiOf m.snr) ++ leBytes 4 (twos 32 m.freqOff) ++ leBytes 2 (twos 16 m.clockOff) ++
  leBytes 1 (f.gain % 16 + 16 * s.rd (stepFld (s.rd (SLV_ASSIGN_BAND n) - 1) f.branch)) ++ [0] ++ (f.phr ++ [0, 0, 0, 0]).take 4 ++ leBytes 4 0 ++
  leBytes 8 f.tsDetect ++ leBytes 8 0

/-- The assignment takes a sleeve state; IN_FRAME shows states 3 to 6 (Table 04-16). -/
def Dev.slvState (s : Dev) (n st : Nat) : Dev :=
  (s.wr (SLV_STATE_STATE n) st).put (SLV_STATE_IN_FRAME n) (decide (3 ≤ st) && decide (st ≤ 6))

/-- Deferred writes of an assignment take effect together (rule R115). -/
def Dev.slvApply (s : Dev) (n : Nat) : Dev :=
  let v := s.sleeve n
  let s := s.each v.waiting fun s p => s.setReg p.1 (BitVec.ofNat 32 p.2)
  (s.setSleeve n { v with waiting := [] }).clr (SLV_CHAN_PENDING n)

/-- The band an assignment listens to: 0 sub-GHz, 1 ISM; meaningful where BAND is not 0. -/
def Dev.slvBand (s : Dev) (n : Nat) : Nat := s.rd (SLV_ASSIGN_BAND n) - 1

/-- Does the assignment search now: enabled, and armed where it waits for an arm (rule R117)? -/
def Dev.slvWants (s : Dev) (n : Nat) : Bool :=
  s.on (SLV_CTRL_ENABLE n) && (!s.on (SLV_CTRL_SLOT_ARMED n) || s.on (SLV_ROUTE_ARMED n) || (s.sleeve n).released)

/-- The state an assignment enters when it leaves a frame or a hold (Table 04-6): OFF without a band or with its domain off (rule
R148), and from OFF until the band is LISTEN; UNSERVED without a carrier; HELD while its band is blanked, retuning or idle; else
SEARCH or IDLE, IDLE by way of SEARCH within the same command where the table lists no direct move (assumption log 57). -/
def Dev.slvRest (s : Dev) (n : Nat) : Nat :=
  let b := s.slvBand n
  if s.rd (SLV_ASSIGN_BAND n) = 0 ∨ !s.up (8 + b) then 0
  else if s.on (SLV_ASSIGN_UNSERVED n) then 11
  else if s.on (SLV_ASSIGN_SPARE n) then (if s.rd (SLV_STATE_STATE n) = 10 then 10 else 9)
  else
    if s.rd (RF_STATE_STATE b) = 10 ∨ s.rd (SLV_STATE_STATE n) = 0 ∧ s.rd (RF_STATE_STATE b) ≠ 4 then 0
    else if s.bank.restarting.contains (s.phys n) ∨ s.on (RF_STATE_BLANK b) ∨ s.rd (RF_STATE_STATE b) ≠ 4 then 8
    else if s.slvWants n then 2 else 1

/-- The assignment leaves its frame: deferred writes apply, and it rests (rules R114, R115 and R117). -/
def Dev.slvLeave (s : Dev) (n : Nat) : Dev :=
  let s := s.setSleeve n { s.sleeve n with frame := none, research := false, trunc := false }
  let s := (s.slvApply n).clr (SLV_STATE_FROM_RING n)
  s.slvState n (s.slvRest n)

/-- The place of a status in the list of rule R137; none where the list does not name it. -/
def endRank (st : Status) : Option Nat :=
  match st with
  | .aborted => some 0
  | .synthUnlock => some 1
  | .bandBlanked => some 2
  | .samplesLost => some 3
  | _ => none

/-- A second event of rule R137 in the tick in which a frame has ended: the status listed first stands in its report. -/
def Dev.slvRankEnd (s : Dev) (n : Nat) (st : Status) : Dev :=
  match (s.sleeve n).ended, endRank st with
  | some (t, a, r), some q =>
    if t = s.now ∧ q < r then
      ((s.stow 0x0D a (leBytes 1 st.code)).wr (SLV_STATE_LAST_STATUS n) st.code).setSleeve n
        { s.sleeve n with ended := some (t, a, q) }
    else s
  | _, _ => s

/-- A frame that passed its header ends with a status: its report is written where an entry was reserved, and a
descriptor goes back to the pool unless the status is OK (rules R137 and R138). One that has not passed its header gets no
report. -/
def Dev.slvEnd (s : Dev) (n : Nat) (st : Status) (rxLen : Nat) (m : EndMeas) : Dev :=
  match (s.sleeve n).frame with
  | none => s
  | some f =>
    let s := if st = .bandBlanked then s.bump (SLV_CNT_BLANKED_COUNT n) else s
    let s := match f.ring with
      | some k =>
        let a := s.rd (SLV_RQ_BASE_ADDR k) * 64 + s.rd (SLV_RQ_WR_WR k) * 64
        let s := (s.rqWrite k (reportBytes s n f st rxLen m)).wr (SLV_STATE_LAST_STATUS n) st.code
        s.setSleeve n { s.sleeve n with ended := (endRank st).map fun r => (s.now, a, r) }
      | none => s
    let s := match f.desc with
      | some i => if st = Status.ok then s else s.poolFree i
      | none => s
    s.slvLeave n

/-- The sample time a sleeve works on: the present, or the read point of its re-search, which moves at four times real time
until it reaches live (rule R131). -/
def Dev.readPoint (s : Dev) (n : Nat) : Nat :=
  let v := s.sleeve n
  if v.research ∧ 4 * s.age v.began < s.age v.start then tsAdd v.start (4 * s.age v.began : Nat) else s.now

/-- The octets of the payload that the sleeve has received by now, at most the whole (rule R138): none before the payload. -/
def Dev.rxOctets (s : Dev) (n : Nat) (f : RxFrame) : Nat :=
  let mode := s.rd (SLV_ASSIGN_MODE n)
  let a := if mode = 0 then s.rd (SLV_FSK_RATE n) + 8 * s.rd (SLV_FSK_LEVELS n) + (if f.coded then 16 else 0) +
      64 * s.rd (SLV_FSK_INTERLEAVE n)
    else s.rd (SLV_OFDM_OPTION n) + 16 * f.mcs
  if s.rd (SLV_STATE_STATE n) = 6 then min f.psduLen (octetsBy mode a (tsDiff (s.readPoint n) f.tsRef).toNat) else 0

/-- A re-search without a frame ends, and the sleeve works on live samples (rule R133). -/
def Dev.slvQuit (s : Dev) (n : Nat) : Dev :=
  (s.setSleeve n { s.sleeve n with research := false, trunc := false }).clr (SLV_STATE_FROM_RING n)

/-- A frame, or a re-search, ends inside another command, whose operands carry none of the measurements that a frame's end takes: they are open.
RX_LEN counts the octets received (rule R138). -/
def Dev.slvBreak (s : Dev) (n : Nat) (st : Status) : Dev :=
  match (s.sleeve n).frame with
  | none => (if (s.sleeve n).research then s.slvQuit n else s).slvRankEnd n st
  | some f =>
    let r (k : Nat) : Nat := Config.free (s.freeCtr + k)
    (s.drewN 3).slvEnd n st (s.rxOctets n f) { snr := r 0, freqOff := r 1, clockOff := r 2 }

/-- Does the frame in progress on assignment `n` stand on aerial `c` of its band (rule R79)? Before its diversity decision it
stands on both (assumption log 57). -/
def Dev.inFrameOn (s : Dev) (b c n : Nat) : Bool :=
  s.rd (SLV_ASSIGN_BAND n) == b + 1 && s.on (SLV_STATE_IN_FRAME n) &&
    (match (s.sleeve n).frame with
     | some f => f.branch == c || (decide (s.rd (SLV_STATE_STATE n) = 3) && s.rd (SLV_ASSIGN_AERIAL n) == 0)
     | none => false)

/-- Every assignment of band `b` (Table 04-7). -/
def Dev.ofBand (s : Dev) (b : Nat) : List Nat := (List.range 32).filter fun n => s.rd (SLV_ASSIGN_BAND n) == b + 1

/-- Every frame in progress on a band ends with a status, and its sleeves take the state they rest in. -/
def Dev.endBand (s : Dev) (b : Nat) (st : Status) : Dev :=
  s.each (s.ofBand b) fun s n => s.slvBreak n st

/-- Every assignment of a band takes the state it rests in, where it is not inside a frame. -/
def Dev.restBand (s : Dev) (b : Nat) : Dev :=
  s.each (s.ofBand b) fun s n => if s.on (SLV_STATE_IN_FRAME n) then s else s.slvState n (s.slvRest n)

end Sys2Proof.Machine
end

