-- ==== Sys2Proof/Machine/Switch.lean ====
section
/-!
DEFINITION. The three-port switch (chapter 12): the fields of a frame, classification, the egress queues of the two wired
ports, the frames the device makes itself, and ring and dual-homed operation (rules R436 to R445). Port 0 is WL0, port 1
WL1, port 2 the internal port.
-/

namespace Sys2Proof.Machine

/-! ### Frames -/

/-- A big-endian field of a frame. -/
def beAt (l : List Byte) (off n : Nat) : Nat := ofBe ((l.drop off).take n)

/-- Does the frame carry a tag: TPID 0x8100 only (rule R436)? -/
def tagged (l : List Byte) : Bool := beAt l 12 2 == 0x8100

/-- The TCI of a tagged frame. -/
def tciOf (l : List Byte) : Nat := beAt l 14 2

/-- Where the EtherType of a frame stands. -/
def typeAt (l : List Byte) : Nat := if tagged l then 16 else 12

/-- The EtherType, behind the tag where there is one. -/
def etherType (l : List Byte) : Nat := beAt l (typeAt l) 2

/-- What follows the EtherType. -/
def payload (l : List Byte) : List Byte := l.drop (typeAt l + 2)

/-- Destination and source address. -/
def dstOf (l : List Byte) : List Byte := l.take 6
def srcOf (l : List Byte) : List Byte := (l.drop 6).take 6

/-- The broadcast address. -/
def bcast : List Byte := List.replicate 6 0xFF

/-- Is the destination a group address? -/
def isGroup (l : List Byte) : Bool := bitOf (fieldAt l 0 1) 0

/-- A frame with a tag behind its source address. -/
def addTag (l : List Byte) (tci : Nat) : List Byte := l.take 12 ++ beBytes 2 0x8100 ++ beBytes 2 tci ++ l.drop 12

/-- A frame of the device, filled with zeros to the 60 octets of the shortest frame. -/
def padded (l : List Byte) : List Byte := l ++ List.replicate (60 - l.length) 0

/-- FSW_MAC and FSW_HOST_MAC as six octets, the first sent in the low byte. -/
def Dev.fswMac (s : Dev) : List Byte := leBytes 4 (s.rd FSW_MAC_LO_MAC) ++ leBytes 2 (s.rd FSW_MAC_HI_MAC)
def Dev.hostMac (s : Dev) : List Byte := leBytes 4 (s.rd FSW_HOST_MAC_LO_MAC) ++ leBytes 2 (s.rd FSW_HOST_MAC_HI_MAC)

/-- Does the frame carry a Milxon header of version 1? -/
def Dev.isMilxon (s : Dev) (l : List Byte) : Bool :=
  etherType l == s.img.etherType && fieldAt (payload l) 0 1 / 16 == 1 && decide (12 ≤ (payload l).length)

/-- The shape of a ring frame, whatever its RING_ID: an untagged broadcast with OP 0x12 or 0x13 (rule R441). -/
def Dev.ringShape (s : Dev) (l : List Byte) : Bool :=
  !tagged l && dstOf l == bcast && s.isMilxon l && (fieldAt (payload l) 1 1 == 0x12 || fieldAt (payload l) 1 1 == 0x13)

/-- VID, PCP and queue of a frame that enters on port `p` (rule R436). -/
def Dev.vidOf (s : Dev) (p : Nat) (l : List Byte) : Nat :=
  if tagged l ∧ tciOf l % 4096 ≠ 0 then tciOf l % 4096 else s.rd (FSW_PORT_PVID p)
def Dev.pcpOf (s : Dev) (p : Nat) (l : List Byte) : Nat := if tagged l then tciOf l / 8192 else s.rd (FSW_PORT_DEF_PCP p)
def Dev.queueOf (s : Dev) (pcp : Nat) : Nat := bits (s.rd FSW_PCP_MAP_MAP) (2 * pcp) 2

/-- Is port `p` a member of a VID: every port while no entry of the VLAN table is VALID (rule R436)? -/
def Dev.member (s : Dev) (p vid : Nat) : Bool :=
  let rows := (List.range 16).filter fun i => s.on (FSW_VLAN_VALID i)
  rows.isEmpty || rows.any fun i => s.rd (FSW_VLAN_VID i) == vid && s.bit (FSW_VLAN_MEMBER i) p

/-! ### Ports -/

def Dev.link (s : Dev) (l : Nat) : WLink := mapGet (fun _ => WLink.init) s.io.links l
def Dev.setLink (s : Dev) (l : Nat) (v : WLink) : Dev :=
  { s with io := { s.io with links := mapPut (fun _ => WLink.init) s.io.links l v } }
def Dev.eport (s : Dev) (p : Nat) : EPort := mapGet (fun _ => EPort.init) s.io.egress p
def Dev.setEport (s : Dev) (p : Nat) (v : EPort) : Dev :=
  { s with io := { s.io with egress := mapPut (fun _ => EPort.init) s.io.egress p v } }

/-- Is link `l` UP? -/
def Dev.linkIsUp (s : Dev) (l : Nat) : Bool := s.rd (WL_STATUS_STATE l) == 4

/-- The mode of FSW_RING. -/
def Dev.ringMode (s : Dev) : Nat := s.rd FSW_RING_MODE

/-- Is wired port `p` blocked (Table 12-2, rules R442 to R445)? -/
def Dev.blocked (s : Dev) (p : Nat) : Bool :=
  match s.ringMode with
  | 0 => false
  | 1 => (s.eport p).hold
  | 2 => p == 1 && s.on FSW_RING_BLOCKED
  | _ => !s.on FSW_RING_ACTIVE_VALID || s.rd FSW_RING_ACTIVE != p

/-- Does wired port `p` forward: UP and not blocked? -/
def Dev.forwarding (s : Dev) (p : Nat) : Bool := s.linkIsUp p && !s.blocked p

/-! ### The packet buffer and the egress queues (rule R438) -/

/-- The frames that wait in queue `q` of a port. -/
def EPort.queue (e : EPort) (q : Nat) : List EFrame := mapGet (fun _ => []) e.queues q

/-- Queue `q` of a port takes the frames `l`. -/
def EPort.setQueue (e : EPort) (q : Nat) (l : List EFrame) : EPort := { e with queues := mapPut (fun _ => []) e.queues q l }

/-- Octets of the frames of a list. -/
def octetsOf (l : List EFrame) : Nat := (l.map fun f => f.octets.length).sum

/-- Octets of the packet buffer that a port uses, the frame on the wire included. -/
def EPort.used (e : EPort) : Nat :=
  ((List.range 4).map fun q => octetsOf (e.queue q)).sum + (match e.sending with | some f => f.octets.length | none => 0)

/-- Octets of the packet buffer in use. -/
def Dev.bufUsed (s : Dev) : Nat := (s.eport 0).used + (s.eport 1).used

/-- FREE_KIB follows the packet buffer. -/
def Dev.bufView (s : Dev) : Dev := s.wr FSW_BUF_STAT_FREE_KIB (512 - (s.bufUsed + 1023) / 1024)

/-- Is there room for `n` octets in queue `q` of port `p`: FSW_Q_LIMIT in 4 KiB, 512 KiB in all? -/
def Dev.egressRoom (s : Dev) (p q n : Nat) : Bool :=
  decide (octetsOf ((s.eport p).queue q) + n ≤ 4096 * bits (s.rd FSW_Q_LIMIT_LIMIT) (8 * q) 8) && decide (s.bufUsed + n ≤ 524288)

/-- An idle port puts the next frame on the wire: queue 3 first, first in first out within a queue. -/
def Dev.egressStart (s : Dev) (p : Nat) : Dev :=
  let e := s.eport p
  if e.sending.isSome then s
  else match [3, 2, 1, 0].find? fun q => !(e.queue q).isEmpty with
    | none => s
    | some q =>
      match e.queue q with
      | f :: r => s.setEport p { e.setQueue q r with sending := some f }
      | [] => s

/-- A frame joins queue `q` of wired port `p`, or is dropped for want of room. A link that is not UP takes none. -/
def Dev.egressPut (s : Dev) (p q : Nat) (f : EFrame) : Dev :=
  if !s.linkIsUp p then s
  else if !s.egressRoom p q f.octets.length then (s.bump FSW_CNT_Q_DROP_COUNT).set FSW_EVENTS_BUF_FULL
  else
    let e := s.eport p
    ((s.setEport p (e.setQueue q (e.queue q ++ [f]))).egressStart p).bufView

/-- A frame without a transmit descriptor. -/
def EFrame.of (l : List Byte) : EFrame := { octets := l, tx := none, stamp := false, stomp := false }

/-- A frame of the device leaves on port `p` in queue 3, while the switch is enabled. -/
def Dev.emit (s : Dev) (p : Nat) (l : List Byte) : Dev :=
  if s.on FSW_CFG_ENABLE then s.egressPut p 3 (EFrame.of (padded l)) else s

/-- A Milxon frame of the device to `dst`: header octets 0 to 11 and data. -/
def Dev.milxonFrame (s : Dev) (dst : List Byte) (tci : Option Nat) (body : List Byte) : List Byte :=
  let l := dst ++ s.fswMac ++ beBytes 2 s.img.etherType ++ body
  match tci with
  | some t => addTag l t
  | none => l

/-- The header of a request or of a frame the device starts. -/
def mxHeader (op tag addr count flags : Nat) : List Byte :=
  leBytes 1 0x10 ++ leBytes 1 op ++ leBytes 2 tag ++ leBytes 4 addr ++ leBytes 2 count ++ leBytes 1 flags ++ [0]

/-- A RING_CHECK, RING_FLUSH or ANNOUNCE leaves on port `p` (rules R441 and R444). -/
def Dev.ringSend (s : Dev) (p op : Nat) : Dev :=
  s.emit p (s.milxonFrame bcast none (mxHeader op 0 (if op = 0x11 then 0 else s.rd FSW_RING_RING_ID) 0 0))

/-- The table of learned addresses is flushed. -/
def Dev.fdbFlush (s : Dev) : Dev := { s with io := { s.io with fdb := [] } }

/-- The source address of a frame is learned on the port it came from (rule R437). -/
def Dev.fdbLearn (s : Dev) (p vid : Nat) (src : List Byte) : Dev :=
  let hit (e : List Byte × Nat × Nat × Nat) : Bool := e.1 == src && e.2.1 == vid
  if s.io.fdb.any hit then { s with io := { s.io with fdb := s.io.fdb.map fun e => if hit e then (src, vid, p, s.now) else e } }
  else if 1024 ≤ s.io.fdb.length then s.set FSW_EVENTS_TABLE_FULL
  else { s with io := { s.io with fdb := s.io.fdb ++ [(src, vid, p, s.now)] } }

/-- The port where an address is learned. -/
def Dev.fdbPort (s : Dev) (mac : List Byte) (vid : Nat) : Option Nat :=
  (s.io.fdb.find? fun e => e.1 == mac && e.2.1 == vid).map (·.2.2.1)

/-! ### Ring and dual-homed operation (rules R442 to R445) -/

/-- Both ring ports are free again of the hold of rule R443. -/
def Dev.ringUnhold (s : Dev) : Dev := s.each [0, 1] fun s p => s.setEport p { s.eport p with hold := false }

/-- The manager opens the ring: WL1 unblocked, table flushed, RING_FLUSH on both ports, RING_BROKEN (rule R442). -/
def Dev.ringOpen (s : Dev) : Dev :=
  let s := ((s.clr FSW_RING_BLOCKED).fdbFlush.ringSend 0 0x13).ringSend 1 0x13
  { s with io := { s.io with streak := 0, seen := false } }.set FSW_EVENTS_RING_BROKEN

/-- The manager closes the ring: WL1 blocked, table flushed, RING_FLUSH on both ports, RING_CLOSED (rule R442). -/
def Dev.ringClose (s : Dev) : Dev :=
  ((((s.set FSW_RING_BLOCKED).fdbFlush.ringSend 0 0x13).ringSend 1 0x13).set FSW_EVENTS_RING_CLOSED)

/-- CHECK_MS in counts of 125 ns; 0 acts as 1. -/
def Dev.checkTime (s : Dev) : Nat := us (1000 * max 1 (s.rd FSW_RING_CHECK_MS))

/-- Port `p` becomes the active port of a dual-homed device: the table is flushed and an ANNOUNCE leaves (R444, R445). -/
def Dev.activate (s : Dev) (p : Nat) : Dev :=
  ((((s.wr FSW_RING_ACTIVE p).set FSW_RING_ACTIVE_VALID).fdbFlush).ringSend p 0x11)

/-- A dual-homed device selects its active port: WL0 where it is UP, else WL1, else none (rule R445). -/
def Dev.selectActive (s : Dev) : Dev :=
  if s.linkIsUp 0 then s.activate 0 else if s.linkIsUp 1 then s.activate 1 else s.clr FSW_RING_ACTIVE_VALID

/-- FSW_RING.MODE takes effect (rules R443 and R445). -/
def Dev.ringEnter (s : Dev) (mode : Nat) : Dev :=
  let was := s.ringMode
  let s := s.wr FSW_RING_MODE mode
  let s := if mode = was ∧ mode ≠ 3 then s
    else { (s.clr FSW_RING_BLOCKED).ringUnhold with io := { (s.clr FSW_RING_BLOCKED).ringUnhold.io with seen := false, streak := 0 } }
  if mode = 3 then s.selectActive else s.clr FSW_RING_ACTIVE_VALID

/-! ### A link goes down -/

/-- STATUS, TS and FRAC of an internal transmit descriptor, DONE last; then RD advances and ITX_DONE is set (rule R448). -/
def Dev.itxDone (s : Dev) (a : Nat) (st : Status) (ts : Option (Nat × Nat)) : Dev :=
  let s := s.stow 0x10 (a + 0x10) (leBytes 1 st.code)
  let s := match ts with
    | some t => (s.stow 0x10 (a + 0x18) (leBytes 8 t.1)).stow 0x10 (a + 0x12) (leBytes 1 t.2)
    | none => s
  let s := s.stow 0x10 (a + 0x11) (leBytes 1 (if ts.isSome then 3 else 1))
  let n := s.rd FSW_ITX_SIZE_ENTRIES
  (s.wr FSW_ITX_RD_RD (if n = 0 then 0 else (s.rd FSW_ITX_RD_RD + 1) % n)).set FSW_EVENTS_ITX_DONE

/-- The frames queued for a port whose link went down are dropped and counted; the frame on the wire is lost. A descriptor
that waited for a time stamp completes with LINK_DOWN (rule R433). -/
def Dev.egressFlush (s : Dev) (p : Nat) : Dev :=
  let e := s.eport p
  let q := (List.range 4).flatMap e.queue
  let all := q ++ (match e.sending with | some f => [f] | none => [])
  let s := (s.add FSW_CNT_Q_DROP_COUNT q.length).setEport p { EPort.init with hold := e.hold }
  (s.each (all.filterMap (·.tx)) fun s a => s.itxDone a .linkDown none).bufView

/-- Port `p` has gone down: its frames, then ring or dual-homed operation (rules R433, R443 to R445 and R470). -/
def Dev.portDown (s : Dev) (p : Nat) : Dev :=
  let s := s.egressFlush p
  if s.ringMode = 1 then s.fdbFlush.ringSend (1 - p) 0x13
  else if s.ringMode = 3 ∧ s.on FSW_RING_ACTIVE_VALID ∧ s.rd FSW_RING_ACTIVE = p then
    if s.linkIsUp (1 - p) then (s.activate (1 - p)).set FSW_EVENTS_FAILOVER else s.clr FSW_RING_ACTIVE_VALID
  else s

/-- Port `p` has come up: a member's ring port is blocked, a dual-homed device without an active port takes it
(rules R443 and R445). Two LINK_UP of one bus-clock cycle are sent with WL0's first. -/
def Dev.portUp (s : Dev) (p : Nat) : Dev :=
  if s.ringMode = 1 then (s.setEport p { s.eport p with hold := true }).mark (.hold p)
  else if s.ringMode = 3 ∧ !s.on FSW_RING_ACTIVE_VALID then s.activate p
  else s

end Sys2Proof.Machine
end

