-- ==== Sys2Proof/Machine/Faults.lean ====
section
/-!
DEFINITION. Faults, spares and degraded service (chapter 13): the fault log, the charge of an event, the restart in place
and the lasting action of every kind of unit, the delivered service and its minimum.
-/

namespace Sys2Proof.Machine

/-! ### Codes -/

/-- The events of Table 13-2. -/
inductive FEvent where
  | mismatch | watchdog | selftestFail | lineThreshold | uncorrData | stateTimeout | bufferUncorr | engineFault
  | sparesExhausted | blockRetired | blockNoSpare | journalFail | aerialRetired | ringUncorr | synthUnlock | linkFault
  | slowOnRc | regFail | limp | saveLost | storeUncorr | entropyLost | wakeFailed | sealBreak | floorSpent | retiredByCmd
  | belowMin | restored
deriving DecidableEq, Repr

/-- The code of an event. -/
def FEvent.code : FEvent → Nat
  | .mismatch => 0x01 | .watchdog => 0x02 | .selftestFail => 0x03 | .lineThreshold => 0x04 | .uncorrData => 0x05
  | .stateTimeout => 0x06 | .bufferUncorr => 0x07 | .engineFault => 0x08 | .sparesExhausted => 0x09
  | .blockRetired => 0x0A | .blockNoSpare => 0x0B | .journalFail => 0x0C | .aerialRetired => 0x0D
  | .ringUncorr => 0x0E | .synthUnlock => 0x0F | .linkFault => 0x10 | .slowOnRc => 0x11 | .regFail => 0x12
  | .limp => 0x13 | .saveLost => 0x14 | .storeUncorr => 0x15 | .entropyLost => 0x16 | .wakeFailed => 0x17
  | .sealBreak => 0x18 | .floorSpent => 0x19 | .retiredByCmd => 0x1A | .belowMin => 0x20 | .restored => 0x21

/-- Events that declare their unit lasting at once (Table 13-2). -/
def FEvent.atOnce : FEvent → Bool
  | .sparesExhausted => true
  | .blockNoSpare => true
  | .aerialRetired => true
  | .limp => true
  | _ => false

/-- The power domain that a unit lies in (Table 01-12). -/
def Dev.unitDomain (s : Dev) (c : Nat) : Nat :=
  if c < 2 then 3 + c else if c < 8 then 5 else if c = 8 then 0 else if c < 12 then 2 else if c < 14 then 7
  else if c < 22 then 6 else if c < 24 then 8 else if c < 26 then 9 else if c = 26 then 8 else if c = 27 then 9
  else if c < 30 then 10
  else match (List.range 32).find? fun n => s.phys n == c - 0x20 && !s.on (SLV_ASSIGN_UNSERVED n) with
    | some n => if s.rd (SLV_ASSIGN_BAND n) = 2 then 9 else 8
    | none => 8

/-! ### Pins, notifications and the log (rules R487 to R489) -/

/-- The health pin follows the conditions of rule R487; HEALTH_LOW shows the level the mantle drives. -/
def Dev.healthPin (s : Dev) : Dev :=
  s.put FLT_STATUS_HEALTH_LOW
    (s.on STR_STATUS_LOADER_STATE || s.on FLT_STATUS_BELOW_MIN || s.mnt.stage == .wakeFailed ||
      (s.on FLT_CFG_PIN_ON_LASTING && s.on FLT_STATUS_LASTING_UNACK))

/-- The start of the regulators is attempted, with the saved drive step to follow (rules R419 and R424). -/
def Dev.regulatorsOn (s : Dev) : Dev :=
  ({ s with mnt := { s.mnt with stage := .regulators, tries := 0, drive := s.rd MNT_LADDER_XTAL_DRIVE } }).mark .stage

/-- Wake source `src` is recorded while a wake is armed or runs; the first one starts the wake and is named by FIRST
(rules R418 and R423): from sleep the regulators start, from a sniff window the wake goes on to its release. -/
def Dev.wakeHit (s : Dev) (src : Nat) : Dev :=
  let t := s.putBit MNT_WAKE_SRC_SRC src true
  match s.mnt.stage with
  | .asleep => (t.wr MNT_WAKE_SRC_FIRST src).regulatorsOn
  | .backoff => (t.wr MNT_WAKE_SRC_FIRST src).regulatorsOn
  | .window => { t.wr MNT_WAKE_SRC_FIRST src with mnt := { s.mnt with stage := .waking } }
  | .regulators => t
  | .oscillator => t
  | .plls => t
  | .waking => t
  | _ => s

/-- Bit `i` of GPIO_HOST_EVT is set (rule R488); its rise is to be reported while NOTIFY_EN is 1 and MASK names it
(rule R454). -/
def Dev.hostEvt (s : Dev) (i : Nat) : Dev :=
  let rise := !s.bit GPIO_HOST_EVT_HOST_EVT i && s.on GPIO_HOST_CFG_NOTIFY_EN && s.bit GPIO_HOST_CFG_MASK i
  let s := s.putBit GPIO_HOST_EVT_HOST_EVT i true
  if rise then { s with io := { s.io with risen := s.io.risen ||| 2 ^ i } } else s

/-- A fault log record is written whole, then WR advances; a full log loses its oldest record (rule R489). -/
def Dev.record (s : Dev) (unit event outcome count detail : Nat) : Dev :=
  let s := if s.flt.full then
      ((s.bump FLT_LOG_LOST_COUNT).set FLT_EVENTS_LOG_LOST).wr FLT_LOG_RD_RD (s.rd FLT_LOG_RD_RD + 1)
    else s
  let w := s.rd FLT_LOG_WR_WR
  let r := leBytes 6 s.now ++ leBytes 1 unit ++ leBytes 1 event ++ leBytes 1 outcome ++ leBytes 1 count ++
    leBytes 2 s.flt.seq ++ leBytes 4 detail
  let s := { s with flt := { s.flt with
    log := mapPut (fun _ => List.replicate 16 0) s.flt.log w r,
    seq := (s.flt.seq + 1) % 65536,
    full := decide ((w + 1) % 128 = s.rd FLT_LOG_RD_RD) } }
  ((((s.wr FLT_LOG_WR_WR (w + 1)).wr FLT_STATUS_LAST_EVENT event).wr FLT_STATUS_LAST_UNIT unit).set FLT_EVENTS_RECORD)

/-! ### The delivered service (rules R482 and R483) -/

/-- Does a role count as in service: its carrier runs and has kicked its watchdog, or has the watchdog off? -/
def Dev.roleServes (s : Dev) (x : Nat) : Bool :=
  let p := s.pair (s.carrier x)
  (p.run == .running || p.run == .stopped) && (p.kicked || !s.on (SYS_WDT_CFG_ENABLE x)) && !p.standby

/-- Pairs in service: role P, and role Q in partition. -/
def Dev.svcPairs (s : Dev) : Nat :=
  (if s.roleServes 0 then 1 else 0) + (if s.rd SYS_PAIR_STATUS_MODE_Q = 2 ∧ s.roleServes 1 then 1 else 0)

/-- Link engines that carry a range and run, not halted. -/
def Dev.svcEngines (s : Dev) : Nat :=
  ((List.range 6).filter fun k => s.on (LE_STATE_RUNNING k) && s.rd (LE_STATE_ROLE k) == 1 && s.on (LE_RANGE_COUNT k) &&
    !s.hartHalted (2 + k)).length

/-- Assignments of a band in service. -/
def Dev.svcSleeves (s : Dev) (b : Nat) : Nat :=
  if s.rd (RF_STATE_STATE b) = 0 ∨ s.rd (RF_STATE_STATE b) = 10 then 0
  else ((s.ofBand b).filter fun n => !s.on (SLV_ASSIGN_SPARE n) && !s.on (SLV_ASSIGN_UNSERVED n)).length

/-- Is unit `c` retired (FLT_RETIRED_LO and _HI)? -/
def Dev.retired (s : Dev) (c : Nat) : Bool :=
  if c < 0x20 then s.bit FLT_RETIRED_LO_MASK c else s.bit FLT_RETIRED_HI_MASK (c - 0x20)

/-- Is transmit path `p` delivered? -/
def Dev.pathServes (s : Dev) (p : Nat) : Bool :=
  s.on (TXP_CONFIG_ENABLE p) && !s.retired (0x1A + p) && s.rd (RF_STATE_STATE p) != 10 && !(s.band p).outOfService

/-- Is cipher engine `e` active and in service: not restarting, its power-up tests passed? -/
def Dev.ceCounts (s : Dev) (e : Nat) : Bool :=
  s.rd ⟨CE_ENG, 8 * e, 2⟩ == 1 && (s.unit (0x0A + e)).state != 1 && !s.sec.failedTest.contains e

/-- The delivered service as FLT_SVC_NOW_0 to _2 hold it (Table 13-12). -/
def Dev.svcWords (s : Dev) : Nat × Nat × Nat :=
  let le := s.svcEngines
  let wired := ((List.range 2).filter fun l => s.rd (WL_STATUS_STATE l) == 4).length
  let ce := ((List.range 2).filter s.ceCounts).length
  (s.svcPairs + 0x100 * le + 0x10000 * s.svcSleeves 0 + 0x1000000 * s.svcSleeves 1,
   (if s.chainOn 0 0 then 1 else 0) + (if s.chainOn 0 1 then 1 else 0) +
     0x100 * ((if s.chainOn 1 0 then 1 else 0) + (if s.chainOn 1 1 then 1 else 0)) +
     0x10000 * ((if s.pathServes 0 then 1 else 0) + (if s.pathServes 1 then 2 else 0)) + 0x1000000 * wired,
   min 4096 (1024 * le) + 0x10000 * ce)

/-- The fields of a service that fall below the minimum, one bit each in the bit order of FLT_SVC_NOW: pairs, link
engines, sub-GHz and ISM sleeves, sub-GHz and ISM chains, paths, wired links, capacity, cipher engines. -/
def svcFailing (now min : Nat × Nat × Nat) : Nat :=
  let lt (x y lo w i : Nat) : Nat := if bits x lo w < bits y lo w then 2 ^ i else 0
  lt now.1 min.1 0 8 0 + lt now.1 min.1 8 8 1 + lt now.1 min.1 16 8 2 + lt now.1 min.1 24 8 3 +
  lt now.2.1 min.2.1 0 8 4 + lt now.2.1 min.2.1 8 8 5 +
  (if bits min.2.1 16 8 &&& (0xFF - bits now.2.1 16 8) = 0 then 0 else 64) +
  lt now.2.1 min.2.1 24 8 7 + lt now.2.2 min.2.2 0 16 8 + lt now.2.2 min.2.2 16 8 9

/-- Service is evaluated after a change of a delivered field (rule R483); in SLEEP, SNIFF and HIBERNATE, where units are off by plan,
it is not (rule R484). -/
def Dev.svcEval (s : Dev) : Dev :=
  if 1 < s.rd MNT_STATE_STATE then s
  else
  let w := s.svcWords
  let s := ((s.setReg FLT_SVC_NOW_0 (BitVec.ofNat 32 w.1)).setReg FLT_SVC_NOW_1 (BitVec.ofNat 32 w.2.1)).setReg
    FLT_SVC_NOW_2 (BitVec.ofNat 32 w.2.2)
  let bad := svcFailing w (s.rd FLT_SVC_MIN_0_MIN, s.rd FLT_SVC_MIN_1_MIN, s.rd FLT_SVC_MIN_2_MIN)
  if !s.flt.started then s
  else if bad ≠ 0 ∧ !s.on FLT_STATUS_BELOW_MIN then
    let s := ((s.set FLT_STATUS_BELOW_MIN).set FLT_EVENTS_BELOW_MIN).hostEvt 2
    (({ s with flt := { s.flt with below := 0, belowAt := s.now } } : Dev).mark .outage |>.record 0xFF 0x20 4 0 bad).healthPin
  else if bad = 0 ∧ s.on FLT_STATUS_BELOW_MIN then
    let s := ((s.clr FLT_STATUS_BELOW_MIN).set FLT_EVENTS_RESTORED).hostEvt 2
    let s := if s.rd FLT_OUTAGE_MAX_MS < s.flt.below then s.wr FLT_OUTAGE_MAX_MS s.flt.below else s
    let s := s.record 0xFF 0x21 4 0 ((tsDiff s.now s.flt.belowAt / 8000).toNat)
    ({ s with flt := { s.flt with below := 0, planned := false } }.clr FLT_STATUS_PLANNED).healthPin
  else if bad = 0 then { s with flt := { s.flt with planned := false } }.clr FLT_STATUS_PLANNED
  else s

/-- A planned interval begins, and lasts until service meets the minimum, 60 s at most (rule R484). -/
def Dev.planStart (s : Dev) : Dev := (({ s with flt := { s.flt with planned := true } }).set FLT_STATUS_PLANNED).mark .planned

/-! ### Restart in place and lasting action per unit (Table 13-3) -/

/-- Unit `c` takes a FLT_UNIT state. -/
def Dev.unitState (s : Dev) (c st : Nat) : Dev := s.setUnit c { s.unit c with state := st }

/-- Unit `c` joins the retired set (rule R488). -/
def Dev.retire (s : Dev) (c : Nat) : Dev :=
  let s := if c < 0x20 then s.putBit FLT_RETIRED_LO_MASK c true else s.putBit FLT_RETIRED_HI_MASK (c - 0x20) true
  ((s.unitState c 5).set FLT_EVENTS_RETIRED).hostEvt 2

/-- The caches, locks and interrupt controller of a physical pair are reset, and its outstanding fabric accesses discarded (rules
R370 and R378). -/
def Dev.pairReset (s : Dev) (x : Nat) : Dev :=
  let r := s.roleOf x
  let s := { s with fab := { s.fab with waiting := s.fab.waiting.filter fun b => b.ini.val != r } }
  let s := s.setPair x { s.pair x with prio := [], enable := [], threshold := 0, claimed := [], locked := [], resv := none,
                                       kicked := false }
  let s := (s.wr (SYS_ICLOCK_SIZE_LINES r) 0).clr (SYS_ICLOCK_SIZE_FILLING r)
  ((s.clr (SYS_WDT_CFG_ENABLE r)).setWdt r .init).hartReset x

/-- A physical pair is released at an address with a CAUSE. -/
def Dev.pairRelease (s : Dev) (x cause : Nat) (standby : Bool) (pc : Nat) : Dev :=
  (s.setPair x { s.pair x with run := .running, cause := cause, standby := standby, pc := pc }).unitState x
    (if standby then 2 else 0)

/-- The entry of a role (rule R369): P_ENTRY for role P and for a standby, Q_ENTRY for a partition. -/
def Dev.entryOf (s : Dev) (r : Nat) : Nat :=
  if r = 0 ∨ s.rd SYS_PAIR_STATUS_MODE_Q = 1 then s.img.pEntry else s.img.qEntry

/-- A pair is restarted in place: reset now, released at the end of PAIR_RESTART_DONE (rule R370). -/
def Dev.pairRestart (s : Dev) (x cause : Nat) : Dev :=
  ((s.pairReset x).setPair x { (s.pairReset x).pair x with run := .restarting, cause := cause }).unitState x 1

/-- A pair is halted, retired and powered off. -/
def Dev.pairRetire (s : Dev) (x : Nat) : Dev :=
  let s := (s.pairReset x).setPair x { (s.pairReset x).pair x with run := .off, standby := false }
  let s := (s.setDisp (3 + x) 0).set (if x = 0 then SYS_PAIR_STATUS_P_RETIRED else SYS_PAIR_STATUS_Q_RETIRED)
  (s.clr SYS_PAIR_STATUS_STANDBY_READY).retire x

/-- Is a standby in service beside role P's carrier? -/
def Dev.standbyUp (s : Dev) : Bool :=
  let q := s.pair (s.carrier 1)
  s.rd SYS_PAIR_STATUS_MODE_Q == 1 && q.standby && (q.run == .running || q.run == .selftest) && !s.retired (s.carrier 1)

/-- The failover of rule R371: the failed pair is retired, the standby released at P_ENTRY with CAUSE 5. -/
def Dev.pairFailover (s : Dev) : Dev :=
  let x := s.carrier 0
  let y := s.carrier 1
  let s := (s.pairRetire x).wr SYS_PAIR_STATUS_PRIMARY y
  let s := (s.pairReset y).pairRelease y 5 false s.img.pEntry
  s.set SYS_PAIR_EVENTS_FAILOVER

/-- The lasting action of a pair: outcome and spare (rules R371, R372 and R476). -/
def Dev.pairLasting (s : Dev) (x cause : Nat) : Dev × Nat × Nat :=
  if x = s.carrier 0 then
    if s.standbyUp then (s.pairFailover, 1, 1 - x)
    else (((s.pairRestart x cause).set SYS_PAIR_EVENTS_NO_STANDBY), 3, 0)
  else ((if s.rd SYS_PAIR_STATUS_MODE_Q = 2 then (s.pairRetire x).set SYS_PAIR_EVENTS_NO_STANDBY else s.pairRetire x), 2, 0)

/-- The physical engine now serving logical engine `k` (LE_MAP). -/
def Dev.lePhys (s : Dev) (k : Nat) : Nat := bits (s.rd LE_MAP_MAP) (4 * k) 3

/-- Engine `k` is mapped to `j` wherever it serves. -/
def Dev.leRemap (s : Dev) (k j : Nat) : Dev :=
  s.each (List.range 6) fun s i => if s.lePhys i = k then s.wr ⟨LE_MAP, 4 * i, 3⟩ j else s

/-- The report ring and completion rings of engine `k` move to `j`, BASE, SIZE, WR and RD intact, and `k`'s ENTRIES
become 0 (rule R234). -/
def Dev.leMoveRings (s : Dev) (k j : Nat) : Dev :=
  let mv (s : Dev) (f : Nat → Nat) : Dev := s.setReg (f j) (s.reg (f k))
  let s := mv (mv (mv (mv s SLV_RQ_BASE) SLV_RQ_SIZE) SLV_RQ_WR) SLV_RQ_RD
  let s := { s with bank := { s.bank with
    rings := ringPut (ringPut s.bank.rings j (ringGet s.bank.rings k)) k .init } }
  let s := s.setReg (SLV_RQ_SIZE k) 0
  s.each [0, 1] fun s p =>
    let s := mv (mv (mv (mv s (TXP_CQ_BASE p)) (TXP_CQ_SIZE p)) (TXP_CQ_WR p)) (TXP_CQ_RD p)
    let q := s.path p
    (s.setPath p { q with
      rings := ringPut (ringPut q.rings j (ringGet q.rings k)) k .init,
      cmds := q.cmds.map fun c => if c.le = k then { c with le := j } else c }).setReg (TXP_CQ_SIZE p k) 0

/-- The rings of an unserved range are off (rule R235). -/
def Dev.leRingsOff (s : Dev) (k : Nat) : Dev :=
  ((s.setReg (SLV_RQ_SIZE k) 0).setReg (TXP_CQ_SIZE 0 k) 0).setReg (TXP_CQ_SIZE 1 k) 0

/-- A spare link engine that can take a range, the lowest-numbered one. -/
def Dev.leSpare (s : Dev) : Option Nat := (List.range 6).find? fun j => s.rd (LE_STATE_ROLE j) == 2 && !s.retired (2 + j)

/-- LE_LAG and CATCHUP of engine `k` show its advance (rule R224). -/
def Dev.advView (s : Dev) (k : Nat) : Dev :=
  let a := (s.eng k).adv
  (s.wr (LE_LAG_PREP_ADV_US k) (min 0xFFFF (a / 8))).put (LE_STATE_CATCHUP k) (a != 0 || s.on (LE_LAG_TICK_LAG_US k))

/-- Start commands, verdicts and reports in progress of engine `k` reach `j`; entries in flight go back to the heads of their queues
with TRIES unchanged, and nothing that their attempts bring counts for them any more (rule R234). -/
def Dev.leMoveWork (s : Dev) (k j : Nat) : Dev :=
  let es := ((s.se.issued.filter fun x => x.le == k && x.entry != 0).map (·.entry)) ++
    ((s.se.acks.filter fun x => x.le == k).map (·.entry))
  let s := s.each es fun s e => s.stow (2 + j) (e + 6) (leBytes 1 (s.peek 0x0C (e + 6) 1 % 16))
  let moved (x : Nat) : Nat := if x = k then j else x
  let s := { s with se := { s.se with
    issued := s.se.issued.map fun (x : Issued) => if x.le = k then { x with le := j, entry := 0 } else x,
    acks := s.se.acks.filter fun (x : AckWait) => x.le != k,
    bq := s.se.bq.map fun (x : Nat × Nat × Nat × Nat) => (x.1, moved x.2.1, x.2.2) } }
  let s := s.setEng j { s.eng j with rx := (s.eng j).rx ++ (s.eng k).rx, preps := [], adv := (s.eng k).adv }
  let s := ((s.setEng k { s.eng k with rx := [], preps := [], adv := 0, ready := false }).advView j).advView k
  s.each (List.range 32) fun s n =>
    match (s.sleeve n).frame with
    | some f => s.setSleeve n { s.sleeve n with frame := some { f with le := moved f.le, ring := f.ring.map moved } }
    | none => s

/-- The hand-over of rule R234: range, rings and map go to `j`, which is released at its LE_CODE entry; at a rotation it is ready at
once (rule R237), else when its firmware says so. -/
def Dev.leSwitch (s : Dev) (k j : Nat) (ready : Bool) : Dev :=
  let s := ((s.leMoveRings k j).leMoveWork k j).setReg (LE_RANGE j) (s.reg (LE_RANGE k))
  let s := ((s.setReg (LE_RANGE k) 0).leRemap k j).setEng j { s.eng j with range := some (s.rangeOf k), ready := ready, last := s.now }
  let s := (((s.wr (LE_STATE_ROLE j) 1).clr (LE_STATE_SELFTEST j)).hartReset (2 + j)).set (LE_STATE_RUNNING j)
  if ready then s.unitState (2 + j) 0
  else
  let s := s.unitState (2 + j) 1
  { s with mnt := { s.mnt with pending := s.mnt.pending ++ [2 + j] } }

/-- The lasting action of a link engine: a retired engine's range goes to a spare, or is unserved (rules R234 and R235). A spare that
fails while it takes a range is retired, and the range is unserved as if there had been none (rule R478). -/
def Dev.leLasting (s : Dev) (k : Nat) : Dev × Nat × Nat :=
  let active := s.rd (LE_STATE_ROLE k) == 1
  let taking := s.mnt.pending.contains (2 + k)
  let s := ((s.clr (LE_STATE_RUNNING k)).wr (LE_STATE_ROLE k) 3).retire (2 + k)
  let s := { s with mnt := { s.mnt with pending := s.mnt.pending.filter (· != 2 + k) } }
  if !active then (s, 2, 0)
  else match (if taking then none else s.leSpare) with
    | some j => (((s.leSwitch k j false).set LE_EVENTS_SWITCHED), 1, 2 + j)
    | none => (((s.leRingsOff k).set LE_EVENTS_NO_SPARE), 2, 0)

/-- The lasting action of a cipher engine: the other engine serves the queue, a spare being powered (rule R324); no unit takes the
place of a spare (rule R476). -/
def Dev.ceLasting (s : Dev) (e : Nat) : Dev × Nat × Nat :=
  let mine : Fld := ⟨CE_ENG, 8 * e, 2⟩
  let other : Fld := ⟨CE_ENG, 8 * (1 - e), 2⟩
  let active := s.rd mine == 1
  let s := ((s.wr mine 3).set CE_EVENTS_RETIRED).retire (0x0A + e)
  if !active then (s, 2, 0)
  else if s.rd other = 1 then (s, 1, 0x0A + (1 - e))
  else if s.rd other = 2 then ((s.wr other 1).unitState (0x0A + (1 - e)) 0, 1, 0x0A + (1 - e))
  else (s, 2, 0)

/-- A spare physical sleeve for an assignment (rule R145): narrow first where the mode is not OFDM, else wide. -/
def Dev.slvSpare (s : Dev) (n : Nat) : Option Nat :=
  let free := fun p => s.bit SLV_SPARES_MASK p && !s.bit SLV_RETIRED_MASK p
  let wide := (List.range 8).map (· + 24)
  if s.rd (SLV_ASSIGN_MODE n) = 2 then wide.find? free
  else match (List.range 24).find? free with
    | some p => some p
    | none => wide.find? free

/-- Physical sleeve `p` carries assignment `n` from now on. -/
def Dev.slvCarry (s : Dev) (n p : Nat) : Dev :=
  ((s.wr (SLV_ASSIGN_PHYS n) p).put (SLV_ASSIGN_WIDE_PHYS n) (decide (24 ≤ p))).clr (SLV_ASSIGN_UNSERVED n)

/-- The assignment that physical sleeve `p` carries. -/
def Dev.carriedBy (s : Dev) (p : Nat) : Option Nat :=
  (List.range 32).find? fun n => s.phys n == p && !s.on (SLV_ASSIGN_UNSERVED n)

/-- The lasting action of a sleeve (rules R145, R146 and R476). -/
def Dev.slvLasting (s : Dev) (p : Nat) : Dev × Nat × Nat :=
  let spare := s.bit SLV_SPARES_MASK p
  let s := ((s.putBit SLV_RETIRED_MASK p true).putBit SLV_SPARES_MASK p false).retire (0x20 + p)
  match s.carriedBy p with
  | none => (s, 2, 0)
  | some n =>
    if spare then ((s.set (SLV_ASSIGN_UNSERVED n)).slvState n 11, 2, 0)
    else match s.slvSpare n with
      | some q =>
        let s := match s.carriedBy q with
          | some m => (s.set (SLV_ASSIGN_UNSERVED m)).slvState m 11
          | none => s
        let s := (s.slvCarry n q).putBit SLV_SPARES_MASK q false
        let s := { s with bank := { s.bank with testing := s.bank.testing.filter (· != q),
                                                swap := s.bank.swap.filter (·.1 != q) } }
        let s := (s.slvBreak n .aborted).unitState (0x20 + q) 0
        ((s.slvState n (s.slvRest n)).set SLV_EVENTS_SPARE_USED, 1, 0x20 + q)
      | none =>
        let s := (s.set (SLV_ASSIGN_UNSERVED n)).slvBreak n .aborted
        ((s.slvState n 11).set SLV_EVENTS_UNSERVED, 2, 0)

/-- A physical sleeve restarts in place: the frame in progress ends with ABORTED, the assignment is HELD (rule R144). -/
def Dev.slvRestart (s : Dev) (p : Nat) : Dev :=
  let s := { s with bank := { s.bank with restarting := p :: s.bank.restarting.filter (· != p) } }
  let s := match s.carriedBy p with
    | some n => (s.slvBreak n .aborted).slvState n 8
    | none => s
  (s.set SLV_EVENTS_RESTARTED).unitState (0x20 + p) 1

/-- Aerial `c` of band `b` shows as retired and its chain is off; a band with both aerials retired is out of service (rules R91
and R92). -/
def Dev.aerialMark (s : Dev) (b c : Nat) : Dev :=
  let s := if c = 0 then ((s.set (RF_STATE_A_RETIRED b)).set (TXP_STATUS_A_RETIRED b)).clr (RF_CHAINS_A_ON b)
    else ((s.set (RF_STATE_B_RETIRED b)).set (TXP_STATUS_B_RETIRED b)).clr (RF_CHAINS_B_ON b)
  (if s.on (RF_STATE_A_RETIRED b) ∧ s.on (RF_STATE_B_RETIRED b) then s.setBand b { s.band b with outOfService := true } else s).ringsNote b

/-- Aerial `c` of band `b` is retired: its chain is off and its sleeves work on the partner aerial; a band out of service
leaves LISTEN or IDLE for DISABLED (rules R91, R92 and R93). Frames in progress then end with SAMPLES_LOST (assumption log 57). -/
def Dev.aerialDown (s : Dev) (b c : Nat) : Dev :=
  let s := ((s.aerialMark b c).set (RF_EVENTS_AERIAL_RETIRED b)).set (TXP_EVENTS_AERIAL_RETIRED b)
  let st := s.rd (RF_STATE_STATE b)
  if (s.band b).outOfService ∧ (st = 4 ∨ st = 8) then ((s.endBand b .samplesLost).bandState b 10).restBand b else s

/-- Aerials of the retired set are retired in the registers of a radio window that was lost (rule R475). -/
def Dev.aerialsKept (s : Dev) : Dev :=
  s.each ((List.range 4).filter fun i => s.retired (0x16 + i)) fun s i => s.aerialMark (i / 2) (i % 2)

/-- The lasting action of an aerial, at once where the band's state allows it, else at the end of that state
(rule R93). -/
def Dev.aerialLasting (s : Dev) (b c : Nat) : Dev × Nat × Nat :=
  let partner := if c = 0 then s.on (RF_STATE_B_RETIRED b) else s.on (RF_STATE_A_RETIRED b)
  let s := s.retire (0x16 + 2 * b + c)
  let st := s.rd (RF_STATE_STATE b)
  let s := if st = 2 ∨ st = 3 ∨ st = 5 ∨ st = 6 ∨ st = 9 then
      s.setBand b { s.band b with retire := (s.band b).retire ++ [c] }
    else s.aerialDown b c
  (s, if partner then 2 else 1, 0x16 + 2 * b + (1 - c))

/-- A wired link is retired: OFF with TX_DISABLE high (rule R470). -/
def Dev.wlLasting (s : Dev) (l : Nat) : Dev × Nat × Nat :=
  let up := s.linkIsUp l
  let s := ((s.wr (WL_STATUS_STATE l) 0).retire (0x1C + l)).when up fun s => s.portDown l
  (s, if s.rd (WL_STATUS_STATE (1 - l)) = 4 then 1 else 2, 0x1C + (1 - l))

/-- The unit takes its lasting action: the device, the log outcome and the spare's code (Table 13-3). -/
def Dev.lastingAct (s : Dev) (c cause : Nat) : Dev × Nat × Nat :=
  if c < 2 then s.pairLasting c cause
  else if c < 8 then s.leLasting (c - 2)
  else if c < 0x0A then (s.unitState c 6, 3, 0)
  else if c < 0x0C then s.ceLasting (c - 0x0A)
  else if c < 0x16 then (s.unitState c 6, 3, 0)
  else if c < 0x1A then s.aerialLasting ((c - 0x16) / 2) ((c - 0x16) % 2)
  else if c < 0x1C then (s.retire c, 2, 0)
  else if c < 0x20 then s.wlLasting (c - 0x1C)
  else s.slvLasting (c - 0x20)

/-- A unit restarts in place (Table 13-3). -/
def Dev.restartAct (s : Dev) (c cause : Nat) : Dev :=
  if c < 2 then (if (s.pair c).run = .off then s else s.pairRestart c cause)
  else if c < 8 then
    let s := s.setEng (c - 2) { s.eng (c - 2) with preps := [], ready := false }
    ((s.clr (LE_STATE_RUNNING (c - 2))).set LE_EVENTS_RESTARTED).unitState c 1
  else if c = 8 then s
  else if c = 9 then s.unitState 9 1
  else if c < 0x0C then (s.set CE_EVENTS_RESTARTED).unitState c 1
  else if c < 0x1C then s
  else if c < 0x20 then (if s.rd (WL_STATUS_STATE (c - 0x1C)) = 4 then s.wr (WL_STATUS_STATE (c - 0x1C)) 2 else s)
  else s.slvRestart (c - 0x20)

/-! ### The charge (rules R473 and R474) -/

/-- SYS_PAIR_SELF.CAUSE of a restart for an event: 2 mismatch, 3 watchdog; for the other events Table 10-7 names no code,
and the value is open (assumption log 3). -/
def Dev.causeOf (s : Dev) (e : FEvent) : Nat :=
  match e with
  | .mismatch => 2
  | .watchdog => 3
  | _ => s.freeVal 4

/-- Has the unit counted an event in this bus-clock cycle already (rule R474)? The model's finest time is one count of the timebase,
and events of one count are taken as of one cycle; two units that one memory delivered are of two cycles, one read each
(rule R18; DESIGN CHOICE, assumption log 60). -/
def Dev.sameCycle (s : Dev) (u : FUnit) (e : FEvent) : Bool :=
  u.times.head? == some s.now && !((e == .uncorrData || e == .ringUncorr) && (u.recent.head?.map (·.1)) == some e.code)

/-- Does an event not raise the count: the unit is retired, off or restarting in place, has counted an event of the same cycle,
or the same address raised the same event within 1 s (rule R474)? An event that is lasting at once needs no count (Table 13-2). A
spare that takes a range does not restart in place (rule R478). -/
def Dev.uncounted (s : Dev) (c : Nat) (e : FEvent) (detail : Nat) : Bool :=
  let u := s.unit c
  s.retired c || (u.state == 1 && !s.mnt.pending.contains c) || s.disp (s.unitDomain c) == 0 || (!e.atOnce && s.sameCycle u e) ||
    ((e == .uncorrData || e == .ringUncorr) &&
      u.recent.any fun r => r.1 == e.code && r.2.1 == detail && decide (tsDiff s.now r.2.2 < 8000000))

/-- Does a time lie in the window of a unit that ends now? -/
def Dev.counts (s : Dev) (u : FUnit) (t : Nat) : Bool :=
  tsLe t s.now && decide (tsDiff s.now t < ((u.window * 8000000 : Nat) : Int))

/-- The times of the counted events within the window that ends now, this one included. -/
def Dev.counted (s : Dev) (u : FUnit) : List Nat :=
  s.now :: u.times.filter (s.counts u)

/-- The count of a unit within the window that ends now (FLT_UNIT.COUNT). -/
def Dev.countNow (s : Dev) (u : FUnit) : Nat :=
  (u.times.filter (s.counts u)).length

/-- An event is charged to a unit: counted in its window, with a restart in place below the threshold and the lasting
action at it, and recorded in the log (rule R473). -/
def Dev.charge (s : Dev) (c : Nat) (e : FEvent) (detail : Nat) : Dev :=
  let u := s.unit c
  let total := min (u.total + 1) 0xFFFFFFFF
  let recent := (e.code, detail, s.now) :: u.recent.filter fun r => decide (tsDiff s.now r.2.2 < 8000000)
  if s.uncounted c e detail then
    (s.setUnit c { u with total := total, recent := recent }).record c e.code 6 (s.countNow u) detail
  else
    let times := s.counted u
    let cause := s.causeOf e
    let s := s.drew.setUnit c { u with times := times, total := total, recent := recent }
    if e.atOnce ∨ u.threshold ≤ times.length then
      let s := if c < 0x20 then s.putBit FLT_LASTING_LO_MASK c true else s.putBit FLT_LASTING_HI_MASK (c - 0x20) true
      let s := ((s.set FLT_STATUS_LASTING_UNACK).set FLT_EVENTS_LASTING).hostEvt 2
      let r := s.lastingAct c cause
      ((r.1.record c e.code r.2.1 times.length (if r.2.1 = 1 then r.2.2 else detail)).svcEval).healthPin
    else
      ((s.restartAct c cause).record c e.code 0 times.length detail).svcEval

/-- An event that is recorded and not counted (Table 13-2). -/
def Dev.noteEvent (s : Dev) (c : Nat) (e : FEvent) (detail : Nat) : Dev :=
  s.record c e.code 4 (s.countNow (s.unit c)) detail

/-- The UNCORRECTABLE units of one access, in the order of their cycles, are charged to the memories that delivered them
(Table 13-2, event 0x05). -/
def Dev.chargeUncorr (s : Dev) (l : List (Nat × Nat)) : Dev :=
  s.each l fun s p => s.charge p.1 .uncorrData p.2

/-! ### Memory accesses of the engines, with their fault charges -/

/-- `n` bytes are read from `a` on by an initiator: state, status and bytes. -/
def Dev.rdMem (s : Dev) (ini a n : Nat) : Dev × Status × List Byte :=
  let r := s.load ini ((a % 8 + n + 7) / 8) a
  (r.1.chargeUncorr r.2.2.2, r.2.1, (r.2.2.1.drop (a % 8)).take n)

/-- Bytes are written from `a` on by an initiator: state and status. -/
def Dev.wrMem (s : Dev) (ini a : Nat) (l : List Byte) : Dev × Status :=
  let r := s.store ini (l.length + 1) a l
  (r.1.chargeUncorr r.2.2, r.2.1)

/-- A write whose status nobody reads. -/
def Dev.put8 (s : Dev) (ini a : Nat) (l : List Byte) : Dev := (s.wrMem ini a l).1

/-- What an engine's reads of its tables do beside giving their values: each range, an address and a length, is read by `ini`
through the fabric, which checks, counts and logs (rules R24, R28, R29 and R331). -/
def Dev.touch (s : Dev) (ini : Nat) (l : List (Nat × Nat)) : Dev := s.each l fun s p => (s.rdMem ini p.1 p.2).1

end Sys2Proof.Machine
end

