-- ==== Sys2Proof/Machine/Flash.lean ====
section
/-!
DEFINITION. The flash arrays (chapter 09): the checks of a command, program, erase, check, suspend and resume, wear, and
the retirement of a block. What Sarnis does when a job of its own ends stands in Machine/Pockets.lean.
-/

namespace Sys2Proof.Machine

/-! ### Pages and blocks -/

/-- Storage address of page `p` of logical block `b` of array `a`. -/
def Dev.pageAt (s : Dev) (a b p : Nat) : Nat := flashBase a ((s.arr a).block b).phys + 512 * p

/-- Is unit `k` of storage erased, data and check bytes all ones? -/
def Dev.unitBlank (s : Dev) (k : Nat) : Bool :=
  let u := s.unitAt k
  u.data == BitVec.ofNat 64 (2 ^ 64 - 1) && u.weft == 0xFF && u.warp == 0xFF

/-- Is a page blank (Table 09-3)? -/
def Dev.pageBlank (s : Dev) (a b p : Nat) : Bool := (List.range 64).all fun i => s.unitBlank (s.pageAt a b p + 8 * i)

/-- The program pointer of a block, rebuilt where it is not known: one above the highest page that is not blank
(rule R351). -/
def Dev.pagePtr (s : Dev) (a b : Nat) : Nat :=
  let k := (s.arr a).block b
  if k.ptrOk then k.ptr
  else match ((List.range 128).reverse).find? fun p => !s.pageBlank a b p with
    | some p => p + 1
    | none => 0

/-- A block's record is changed. -/
def Dev.onBlock (s : Dev) (a b : Nat) (f : Block → Block) : Dev := s.setArr a ((s.arr a).setBlock b (f ((s.arr a).block b)))

/-- An array's record is changed. -/
def Dev.onArr (s : Dev) (a : Nat) (f : FlashArr → FlashArr) : Dev := s.setArr a (f (s.arr a))

/-- The program pointer of a block is rebuilt. -/
def Dev.rebuildPtr (s : Dev) (a b : Nat) : Dev := s.onBlock a b fun k => { k with ptr := s.pagePtr a b, ptrOk := true }

/-- Units with these data bytes and check bytes are stored from `k` on: `chk` holds weft and warp of each in turn. -/
def Dev.putUnits (s : Dev) (k : Nat) (data chk : List Byte) : Dev :=
  s.each (List.range (data.length / 8)) fun s i =>
    s.setUnitAt (k + 8 * i)
      { data := BitVec.ofNat 64 (fieldAt data (8 * i) 8), weft := chk.getD (2 * i) 0, warp := chk.getD (2 * i + 1) 0 }

/-- `n` units from `k` on hold open values: what a failed program or erase leaves is not defined (rule R352). -/
def Dev.openUnits (s : Dev) (k n : Nat) : Dev := (s.putUnits k (s.freeBytes (8 * n)) ((s.drewN (8 * n)).freeBytes (2 * n))).drewN (10 * n)

/-- The valid check bytes of data. -/
def chkOf (data : List Byte) : List Byte :=
  (List.range (data.length / 8)).flatMap fun i =>
    let d := BitVec.ofNat 64 (fieldAt data (8 * i) 8)
    [weftOf d, warpOf d]

/-! ### Protection and refusals (rule R350) -/

/-- Is a block protected: the slot the pairs run from, or both after a warm restructure (rules R41 and R62)? -/
def Dev.slotLocked (s : Dev) (a b : Nat) : Bool :=
  s.img.loaded && decide (b < 8) && (s.rd STR_STATUS_EXEC_SLOT == a || s.rd STR_STATUS_SLOT == a)

/-- Does another initiator than Sarnis aim at the counter journal (rule R297)? -/
def journalLocked (ini b : Nat) : Bool := b == 63 && ini != 9

/-- Is the array in IDLE or ERASE_SUSPENDED? -/
def Dev.flashReady (s : Dev) (a : Nat) : Bool := s.rd (FLC_STATE_STATE a) == 0 || s.rd (FLC_STATE_STATE a) == 3

/-- Is it this block whose erase is suspended? -/
def Dev.blockSusp (s : Dev) (a b : Nat) : Bool := match (s.arr a).susp with | some j => j.block == b | none => false

/-- Is it this block whose erase is suspended, or whose deferred retirement has not run (rules R350 and R359)? -/
def Dev.blockHeld (s : Dev) (a b : Nat) : Bool :=
  s.blockSusp a b || (match (s.arr a).failing with | some f => f.1 == b | none => false)

/-- The result of a command is written and its end is raised; RETIRED and WEAR_LAST are those of this command. -/
def Dev.flashResult (s : Dev) (a op : Nat) (st : Status) (pulses : Nat) : Dev :=
  let s := (((s.st (FLC_CMD_RESULT a) st).wr (FLC_CMD_LAST_OP a) op).wr (FLC_CMD_PULSES a) pulses).clr (FLC_CMD_PENDING a)
  ((s.clr (FLC_CMD_RETIRED a)).clr (FLC_CMD_WEAR_LAST a)).set (FLC_EVENTS_DONE a)

/-- A command is accepted: the array enters a state with it. -/
def Dev.flashAccept (s : Dev) (a state : Nat) (j : FlashJob) : Dev :=
  let s := s.onArr a fun f => { f with job := some j }
  ((s.set (FLC_CMD_PENDING a)).wr (FLC_STATE_STATE a) state).wr (FLC_STATE_BUSY_BLOCK a) j.block

/-- A write of OP: ignored while a command is pending. -/
def Dev.flashOp (s : Dev) (a ini : Nat) (f : Dev → Dev) : Dev :=
  if s.on (FLC_CMD_PENDING a) then s.set (FLC_EVENTS_CMD_IGNORED a) else f (s.onArr a fun r => { r with holder := ini })

/-- Is the source of a PROGRAM in frame memory? -/
def srcBad (src n : Nat) : Bool := decide (src < 0x20000000) || decide (0x20200000 < src + n)

/-- The stored bytes of a RAW source, neither checked nor darned nor counted (rule R344), and the status of its access. -/
def Dev.rdRaw (s : Dev) (ini a n : Nat) : Status × List Byte :=
  let units := (List.range (n / 8)).map fun i => (s.reach ini (a + 8 * i), a + 8 * i)
  (units.foldl (fun st u => worse st u.1.1) .ok,
   units.flatMap fun u => match u.1.2 with
     | some t => leBytes 8 (s.fetchUnit t u.2).data.toNat
     | none => leBytes 8 0)

/-- PROGRAM (rules R344, R350 and R351): the first failing condition, or acceptance with the source read. -/
def Dev.flashProgram (s : Dev) (a ini : Nat) (raw : Bool) : Dev :=
  let b := s.rd (FLC_ADDR_BLOCK a)
  let p := s.rd (FLC_ADDR_PAGE a)
  let src := 8 * s.rd (FLC_SRC_ADDR a)
  let n := if raw then 640 else 512
  if !s.flashReady a then s.flashResult a 1 .busy 0
  else if srcBad src n || (raw && !s.on WV_TEST_STAT_ENABLED) then s.flashResult a 1 .badCommand 0
  else if s.slotLocked a b || journalLocked ini b then s.flashResult a 1 .structureLocked 0
  else if s.blockHeld a b then s.flashResult a 1 .busy 0
  else
    let s := s.rebuildPtr a b
    if p < s.pagePtr a b then s.flashResult a 1 .order 0
    else
      let r := if raw then (s, s.rdRaw 0x13 src n) else s.rdMem 0x13 src n
      let s := r.1
      if r.2.1 ≠ .ok then s.flashResult a 1 r.2.1 0
      else if !s.pageBlank a b p then s.flashResult a 1 .notBlank 0
      else
        let data := r.2.2.take 512
        s.flashAccept a (if (s.arr a).susp.isSome then 4 else 1)
          { op := 1, block := b, page := p, data := data, chk := if raw then r.2.2.drop 512 else chkOf data, off := 0 }

/-- ERASE (rule R350): while WARN is active an accepted erase is suspended at once (rule R356). -/
def Dev.flashErase (s : Dev) (a ini : Nat) : Dev :=
  let b := s.rd (FLC_ADDR_BLOCK a)
  if !s.flashReady a then s.flashResult a 2 .busy 0
  else if s.slotLocked a b || journalLocked ini b then s.flashResult a 2 .structureLocked 0
  else if (s.arr a).susp.isSome then s.flashResult a 2 .busy 0
  else
    let j : FlashJob := { op := 2, block := b, page := 0, data := [], chk := [], off := 0 }
    let s := s.flashAccept a 2 j
    if s.on MNT_SUPPLY_STAT_WARN then
      let s := s.onArr a fun f => { f with job := none, susp := some j }
      let s := ((s.wr (FLC_STATE_STATE a) 3).wr (FLC_STATE_BUSY_BLOCK a) 0).wr (FLC_STATE_SUSP_BLOCK a) b
      ((s.set (FLC_STATE_SUSP_BY_WARN a)).set (FLC_EVENTS_WARN_SUSPEND a)).clr (FLC_CMD_PENDING a)
    else s

/-- BLANK_CHECK and the margin reads, operation `op` (rules R350 and R354). -/
def Dev.flashCheck (s : Dev) (a ini op : Nat) : Dev :=
  let b := s.rd (FLC_ADDR_BLOCK a)
  if !s.flashReady a then s.flashResult a op .busy 0
  else if journalLocked ini b then s.flashResult a op .routeDenied 0
  else if s.blockSusp a b then s.flashResult a op .busy 0
  else s.flashAccept a 6 { op := op, block := b, page := s.rd (FLC_ADDR_PAGE a), data := [], chk := [], off := 0 }

/-! ### Retirement (rules R358 to R361) -/

/-- The next retirement of the list starts, or the array is idle. Without a free spare the retirements after failures do
not take place (rule R360). -/
def Dev.retireNext (s : Dev) (a : Nat) : Dev :=
  match (s.arr a).copy with
  | [] => ((s.wr (FLC_STATE_STATE a) 0).wr (FLC_STATE_BUSY_BLOCK a) 0)
  | c :: r =>
    if (s.arr a).spares = [] then
      let s := s.onArr a fun f => { f with copy := [] }
      let s := if c.1 = 8 then s.flashResult a 8 .noSpare 0
        else s.each (c :: r) fun s c => (s.set (FLC_EVENTS_NO_SPARE a)).charge (0x0C + a) .blockNoSpare c.2.1
      (s.wr (FLC_STATE_STATE a) 0).wr (FLC_STATE_BUSY_BLOCK a) 0
    else (s.wr (FLC_STATE_STATE a) 5).wr (FLC_STATE_BUSY_BLOCK a) c.2.1

/-- RETIRE (rules R350 and R361). -/
def Dev.flashRetire (s : Dev) (a ini : Nat) : Dev :=
  let b := s.rd (FLC_ADDR_BLOCK a)
  if !s.flashReady a then s.flashResult a 8 .busy 0
  else if journalLocked ini b then s.flashResult a 8 .structureLocked 0
  else if (s.arr a).susp.isSome then s.flashResult a 8 .busy 0
  else if (s.arr a).spares = [] then s.flashResult a 8 .noSpare 0
  else
    let s := s.rebuildPtr a b
    let s := s.flashAccept a 5 { op := 8, block := b, page := 0, data := [], chk := [], off := 0 }
    s.onArr a fun f => { f with job := none, copy := [(8, b, s.pagePtr a b)] }

/-- Pages below `n` of one physical block are copied to another: darned units corrected, UNCORRECTABLE units as stored. -/
def Dev.copyPages (s : Dev) (src dst n : Nat) : Dev :=
  s.each (List.range (64 * n)) fun s i => s.setUnitAt (dst + 8 * i) (s.unitAt (src + 8 * i)).passed

/-- The retirement in progress finishes: the copy stands on the spare and the remap names it. RETIRED shows a command that
retired its own block. -/
def Dev.retireEnd (s : Dev) (a : Nat) : Dev :=
  match (s.arr a).copy, (s.arr a).spares with
  | c :: rest, q :: qs =>
    if s.rd (FLC_STATE_STATE a) ≠ 5 then s
    else
      let b := c.2.1
      let k := (s.arr a).block b
      let n := if c.1 = 2 then 0 else c.2.2
      let dst := flashBase a q
      let clean := (List.range 8192).all fun i => s.unitBlank (dst + 8 * i)
      let s := (s.blank dst 0x10000).copyPages (flashBase a k.phys) dst n
      let s := s.onBlock a b fun _ =>
        { phys := q, erases := if clean then 0 else 1, pulses := if clean then 0 else s.freeVal 5, wear := false,
          failing := false, ptr := n, ptrOk := true, darns := 0 }
      let s := s.drew.onArr a fun f => { f with copy := rest, spares := qs }
      let s := (s.wr (FLC_SPARES_LEFT a) qs.length).wr (FLC_SPARES_RETIRED a) (4 - qs.length)
      let s := if c.1 = 8 then s.flashResult a 8 .ok 0 else s
      let s := (s.put (FLC_CMD_RETIRED a) (s.on (FLC_CMD_RETIRED a) || s.rd (FLC_CMD_LAST_OP a) == c.1)).set (FLC_EVENTS_RETIRED a)
      (s.charge (0x0C + a) .blockRetired (b + 256 * q)).retireNext a
  | _, _ => s

/-! ### Ends of operations (rules R352 to R359) -/

/-- A suspended erase runs again. -/
def Dev.flashRun (s : Dev) (a : Nat) : Dev :=
  match (s.arr a).susp with
  | none => s
  | some j =>
    let s := s.onArr a fun f => { f with job := some j, susp := none, resume := false }
    let s := ((s.wr (FLC_STATE_STATE a) 2).wr (FLC_STATE_BUSY_BLOCK a) j.block).wr (FLC_STATE_SUSP_BLOCK a) 0
    ((s.clr (FLC_STATE_SUSP_BY_FW a)).clr (FLC_STATE_SUSP_BY_WARN a)).set (FLC_CMD_PENDING a)

/-- A suspended erase runs again for a RESUME, which reports OK; while WARN is active it waits for RECOVERED. -/
def Dev.flashResumeNow (s : Dev) (a : Nat) : Dev :=
  if s.on MNT_SUPPLY_STAT_WARN then s.onArr a fun f => { f with resume := true }
  else ((s.flashRun a).st (FLC_SUSPEND_RESULT a) .ok).set (FLC_EVENTS_DONE a)

/-- The array leaves a program or a check: to the suspended erase it interrupted, else to IDLE. -/
def Dev.flashBack (s : Dev) (a : Nat) : Dev :=
  let s := (s.onArr a fun f => { f with job := none }).wr (FLC_STATE_BUSY_BLOCK a) 0
  if (s.arr a).susp.isSome then
    let s := s.wr (FLC_STATE_STATE a) 3
    if (s.arr a).resume then s.flashResumeNow a else s
  else s.wr (FLC_STATE_STATE a) 0

/-- A wear threshold as it acts: 0 acts as 1, more than `top` as `top` (Table 09-17). -/
def wearLimit (top v : Nat) : Nat := min top (max 1 v)

/-- A command passed a wear threshold (rule R357). -/
def Dev.worn (s : Dev) (a b : Nat) : Dev :=
  ((s.onBlock a b fun k => { k with wear := true }).set (FLC_EVENTS_WEAR a)).set (FLC_CMD_WEAR_LAST a)

/-- A program ends (rules R352, R357, R358 and R359). -/
def Dev.programEnd (s : Dev) (a pulses : Nat) (ok : Bool) : Dev :=
  match (s.arr a).job with
  | none => s
  | some j =>
    if j.op ≠ 1 then s
    else
      let inSusp := s.rd (FLC_STATE_STATE a) == 4
      let at_ := s.pageAt a j.block j.page + j.off
      let s := if ok then s.putUnits at_ j.data j.chk else s.openUnits at_ (j.data.length / 8)
      let s := s.onBlock a j.block fun k => { k with ptr := max k.ptr (j.page + 1), ptrOk := true, failing := !ok }
      let s := s.flashResult a 1 (if ok then .ok else .programFail) pulses
      let s := if wearLimit 15 (s.rd FLC_CFG_PGM_WEAR) < pulses then s.worn a j.block else s
      let s := if ok then s else s.set (FLC_EVENTS_FAIL a)
      if ok ∨ !s.on FLC_CFG_AUTO_RETIRE then s.flashBack a
      else if inSusp then (s.onArr a fun f => { f with failing := some (j.block, j.page) }).flashBack a
      else (s.onArr a fun f => { f with job := none, copy := [(1, j.block, j.page)] }).retireNext a

/-- An erase ends (rules R352, R353, R357, R358 and R359). -/
def Dev.eraseEnd (s : Dev) (a pulses : Nat) (ok : Bool) : Dev :=
  match (s.arr a).job with
  | none => s
  | some j =>
    if j.op ≠ 2 then s
    else
      let at_ := s.pageAt a j.block 0
      let s := if ok then s.blank at_ 0x10000 else s.openUnits at_ 8192
      let s := s.onBlock a j.block fun k =>
        if ok then { k with erases := min (k.erases + 1) 0xFFFF, pulses := pulses, ptr := 0, ptrOk := true, failing := false }
        else { k with ptrOk := false, failing := true }
      let s := s.flashResult a 2 (if ok then .ok else .eraseFail) pulses
      let s := if wearLimit 31 (s.rd FLC_CFG_ERS_WEAR) < pulses then s.worn a j.block else s
      let s := if ok then s else s.set (FLC_EVENTS_FAIL a)
      let s := if (s.arr a).asked then (s.st (FLC_SUSPEND_RESULT a) .noErase).set (FLC_EVENTS_DONE a) else s
      let own := if !ok ∧ s.on FLC_CFG_AUTO_RETIRE then [(2, j.block, 0)] else []
      let late := match (s.arr a).failing with | some f => [(1, f.1, f.2)] | none => []
      (s.onArr a fun f => { f with job := none, asked := false, recording := false, failing := none, copy := own ++ late }).retireNext a

/-- A blank check or a margin read ends (rule R354); `shifted` holds the units that read differently at the shifted
reference. -/
def Dev.checkEnd (s : Dev) (a : Nat) (shifted : List (Fin 64 × Unit8)) : Dev :=
  match (s.arr a).job with
  | none => s
  | some j =>
    if s.rd (FLC_STATE_STATE a) ≠ 6 then s
    else if j.op = 5 then (s.flashResult a 5 (if s.pageBlank a j.block j.page then .ok else .notBlank) 0).flashBack a
    else
      let plain := fun i => s.unitAt (s.pageAt a j.block j.page + 8 * i)
      let read := fun i => match shifted.find? fun x => x.1.val == i with | some x => x.2 | none => plain i
      let n := ((List.range 64).filter fun i => read i != plain i).length
      let w := (List.range 64).foldl (fun m i => max m (read i).outcome) 0
      let s := (s.wr (FLC_MARGIN_UNITS_DIFF a) n).wr (FLC_MARGIN_WORST a) w
      (s.flashResult a j.op (if n = 0 then .ok else .marginFail) 0).flashBack a

/-! ### Suspend, resume and the supply (rules R355 and R356) -/

/-- A control reports its result. -/
def Dev.flashControl (s : Dev) (a : Nat) (st : Status) : Dev := (s.st (FLC_SUSPEND_RESULT a) st).set (FLC_EVENTS_DONE a)

/-- The running erase is suspended. -/
def Dev.flashPause (s : Dev) (a : Nat) : Dev :=
  match (s.arr a).job with
  | none => s
  | some j =>
    let s := s.onArr a fun f => { f with job := none, susp := some j }
    let s := ((s.wr (FLC_STATE_STATE a) 3).wr (FLC_STATE_BUSY_BLOCK a) 0).wr (FLC_STATE_SUSP_BLOCK a) j.block
    s.clr (FLC_CMD_PENDING a)

/-- A SUSPEND control; `verified` where the last verify of the running erase has passed. -/
def Dev.flashSuspend (s : Dev) (a : Nat) (verified : Bool) : Dev :=
  match s.rd (FLC_STATE_STATE a) with
  | 2 =>
    if verified ∨ (s.arr a).recording then s.onArr a fun f => { f with asked := true, recording := true }
    else ((s.flashPause a).set (FLC_STATE_SUSP_BY_FW a)).flashControl a .ok
  | 3 => ((s.onArr a fun f => { f with resume := false }).set (FLC_STATE_SUSP_BY_FW a)).flashControl a .ok
  | 6 =>
    if (s.arr a).susp.isSome then
      ((s.onArr a fun f => { f with resume := false }).set (FLC_STATE_SUSP_BY_FW a)).flashControl a .ok
    else s.flashControl a .noErase
  | 0 => s.flashControl a .noErase
  | _ => s.flashControl a .suspendRefused

/-- A RESUME control. -/
def Dev.flashResume (s : Dev) (a : Nat) : Dev :=
  match s.rd (FLC_STATE_STATE a) with
  | 3 => s.flashResumeNow a
  | 4 => s.onArr a fun f => { f with resume := true }
  | 6 => if (s.arr a).susp.isSome then s.onArr a fun f => { f with resume := true } else s.flashControl a .noErase
  | _ => s.flashControl a .noErase

/-- WARN is raised: an erase that has not yet verified is suspended (rule R356). -/
def Dev.flashWarn (s : Dev) (a : Nat) (verified : Bool) : Dev :=
  if s.rd (FLC_STATE_STATE a) ≠ 2 then s
  else if verified ∨ (s.arr a).recording then s.onArr a fun f => { f with recording := true }
  else ((s.flashPause a).set (FLC_STATE_SUSP_BY_WARN a)).set (FLC_EVENTS_WARN_SUSPEND a)

/-- RECOVERED: erases that WARN suspended run again, unless firmware suspended them too, and no erase is then suspended by
WARN; deferred resumes take effect. -/
def Dev.flashRecovered (s : Dev) (a : Nat) : Dev :=
  let warn := s.on (FLC_STATE_SUSP_BY_WARN a) && !s.on (FLC_STATE_SUSP_BY_FW a)
  if (s.arr a).susp.isNone then s
  else
    let s := (if warn then s.set (FLC_EVENTS_WARN_RESUMED a) else s).clr (FLC_STATE_SUSP_BY_WARN a)
    if s.rd (FLC_STATE_STATE a) = 3 then
      if (s.arr a).resume then s.flashResumeNow a
      else if warn then s.flashRun a else s
    else if warn then s.onArr a fun f => { f with resume := true } else s

/-! ### A reset or power loss (rule R362) -/

/-- A job that a reset or power loss cuts leaves open values in the page or block it worked on; a cut journal record counts as
programmed. -/
def Dev.tornJob (s : Dev) (a : Nat) : Option FlashJob → Dev
  | some j =>
    if j.data ≠ [] then
      let s := s.openUnits (s.pageAt a j.block j.page + j.off) (j.data.length / 8)
      if j.data.length = 64 then { s with sec := { s.sec with jNext := s.sec.jNext + 1 } } else s
    else if j.op = 2 then s.openUnits (s.pageAt a j.block 0) 8192 else s
  | none => s

/-- The operations of an array are cut. -/
def Dev.tornFlash (s : Dev) (a : Nat) : Dev := (s.tornJob a (s.arr a).job).tornJob a (s.arr a).susp

/-! ### Meanings -/

/-- FLASH_PROGRAM, rule R350. -/
def execFlashProgram (a : Fin 2) (ini : Ini) (raw : Bool) : State → Host.Outcome State Fault Refusal :=
  onDev fun s => s.cmdAt ini (FLC_CMD a) fun s => s.flashOp a ini fun s => s.flashProgram a ini raw
/-- FLASH_ERASE, rule R350. -/
def execFlashErase (a : Fin 2) (ini : Ini) : State → Host.Outcome State Fault Refusal :=
  onDev fun s => s.cmdAt ini (FLC_CMD a) fun s => s.flashOp a ini fun s => s.flashErase a ini
/-- BLANK_CHECK, rule R350. -/
def execBlankCheck (a : Fin 2) (ini : Ini) : State → Host.Outcome State Fault Refusal :=
  onDev fun s => s.cmdAt ini (FLC_CMD a) fun s => s.flashOp a ini fun s => s.flashCheck a ini 5
/-- MARGIN_PGM, rule R354. -/
def execMarginPgm (a : Fin 2) (ini : Ini) : State → Host.Outcome State Fault Refusal :=
  onDev fun s => s.cmdAt ini (FLC_CMD a) fun s => s.flashOp a ini fun s => s.flashCheck a ini 6
/-- MARGIN_ERS, rule R354. -/
def execMarginErs (a : Fin 2) (ini : Ini) : State → Host.Outcome State Fault Refusal :=
  onDev fun s => s.cmdAt ini (FLC_CMD a) fun s => s.flashOp a ini fun s => s.flashCheck a ini 7
/-- FLASH_RETIRE, rule R358. -/
def execFlashRetire (a : Fin 2) (ini : Ini) : State → Host.Outcome State Fault Refusal :=
  onDev fun s => s.cmdAt ini (FLC_CMD a) fun s => s.flashOp a ini fun s => s.flashRetire a ini
/-- FLASH_SUSPEND, rule R355. -/
def execFlashSuspend (a : Fin 2) (ini : Ini) (verified : Bool) : State → Host.Outcome State Fault Refusal :=
  onDev fun s => s.cmdAt ini (FLC_SUSPEND a) fun s => s.flashSuspend a verified
/-- FLASH_RESUME, rule R355. -/
def execFlashResume (a : Fin 2) (ini : Ini) : State → Host.Outcome State Fault Refusal :=
  onDev fun s => s.cmdAt ini (FLC_SUSPEND a) fun s => s.flashResume a

end Sys2Proof.Machine
end

