-- ==== Sys2Proof/Machine/Patrol.lean ====
section
/-!
DEFINITION. The patrol, the retirement of lines, test mode, and the scrub of a memory at power-up (chapter 09).
-/

namespace Sys2Proof.Machine

/-! ### Lines (rules R337 to R342) -/

/-- The reservations of units in the line at storage address `src` follow it to `dst` (rules R338 and R375). -/
def Dev.resvMove (s : Dev) (src dst : Nat) : Dev :=
  s.each [0, 1] fun s x => match (s.pair x).resv with
    | some k => if src ≤ k ∧ k < src + 32 then s.setPair x { s.pair x with resv := some (dst + (k - src)) } else s
    | none => s

/-- A line of frame memory is moved to the lowest free spare of its segment; the caller has found one (rule R338). -/
def Dev.lineMove (s : Dev) (n a : Nat) : Dev :=
  let i := 128 - s.rd (WV_SEG_SPARES_LEFT n)
  let src := s.place (.seg n) a
  let dst := spareBase n + 32 * i
  let s := s.each (List.range 4) fun s j => s.setUnitAt (dst + 8 * j) (s.unitAt (src + 8 * j)).passed
  let s := s.resvMove src dst
  let s := { s with weave := { s.weave with lines := mapPut (fun _ => 0) s.weave.lines a (i + 1) } }
  let s := (s.wr (WV_SEG_SPARES_LEFT n) (127 - i)).bump WV_CNT_RETIRED_COUNT
  (s.set WV_EVENTS_LINE_RETIRED).noteEvent (0x0E + n) .lineThreshold a

/-- A line of frame memory falls due for retirement (rules R338 and R340). -/
def Dev.lineDue (s : Dev) (n a : Nat) : Dev :=
  if s.rd (WV_SEG_SPARES_LEFT n) = 0 then
    ((s.set (WV_SEG_EXHAUSTED n)).set WV_EVENTS_SPARES_EXHAUSTED).charge (0x0E + n) .sparesExhausted a
  else s.lineMove n a

/-- The tracker window in counts (WINDOW_MIN; 0 acts as 1). -/
def Dev.lineWindow (s : Dev) : Nat := max 1 (s.rd WV_LINE_CFG_WINDOW_MIN) * 480000000

/-- The entry of the tracker to give up: the one with the oldest first darn. -/
def oldestTrack (now : Nat) : List Track → Option Track
  | [] => none
  | t :: r => match oldestTrack now r with
    | none => some t
    | some u => if tsDiff now u.first ≤ tsDiff now t.first then some t else some u

/-- A patrol darn on a line is counted in the tracker; the answer says whether the line exceeds THRESHOLD. -/
def Dev.trackDarn (s : Dev) (line : Nat) : Dev × Bool :=
  let thr := s.rd WV_LINE_CFG_THRESHOLD
  let put (s : Dev) (l : List Track) : Dev := { s with weave := { s.weave with track := l } }
  match s.weave.track.find? fun t => t.line == line with
  | some t =>
    let n : Track := if ((s.lineWindow : Nat) : Int) < tsDiff s.now t.first then { t with count := 1, first := s.now }
      else { t with count := t.count + 1 }
    let rest := s.weave.track.filter fun t => t.line != line
    if thr < n.count then (put s rest, true) else (put s (n :: rest), false)
  | none =>
    let n : Track := { line := line, count := 1, first := s.now }
    if thr < 1 then (s, true)
    else if s.weave.track.length < 64 then (put s (n :: s.weave.track), false)
    else match oldestTrack s.now s.weave.track with
      | some o => ((put s (n :: s.weave.track.filter fun t => t != o)).bump WV_CNT_TRACK_EVICT_COUNT, false)
      | none => (s, false)

/-! ### The walk (rules R333 to R336) -/

/-- Region `r` in the bit order of REGIONS, as the memory it is. -/
def regionOf (r : Nat) : Target := if r < 8 then .seg r else if r < 10 then .tcm (r - 8) else .leRam (r - 10)

/-- Lines of region `r`. -/
def regionLines (r : Nat) : Nat := if r < 10 then 8192 else 2048

/-- Address of line `l` of region `r`: of the bus where the region has one, else inside the engine's own memory. -/
def lineAddr (r l : Nat) : Nat :=
  32 * l + if r < 8 then 0x20000000 + 0x40000 * r else if r < 10 then 0x01000000 + 0x40000 * (r - 8) else 0

/-- Is region `r` walked: set in the mask, its memory powered and ready? -/
def Dev.walked (s : Dev) (r : Nat) : Bool := s.bit WV_PATROL_MASK_REGIONS r && s.alive (regionOf r) 0

/-- What a check of a line met: its darns exceed THRESHOLD, a unit is UNCORRECTABLE. -/
structure LineCheck where
  worn : Bool
  lost : Bool
deriving DecidableEq, Repr

/-- One unit is checked and written back (rule R334). -/
def Dev.patrolUnit (s : Dev) (r a : Nat) : Dev × LineCheck :=
  let t := regionOf r
  let k := s.place t a
  let u := s.unitAt k
  match u.outcome with
  | 0 => (s, ⟨false, false⟩)
  | 1 => (((s.breakResv 0x12 k).setUnitAt k u.passed).bump WV_CNT_CHECK_ONLY_COUNT, ⟨false, false⟩)
  | 2 =>
    let s := (((s.breakResv 0x12 k).setUnitAt k u.passed).bump WV_CNT_PATROL_DARN_COUNT).set WV_EVENTS_PATROL_DARN
    let q := s.trackDarn (if r < 10 then a / 32 * 32 else leBase (r - 10) + a / 32 * 32)
    (q.1, ⟨q.2, false⟩)
  | _ => (s.logUncorr a, ⟨false, true⟩)

/-- A line is checked, unit by unit, and retired or charged where it falls due: lines of TCM and link-engine SRAM have no
spares and are charged (rule R342). -/
def Dev.patrolLine (s : Dev) (r l : Nat) : Dev :=
  let a := lineAddr r l
  let q := (List.range 4).foldl (fun (x : Dev × LineCheck) i =>
    let y := x.1.patrolUnit r (a + 8 * i)
    (y.1, ⟨x.2.worn || y.2.worn, x.2.lost || y.2.lost⟩)) (s, ⟨false, false⟩)
  if r < 8 then (if q.2.worn || q.2.lost then q.1.lineDue r a else q.1)
  else if q.2.worn then q.1.charge (r - 8) .lineThreshold a
  else q.1

/-- The position after line `l` of region `r`; a pass ends behind the last region. -/
def Dev.patrolStep (s : Dev) (r l : Nat) : Dev :=
  if l + 1 < regionLines r then (s.wr WV_PATROL_POS_REGION r).wr WV_PATROL_POS_LINE (l + 1)
  else
    let s := (s.wr WV_PATROL_POS_REGION ((r + 1) % 16)).wr WV_PATROL_POS_LINE 0
    if r = 15 then (s.wr WV_PATROL_STAT_PASSES (s.rd WV_PATROL_STAT_PASSES + 1)).set WV_EVENTS_PASS_DONE else s

/-- Regions that are not walked are passed over, at most one round of them. -/
def Dev.patrolSkip : Nat → Dev → Dev
  | 0, s => s
  | n + 1, s =>
    let r := s.rd WV_PATROL_POS_REGION
    if s.walked r then s else Dev.patrolSkip n (s.patrolStep r (regionLines r))

/-- One line of the walk: retained segments first after a wake, then from the position on. -/
def Dev.patrolOne (s : Dev) : Dev :=
  match s.weave.retain with
  | (n, l) :: rest =>
    let next := if l + 1 < 8192 then (n, l + 1) :: rest else rest
    let s := { s with weave := { s.weave with retain := next } }
    if s.walked n then s.patrolLine n l else { s with weave := { s.weave with retain := rest } }
  | [] =>
    let s := Dev.patrolSkip 16 s
    let r := s.rd WV_PATROL_POS_REGION
    let l := s.rd WV_PATROL_POS_LINE
    if s.walked r then (s.patrolLine r l).patrolStep r l else s

/-- Tick period and catch-up step in counts, from fields as they act (rules R225 and R335). -/
def tickTimes (us low shift : Nat) : Nat × Nat := (8 * max low us, 8 * max low us / 2 ^ max 1 shift)

/-- A tick starts under the catch-up arithmetic of rule R225: none where it may not start yet; else its lag in counts,
the time the next tick is due, and the earliest start of that one. -/
def tickStart (now period step : Nat) (due : Option Nat) (min : Nat) : Option (Nat × Nat × Nat) :=
  match due with
  | none => some (0, tsAdd now period, tsAdd now period)
  | some d =>
    if tsLe d now && tsLe min now then
      let next := tsAdd d period
      let soon := tsAdd now (((period : Nat) : Int) - step)
      some ((tsDiff now d).toNat, next, if tsLe soon next then next else soon)
    else none

/-- PATROL_TICK (rules R333 and R335). -/
def Dev.patrolTick (s : Dev) : Dev :=
  let p := tickTimes (s.rd WV_PATROL_CFG_TICK_US) 100 (s.rd WV_PATROL_CFG_STEP_SHIFT)
  if !s.on WV_PATROL_CFG_ENABLE || !s.up 7 then s
  else match tickStart s.now p.1 p.2 s.weave.due s.weave.tickMin with
    | none => s
    | some (lag, due, min_) =>
      let s := { s with weave := { s.weave with due := some due, tickMin := min_ } }
      let s := s.wr WV_PATROL_STAT_LAG_US (min 0xFFFF (lag / 8))
      let s := if lag = 0 then s else s.set WV_EVENTS_CATCHUP
      s.each (List.range (max 1 (s.rd WV_PATROL_CFG_BATCH))) fun s _ => s.patrolOne

/-! ### Retirement by command and test mode (rules R339 and R343) -/

/-- The result of a line retirement by address. -/
def Dev.retireLineCmd (s : Dev) (a : Nat) : Dev :=
  let n := (a - 0x20000000) / 0x40000
  let line := a / 32 * 32
  if a < 0x20000000 ∨ 0x20200000 ≤ a then s.st WV_RETIRE_STAT_RESULT .badCommand
  else if !s.alive (.seg n) a then s.st WV_RETIRE_STAT_RESULT .notReady
  else if mapGet (fun _ => 0) s.weave.lines line ≠ 0 then s.st WV_RETIRE_STAT_RESULT .ok
  else if s.rd (WV_SEG_SPARES_LEFT n) = 0 then s.st WV_RETIRE_STAT_RESULT .noSpare
  else (s.lineMove n line).st WV_RETIRE_STAT_RESULT .ok

/-- A write to WV_TEST_KEY. -/
def Dev.testKey (s : Dev) (key : Nat) : Dev := s.put WV_TEST_STAT_ENABLED (decide (key = 0x57454156))

/-- The address of a test command, a multiple of 8. -/
def Dev.testAddr (s : Dev) : Nat := 8 * s.rd WV_TEST_ADDR_ADDR

/-- The memory of frame memory or flash behind an address. -/
def rawTarget (a : Nat) : Option Target :=
  if 0x20000000 ≤ a ∧ a < 0x20200000 then some (.seg ((a - 0x20000000) / 0x40000))
  else if 0x10000000 ≤ a ∧ a < 0x10800000 then some (.flash ((a - 0x10000000) / 0x400000))
  else none

/-- What rule R343 refuses a test command on the unit at `a` of memory `t` with: the rule states no order, so the lowest code counts
(chapter 00, "Status codes"). -/
def Dev.rawCheck (s : Dev) (ini a : Nat) : Option Target → Status
  | none => .badCommand
  | some t => lowestOf [(!s.on WV_TEST_STAT_ENABLED, .badCommand), (!s.alive t a, .notReady),
      (sarnisOnly a && ini != 9, .routeDenied)]

/-- WRITE_RAW: allowed in frame memory only. -/
def Dev.writeRaw (s : Dev) (ini : Nat) : Dev :=
  let a := s.testAddr
  match rawTarget a with
  | some (.seg n) =>
    match s.rawCheck ini a (some (.seg n)) with
    | .ok =>
      let u : Unit8 :=
        { data := BitVec.ofNat 64 (s.rd WV_TEST_DATA_LO_DATA + 2 ^ 32 * s.rd WV_TEST_DATA_HI_DATA),
          weft := BitVec.ofNat 8 (s.rd WV_TEST_CHK_WEFT), warp := BitVec.ofNat 8 (s.rd WV_TEST_CHK_WARP) }
      ((s.breakResv ini (s.place (.seg n) a)).setUnitAt (s.place (.seg n) a) u).st WV_TEST_CMD_RESULT .ok
    | st => s.st WV_TEST_CMD_RESULT st
  | _ => s.st WV_TEST_CMD_RESULT .badCommand

/-- READ_RAW: no checking, no darning, nothing counted. -/
def Dev.readRaw (s : Dev) (ini : Nat) : Dev :=
  let a := s.testAddr
  match s.rawCheck ini a (rawTarget a), rawTarget a with
  | .ok, some t =>
    let u := s.unitAt (s.place t a)
    let s := (s.wr WV_TEST_DATA_LO_DATA u.data.toNat).wr WV_TEST_DATA_HI_DATA (u.data.toNat / 2 ^ 32)
    let s := (s.wr WV_TEST_CHK_WEFT u.weft.toNat).wr WV_TEST_CHK_WARP u.warp.toNat
    let s := (s.wr WV_TEST_SYND_WEFT_SYN (syndromes u).1).wr WV_TEST_SYND_WARP_SYN (syndromes u).2
    (s.wr WV_TEST_SYND_OUTCOME u.outcome).st WV_TEST_CMD_RESULT .ok
  | st, _ => s.st WV_TEST_CMD_RESULT st

/-! ### Scrub at power-up (rules R346 and R510) -/

/-- A TCM or link-engine SRAM, by its number in `Weave.scrubbed`, is scrubbed. -/
def Dev.setScrubbed (s : Dev) (i : Nat) (b : Bool) : Dev :=
  { s with weave := { s.weave with scrubbed := mapPut (fun _ => false) s.weave.scrubbed i b } }

/-- A segment has scrubbed itself, spare lines included. -/
def Dev.segScrub (s : Dev) (n : Nat) : Dev :=
  ((s.scrub (0x20000000 + 0x40000 * n) 0x40000).scrub (spareBase n) 0x1000).set (WV_SEG_READY n)

/-- The scrub that runs ends: only in a memory that is powered and not yet ready. -/
def Dev.scrubDone (s : Dev) (m : ScrubMem) : Dev :=
  match m with
  | .seg n =>
    if s.up 6 ∧ (s.img.segUse[n.val]?).getD 5 ≠ 5 ∧ !s.on (WV_SEG_READY n) then s.segScrub n else s
  | .tcm p =>
    if s.up (3 + p) ∧ !mapGet (fun _ => false) s.weave.scrubbed p then
      (s.scrub (0x01000000 + 0x40000 * p) 0x40000).setScrubbed p true
    else s
  | .le k =>
    if s.up 5 ∧ !mapGet (fun _ => false) s.weave.scrubbed (2 + k) then (s.scrub (leBase k) 0x10000).setScrubbed (2 + k) true
    else s

/-! ### Meanings -/

/-- PATROL_TICK, rule R333. -/
def execPatrolTick : State → Host.Outcome State Fault Refusal := onDev (·.patrolTick)
/-- WV_RETIRE_CMD, rule R339. -/
def execWvRetireCmd (ini : Ini) (a : BitVec 32) : State → Host.Outcome State Fault Refusal :=
  onDev fun s => s.cmdAt ini WV_RETIRE_CMD (·.retireLineCmd (a.toNat / 8 * 8))
/-- WV_TEST_KEY, rule R343. -/
def execWvTestKey (ini : Ini) (key : Word) : State → Host.Outcome State Fault Refusal :=
  onDev fun s => s.cmdAt ini WV_TEST_KEY (·.testKey key.toNat)
/-- WRITE_RAW, rule R343. -/
def execWriteRaw (ini : Ini) : State → Host.Outcome State Fault Refusal := 
  onDev fun s => s.cmdAt ini WV_TEST_CMD (·.writeRaw ini)
/-- READ_RAW, rule R343. -/
def execReadRaw (ini : Ini) : State → Host.Outcome State Fault Refusal :=
  onDev fun s => s.cmdAt ini WV_TEST_CMD (·.readRaw ini)

end Sys2Proof.Machine
end

