-- ==== Sys2Proof/Machine/Crypto.lean ====
section
/-!
DEFINITION. The cryptography that chapters 02 and 08 cite: AES (FIPS 197), AES-CMAC (SP 800-38B), CCM* in the form of
IEEE 802.15.4-2020 (rules R163 and R300), AES-KW (SP 800-38F) and CTR_DRBG with AES-256 (SP 800-90A, rule R320).
A block is a list of sixteen bytes, written as numbers below 256.
-/

namespace Sys2Proof.Machine

/-! ### The field of 256 elements and the substitution -/

/-- Twice an element of GF(2^8). -/
def gfDouble (a : Nat) : Nat := if a < 128 then 2 * a else (2 * a) ^^^ 0x11B

/-- The product of two elements of GF(2^8), the low `n` bits of the second taken one by one. -/
def gfMul : Nat → Nat → Nat → Nat
  | 0, _, _ => 0
  | n + 1, a, b => (if b % 2 = 1 then a else 0) ^^^ gfMul n (gfDouble a) (b / 2)

/-- The byte of `a` in a table of sixteen rows of sixteen bytes, written as FIPS 197 prints them. -/
def boxByte (rows : List Nat) (a : Nat) : Nat := rows.getD (a / 16) 0 / 2 ^ (8 * (15 - a % 16)) % 256

/-- The AES substitution of one byte: its inverse in GF(2^8), then the affine map. -/
def subByte : Nat → Nat := boxByte [
  0x637c777bf26b6fc53001672bfed7ab76, 0xca82c97dfa5947f0add4a2af9ca472c0, 0xb7fd9326363ff7cc34a5e5f171d83115,
  0x04c723c31896059a071280e2eb27b275, 0x09832c1a1b6e5aa0523bd6b329e32f84, 0x53d100ed20fcb15b6acbbe394a4c58cf,
  0xd0efaafb434d338545f9027f503c9fa8, 0x51a3408f929d38f5bcb6da2110fff3d2, 0xcd0c13ec5f974417c4a77e3d645d1973,
  0x60814fdc222a908846eeb814de5e0bdb, 0xe0323a0a4906245cc2d3ac629195e479, 0xe7c8376d8dd54ea96c56f4ea657aae08,
  0xba78252e1ca6b4c6e8dd741f4bbd8b8a, 0x703eb5664803f60e613557b986c11d9e, 0xe1f8981169d98e949b1e87e9ce5528df,
  0x8ca1890dbfe6426841992d0fb054bb16]

/-- The inverse substitution. -/
def unsubByte : Nat → Nat := boxByte [
  0x52096ad53036a538bf40a39e81f3d7fb, 0x7ce339829b2fff87348e4344c4dee9cb, 0x547b9432a6c2233dee4c950b42fac34e,
  0x082ea16628d924b2765ba2496d8bd125, 0x72f8f66486689816d4a45ccc5d65b692, 0x6c704850fdedb9da5e154657a78d9d84,
  0x90d8ab008cbcd30af7e45805b8b34506, 0xd02c1e8fca3f0f02c1afbd0301138a6b, 0x3a9111414f67dcea97f2cfcef0b4e673,
  0x96ac7422e7ad3585e2f937e81c75df6e, 0x47f11a711d29c5896fb7620eaa18be1b, 0xfc563e4bc6d279209adbc0fe78cd5af4,
  0x1fdda8338807c731b11210592780ec5f, 0x60517fa919b54a0d2de57a9f93c99cef, 0xa0e03b4dae2af5b0c8ebbb3c83539961,
  0x172b047eba77d626e169146355210c7d]

/-! ### AES -/

/-- The sum of two lists of bytes. -/
def xorList (a b : List Nat) : List Nat := List.zipWith (· ^^^ ·) a b

/-- The key schedule of rule FIPS 197: `n` further words after the newest-first list `w`, whose key has `nk` words. -/
def keyWords (nk : Nat) : Nat → Nat → Nat → List (List Nat) → List (List Nat)
  | 0, _, _, w => w.reverse
  | n + 1, i, rcon, w =>
    let prev := w.headD []
    let t := if i % nk = 0 then
        let r := (prev.rotateLeft 1).map subByte
        xorList r [rcon, 0, 0, 0]
      else if nk = 8 ∧ i % nk = 4 then prev.map subByte
      else prev
    keyWords nk n (i + 1) (if i % nk = 0 then gfDouble rcon else rcon) (xorList (w.getD (nk - 1) []) t :: w)

/-- `l` in groups of `k`, `n` of them. -/
def groups (k : Nat) : Nat → List Nat → List (List Nat)
  | 0, _ => []
  | n + 1, l => l.take k :: groups k n (l.drop k)

/-- The round keys of a 16- or 32-byte key, one block each. -/
def roundKeys (key : List Nat) : List (List Nat) :=
  let nk := key.length / 4
  let w := keyWords nk (4 * (nk + 7) - nk) nk 1 (groups 4 nk key).reverse
  groups 16 (nk + 7) w.flatten

/-- The rows of a block shifted: row `r` turned left by `r`. -/
def shiftRows (b : List Nat) : List Nat := (List.range 16).map fun i => b.getD ((i + 4 * (i % 4)) % 16) 0

/-- The rows of a block shifted back. -/
def unshiftRows (b : List Nat) : List Nat := (List.range 16).map fun i => b.getD ((i + 12 * (i % 4)) % 16) 0

/-- The columns of a block mixed with the coefficients `c`. -/
def mixWith (c : List Nat) (b : List Nat) : List Nat :=
  (List.range 16).map fun i =>
    (List.range 4).foldl (fun x j => x ^^^ gfMul 4 (b.getD (i / 4 * 4 + j) 0) (c.getD ((j + 4 - i % 4) % 4) 0)) 0

/-- The forward cipher over the remaining round keys. -/
def cipherRounds : List (List Nat) → List Nat → List Nat
  | [], b => b
  | [k], b => xorList (shiftRows (b.map subByte)) k
  | k :: r, b => cipherRounds r (xorList (mixWith [2, 3, 1, 1] (shiftRows (b.map subByte))) k)

/-- AES of one block. -/
def aes (key b : List Nat) : List Nat :=
  match roundKeys key with
  | k :: r => cipherRounds r (xorList b k)
  | [] => b

/-- The inverse cipher over the round keys, last first. -/
def uncipherRounds : List (List Nat) → List Nat → List Nat
  | [], b => b
  | [k], b => xorList ((unshiftRows b).map unsubByte) k
  | k :: r, b => uncipherRounds r (mixWith [14, 11, 13, 9] (xorList ((unshiftRows b).map unsubByte) k))

/-- The inverse of AES on one block. -/
def unaes (key b : List Nat) : List Nat :=
  match (roundKeys key).reverse with
  | k :: r => uncipherRounds r (xorList b k)
  | [] => b

/-! ### AES-CMAC -/

/-- A block doubled in GF(2^128) (SP 800-38B). -/
def cmacDouble (b : List Nat) : List Nat :=
  let x := b.foldl (fun v y => 256 * v + y) 0
  let y := (2 * x) % 2 ^ 128
  let z := if x < 2 ^ 127 then y else y ^^^ 0x87
  (List.range 16).map fun i => z / 2 ^ (8 * (15 - i)) % 256

/-- A block of zeros. -/
def zero16 : List Nat := List.replicate 16 0

/-- The chaining value after whole blocks of `m`, `n` of them. -/
def cmacChain (key : List Nat) : Nat → List Nat → List Nat → List Nat
  | 0, c, _ => c
  | n + 1, c, m => cmacChain key n (aes key (xorList c (m.take 16))) (m.drop 16)

/-- The last block of a CMAC over the last 0 to 16 octets of the message. -/
def cmacLast (key c m : List Nat) : List Nat :=
  let k1 := cmacDouble (aes key zero16)
  let last := if m.length = 16 then xorList m k1
    else xorList (m ++ [0x80] ++ List.replicate (15 - m.length) 0) (cmacDouble k1)
  aes key (xorList c last)

/-- Whole blocks of a message before its last one. -/
def cmacWhole (m : List Nat) : Nat := (m.length - 1) / 16

/-- AES-CMAC continued from the chaining value `c`. -/
def cmacFrom (key c m : List Nat) : List Nat :=
  let n := cmacWhole m
  cmacLast key (cmacChain key n c m) (m.drop (16 * n))

/-- AES-CMAC of a message. -/
def cmac (key m : List Nat) : List Nat := cmacFrom key zero16 m

/-! ### CCM* -/

/-- `n` big-endian bytes of `v`, as numbers. -/
def be (n v : Nat) : List Nat := (beBytes n v).map (·.toNat)

/-- `m` padded with zeros to whole blocks. -/
def pad16 (m : List Nat) : List Nat := m ++ List.replicate ((16 - m.length % 16) % 16) 0

/-- The CCM* nonce: source address, counter and level, most significant octet first (rules R163 and R300). -/
def ccmNonce (src : List Nat) (fc level : Nat) : List Nat := src.reverse ++ be 4 fc ++ [level]

/-- MIC octets of a security level (rule R163). -/
def micOctets (level : Nat) : Nat :=
  match level % 4 with
  | 1 => 4
  | 2 => 8
  | 3 => 16
  | _ => 0

/-- The CBC-MAC of authenticated data `a` and message `m`. -/
def ccmMac (key nonce : List Nat) (mic : Nat) (a m : List Nat) : List Nat :=
  let flags := (if a = [] then 0 else 64) + 8 * ((mic - 2) / 2) + 1
  let b := [flags] ++ nonce ++ be 2 m.length ++ (if a = [] then [] else pad16 (be 2 a.length ++ a)) ++ pad16 m
  cmacChain key (b.length / 16) zero16 b

/-- Counter block `i` enciphered. -/
def ccmKey (key nonce : List Nat) (i : Nat) : List Nat := aes key ([1] ++ nonce ++ be 2 i)

/-- The counter-mode pass, from counter `i` on, over `n` blocks. -/
def ccmStream (key nonce : List Nat) : Nat → Nat → List Nat → List Nat
  | 0, _, _ => []
  | n + 1, i, m => xorList (m.take 16) (ccmKey key nonce i) ++ ccmStream key nonce n (i + 1) (m.drop 16)

/-- The message through the counter-mode pass. -/
def ccmCrypt (key nonce m : List Nat) : List Nat := ccmStream key nonce ((m.length + 15) / 16) 1 m

/-- The enciphered MIC of authenticated data and plaintext at a level. -/
def ccmMic (key nonce : List Nat) (level : Nat) (a m : List Nat) : List Nat :=
  let n := micOctets level
  let t := if level < 4 then ccmMac key nonce n (a ++ m) [] else ccmMac key nonce n a m
  (xorList t (ccmKey key nonce 0)).take n

/-! ### AES-KW -/

/-- One step of the wrap over the registers, step number `t`. -/
def kwStep (key : List Nat) (n t : Nat) (s : List Nat × List (List Nat)) : List Nat × List (List Nat) :=
  let i := (t - 1) % n
  let b := aes key (s.1 ++ s.2.getD i [])
  (xorList (b.take 8) (be 8 t), s.2.set i (b.drop 8))

/-- AES-KW of a message of whole 8-octet pieces. -/
def kwWrap (key m : List Nat) : List Nat :=
  let n := m.length / 8
  let r := (List.range (6 * n)).foldl (fun s t => kwStep key n (t + 1) s) (List.replicate 8 0xA6, groups 8 n m)
  r.1 ++ r.2.flatten

/-- One step of the unwrap, step number `t`. -/
def kwUnstep (key : List Nat) (n t : Nat) (s : List Nat × List (List Nat)) : List Nat × List (List Nat) :=
  let i := (t - 1) % n
  let b := unaes key (xorList s.1 (be 8 t) ++ s.2.getD i [])
  (b.take 8, s.2.set i (b.drop 8))

/-- AES-KW undone; none where the integrity value does not fit. -/
def kwUnwrap (key m : List Nat) : Option (List Nat) :=
  let n := m.length / 8 - 1
  let r := (List.range (6 * n)).foldl (fun s t => kwUnstep key n (6 * n - t) s) (m.take 8, groups 8 n (m.drop 8))
  if r.1 = List.replicate 8 0xA6 then some r.2.flatten else none

/-! ### CTR_DRBG -/

/-- V plus one. -/
def drbgNext (v : List Nat) : List Nat := be 16 (v.foldl (fun x y => 256 * x + y) 0 + 1)

/-- `n` output blocks and the V they leave. -/
def drbgBlocks (key : List Nat) : Nat → List Nat → List Nat × List Nat
  | 0, v => ([], v)
  | n + 1, v =>
    let w := drbgNext v
    let q := drbgBlocks key n w
    (aes key w ++ q.1, q.2)

/-- The update of key and V with 48 octets of input. -/
def drbgUpdate (key v input : List Nat) : List Nat × List Nat :=
  let t := xorList (drbgBlocks key 3 v).1 input
  (t.take 32, t.drop 32)

/-- The numbers of bytes. -/
def nums (l : List Byte) : List Nat := l.map (·.toNat)

/-- The bytes of numbers. -/
def octets (l : List Nat) : List Byte := l.map (BitVec.ofNat 8)

end Sys2Proof.Machine
end

