-- ==== Sys2Proof/Machine/Cipher.lean ====
section
/-!
DEFINITION. The pocket store, the DRBG, the counter journal, and the cipher engines with their shared queue (chapter 08).
`dk` is the device key of the fuse bank. The commands over pockets stand in Machine/Pockets.lean.
-/

namespace Sys2Proof.Machine

/-- A meaning that reads the device key and changes the device alone. -/
def onDevKey (f : List Byte → Dev → Dev) (s : State) : Host.Outcome State Fault Refusal :=
  .next { s with dev := f s.fuses.device s.dev }

/-- A change of the secure domain. -/
def Dev.onSec (s : Dev) (f : Secure → Secure) : Dev := { s with sec := f s.sec }

/-! ### Policy (Table 08-1) -/

/-- The policy word of pocket `n`. -/
def Dev.policy (s : Dev) (n : Nat) : Nat := (s.reg (PCK_POLICY n)).toNat
/-- A bit of a policy word. -/
def Dev.allows (s : Dev) (n bit : Nat) : Bool := bitOf (s.policy n) bit
/-- KEY_SIZE of a pocket. -/
def Dev.keySize (s : Dev) (n : Nat) : Nat := s.policy n % 4
/-- Octets of a key of the given KEY_SIZE. -/
def keyOctets (size : Nat) : Nat := if size = 2 then 32 else 16
/-- Is the pocket persistent? -/
def Dev.persist (s : Dev) (n : Nat) : Bool := s.allows n 21

/-! ### The DRBG and the random buffer (rules R320 and R321) -/

/-- Does a reseed fall due? -/
def Dev.drbgDue (s : Dev) : Bool := decide (65536 ≤ s.sec.drbgCount) || decide (80000000 ≤ tsDiff s.now s.sec.drbgAt)

/-- May a request be served? A reseed that falls due while the source is FAILED refuses it. -/
def Dev.drbgServes (s : Dev) : Bool := s.sec.drbgOk && !(s.drbgDue && s.rd PCK_ENT_STATUS_STATE == 3)

/-- `n` octets of the DRBG, or a refusal that stands until a reseed succeeds. -/
def Dev.drbgTake (s : Dev) (n : Nat) : Dev × Option (List Byte) :=
  if s.drbgServes then
    let k := nums s.sec.drbgKey
    let out := drbgBlocks k ((n + 15) / 16) (nums s.sec.drbgV)
    let u := drbgUpdate k out.2 (List.replicate 48 0)
    (s.onSec fun x => { x with drbgKey := octets u.1, drbgV := octets u.2, drbgCount := x.drbgCount + 1 },
      some (octets (out.1.take n)))
  else ((s.onSec fun x => { x with drbgOk := false }).clr PCK_ENT_STATUS_DRBG_READY, none)

/-- The hardware buffer is filled from the DRBG. -/
def Dev.randomFill (s : Dev) : Dev :=
  if s.sec.random.length < 64 then
    match s.drbgTake (64 - s.sec.random.length) with
    | (t, some l) => t.onSec fun x => { x with random := x.random ++ l }
    | (t, none) => t
  else s

/-- 32 bits of the buffer; none while it is empty because the DRBG refuses. -/
def Dev.draw32 (s : Dev) : Dev × Option Nat :=
  let s := if s.sec.random.length < 4 then s.randomFill else s
  if s.sec.random.length < 4 then (s, none)
  else (s.onSec fun x => { x with random := x.random.drop 4 }, some (ofLe (s.sec.random.take 4)))

/-- A hardware draw: 0 with RANDOM_EMPTY where the buffer is empty. -/
def Dev.hwDraw (s : Dev) : Dev × Nat :=
  match s.draw32 with
  | (t, some v) => (t, v)
  | (t, none) => (t.set PCK_EVENTS_RANDOM_EMPTY, 0)

/-! ### The counter journal (rules R297 to R299) -/

/-- PCK_CFG's STEP (Table 08-15). -/
def Dev.fcStep (s : Dev) : Nat := 2 ^ max 12 (min 24 (s.rd PCK_CFG_FC_STEP_LOG2))

/-- The counter value at which a pocket is exhausted (rule R295). A reservation of rule R298 ends there too, so that it fits the
four octets of its record (assumption log 58). -/
def fcLimit : Nat := 0xFFFFFFFE

/-- The key with its attribute block (Table 08-11). -/
def keyBlob (size : Nat) (key : List Byte) : List Nat := [1, size, 0, 0, 0, 0, 0, 0] ++ nums key

/-- A journal record (Table 08-3). -/
def journalBytes (dk : List Byte) (kind n gen size resv : Nat) (key : List Byte) : List Byte :=
  let w := if kind = 1 then octets (kwWrap (nums dk) (keyBlob size key)) else []
  let b := leBytes 1 kind ++ leBytes 1 n ++ leBytes 1 gen ++ leBytes 1 size ++ leBytes 4 (if kind = 3 then 0 else resv) ++
    (w ++ List.replicate 48 0).take 48
  b ++ octets ((cmac (nums dk) (nums b)).take 8)

/-- Is a job of an array one of Sarnis's on the journal: a record, or an erase of the block? -/
def isJournalJob (j : FlashJob) : Bool := j.block == 63 && (j.op == 2 || j.data.length == 64)

/-- Is a journal job under way in array `a`, running or suspended? -/
def Dev.journalBusy (s : Dev) (a : Nat) : Bool :=
  (match (s.arr a).job with | some j => isJournalJob j | none => false) ||
  (match (s.arr a).susp with | some j => isJournalJob j | none => false)

/-- May Sarnis give array `a` a job now? -/
def Dev.journalFree (s : Dev) (a : Nat) : Bool :=
  s.up 7 && s.flashReady a && !s.on (FLC_CMD_PENDING a) && !s.journalBusy a

/-- Bytes of journal record `i` of array `a` as stored. -/
def Dev.journalRecord (s : Dev) (a i : Nat) : List Byte :=
  (List.range 8).flatMap fun k => leBytes 8 (s.unitAt (s.pageAt a 63 0 + 64 * i + 8 * k)).delivered.toNat

/-- Is record place `i` of a journal block blank? -/
def Dev.journalBlank (s : Dev) (a i : Nat) : Bool := (List.range 8).all fun k => s.unitBlank (s.pageAt a 63 0 + 64 * i + 8 * k)

/-- The record place after the last one used in the journal block of array `a`. -/
def Dev.journalEnd (s : Dev) (a : Nat) : Nat :=
  match ((List.range 1024).reverse).find? fun i => !s.journalBlank a i with
  | some i => i + 1
  | none => 0

/-- Sarnis goes on in the other block, erased first where `wipe` says so or where it is full. -/
def Dev.journalSwitch (s : Dev) (wipe : Bool) : Dev :=
  let a := 1 - s.sec.jArr
  let n := s.journalEnd a
  let must := n == 1024 || (wipe && n != 0)
  s.onSec fun x => { x with jArr := a, jNext := if must then 0 else n,
                            jErase := if must && !x.jErase.contains a then x.jErase ++ [a] else x.jErase }

/-- Sarnis starts what it has to do on the journal and can: the other block where this one is full, a block
erase first, else the oldest record. -/
def Dev.journalKick (s : Dev) : Dev :=
  let s := if 1024 ≤ s.sec.jNext then s.journalSwitch true else s
  let s := s.each s.sec.jErase fun s a =>
    if s.journalFree a ∧ (s.arr a).susp.isNone ∧ !s.on MNT_SUPPLY_STAT_WARN then
      (s.onArr a fun f => { f with holder := 9 }).flashAccept a 2
        { op := 2, block := 63, page := 0, data := [], chk := [], off := 0 }
    else s
  let a := s.sec.jArr
  match s.sec.journal with
  | r :: _ =>
    if s.journalFree a ∧ !s.sec.jErase.contains a then
      (s.onArr a fun f => { f with holder := 9 }).flashAccept a (if (s.arr a).susp.isSome then 4 else 1)
        { op := 1, block := 63, page := s.sec.jNext / 8, data := r.bytes, chk := chkOf r.bytes, off := s.sec.jNext % 8 * 64 }
    else s
  | [] => s

/-- A record joins those to be programmed. -/
def Dev.journalAdd (s : Dev) (r : JRec) : Dev := (s.onSec fun x => { x with journal := x.journal ++ [r] }).journalKick

/-- The command whose record is to be programmed has been cut short: the key of its record is lost with it, unless that record is
being programmed already (`first`), and a reservation and an erase are still recorded (assumption log 58). -/
def Dev.journalCut (s : Dev) (first : Bool) : Dev :=
  s.onSec fun x =>
    let n := if first then 1 else 0
    { x with journal := (x.journal.take n ++ (x.journal.drop n).filter fun r => r.kind != 1).map fun r => { r with done := false } }

/-! ### Pockets and generations (rules R289 to R292) -/

/-- The pocket of the last event is named. -/
def Dev.named (s : Dev) (n : Nat) : Dev := s.wr PCK_EVENT_POCKET_POCKET n

/-- Pocket of a request. -/
def CeReq.pocket (q : CeReq) : Nat := fieldAt q.bytes 1 1 % 64

/-- Is a request bound to generation `g` of pocket `n`? -/
def CeReq.boundTo (q : CeReq) (n g : Nat) : Bool := q.pocket == n && q.gen == g

/-- Requests bound to a generation of pocket `n`. -/
def Dev.bound (s : Dev) (n : Nat) (g : Option KeyGen) : Nat :=
  match g with
  | some k => (s.sec.queue.filter fun q => q.boundTo n k.gen).length
  | none => 0

/-- State of a pocket (Table 08-2). -/
def Pocket.state (p : Pocket) : Nat := if p.erasing then 3 else if p.cur.isNone then 0 else if p.old.isSome then 2 else 1

/-- Does the pocket serve requests? -/
def Pocket.holds (p : Pocket) : Bool := p.state == 1 || p.state == 2

/-- The key of generation `g`. -/
def Pocket.keyOf (p : Pocket) (g : Nat) : Option (List Byte) :=
  match p.cur, p.old with
  | some k, some o => if k.gen = g then some k.key else if o.gen = g then some o.key else none
  | some k, none => if k.gen = g then some k.key else none
  | none, some o => if o.gen = g then some o.key else none
  | none, none => none

/-- Generations whose last bound request has completed are scrubbed: the old one, and both while ERASING. -/
def Dev.pocketSettle (s : Dev) (n : Nat) : Dev :=
  let p := s.pocket n
  let dropOld := p.old.isSome && s.bound n p.old == 0
  let dropCur := p.erasing && p.cur.isSome && s.bound n p.cur == 0
  let s := if dropOld || dropCur then
      s.setPocket n { p with old := if dropOld then none else p.old, cur := if dropCur then none else p.cur }
    else s
  if dropOld then (s.set PCK_EVENTS_GEN_SCRUBBED).named n else s

/-- A new generation comes into force (rule R290). -/
def Dev.newGeneration (s : Dev) (n : Nat) (key : List Byte) : Dev :=
  let p := s.pocket n
  let g := if p.virgin then 0 else (p.gen + 1) % 256
  (s.setPocket n { p with cur := some { gen := g, key := key }, old := p.cur, gen := g, virgin := false }).pocketSettle n

/-- The generation the next written key takes. -/
def Pocket.nextGen (p : Pocket) : Nat := if p.virgin then 0 else (p.gen + 1) % 256

/-- Everything but the generation number of a pocket is scrubbed. -/
def Dev.pocketWipe (s : Dev) (n : Nat) : Dev :=
  let p := s.pocket n
  ((s.setPocket n { Pocket.init with gen := p.gen, virgin := p.virgin, lastRec := p.lastRec }).set PCK_EVENTS_POCKET_ERASED).named n

/-! ### The queue -/

/-- The first octet of a descriptor: OP. -/
def CeReq.op (q : CeReq) : Nat := fieldAt q.bytes 0 1
/-- FLAGS bit `i`. -/
def CeReq.flag (q : CeReq) (i : Nat) : Bool := bitOf (fieldAt q.bytes 2 1) i
/-- SEC. -/
def CeReq.sec (q : CeReq) : Nat := fieldAt q.bytes 3 1
/-- Security level of a CCM request. -/
def CeReq.level (q : CeReq) : Nat := q.sec % 8
/-- A_ADDR. -/
def CeReq.aAddr (q : CeReq) : Nat := fieldAt q.bytes 8 4
/-- A_LEN. -/
def CeReq.aLen (q : CeReq) : Nat := fieldAt q.bytes 0x0C 2
/-- M_LEN. -/
def CeReq.mLen (q : CeReq) : Nat := fieldAt q.bytes 0x0E 2
/-- M_ADDR. -/
def CeReq.mAddr (q : CeReq) : Nat := fieldAt q.bytes 0x10 4
/-- OUT_ADDR. -/
def CeReq.outAddr (q : CeReq) : Nat := fieldAt q.bytes 0x14 4
/-- MIC_ADDR. -/
def CeReq.micAddr (q : CeReq) : Nat := fieldAt q.bytes 0x18 4
/-- FC_ADDR. -/
def CeReq.fcAddr (q : CeReq) : Nat := fieldAt q.bytes 0x1C 4
/-- CTX_ADDR. -/
def CeReq.ctxAddr (q : CeReq) : Nat := fieldAt q.bytes 0x2C 4
/-- Is it a CMAC operation? -/
def CeReq.isCmac (q : CeReq) : Bool := q.op == 3 || q.op == 4
/-- Is it a CCM operation? -/
def CeReq.isCcm (q : CeReq) : Bool := q.op == 1 || q.op == 2
/-- Is it one part of several? -/
def CeReq.isPart (q : CeReq) : Bool := q.isCmac && !(q.flag 0 && q.flag 1)
/-- Octets written to OUT (Table 08-5). -/
def CeReq.outLen (q : CeReq) : Nat :=
  if q.isCcm then (if 4 ≤ q.level then q.mLen else 0)
  else if q.op = 5 then q.mLen + 8
  else if q.op = 6 then q.mLen - 8
  else 0
/-- Octets of the MIC or tag. -/
def CeReq.micLen (q : CeReq) : Nat :=
  if q.isCcm then micOctets q.level
  else if q.isCmac ∧ q.flag 1 then q.sec % 32
  else 0
/-- Is the MIC or tag an output? -/
def CeReq.micOut (q : CeReq) : Bool := q.op == 1 || q.op == 3

/-- The class of a requester: 0 AIR, 1 SECURE, 2 COMPUTE. -/
def ceClass (r : Nat) : Nat := if r = 9 then 1 else if r < 2 then 2 else 0

/-- Bit of requester `r` in CE_EVENTS.DONE_r. -/
def doneBit (r : Nat) : Nat := if r = 9 then 8 else r

/-- The role of cipher engine `e`. -/
def Dev.ceRole (s : Dev) (e : Nat) : Nat := s.rd ⟨CE_ENG, 8 * e, 2⟩

/-- Is engine `e` in service: active, and not failed at power-up? -/
def Dev.ceServes (s : Dev) (e : Nat) : Bool := s.ceRole e == 1 && !s.sec.failedTest.contains e

/-- The initiator code of an engine, of the lowest one in service where none runs the request. -/
def Dev.ceIni (s : Dev) (e : Option Nat) : Nat :=
  match e with
  | some e => 0x0A + e
  | none => if s.ceServes 0 then 0x0A else if s.ceServes 1 then 0x0B else 0x0A

/-- The registers that show the queue follow it. -/
def Dev.ceView (s : Dev) : Dev :=
  let held (c : Nat) : Nat := (s.sec.queue.filter fun q => ceClass q.r == c).length
  let s := (((s.wr CE_QSTAT_FREE (64 - s.sec.queue.length)).wr CE_QSTAT_AIR_HELD (held 0)).wr CE_QSTAT_SECURE_HELD
    (held 1)).wr CE_QSTAT_COMPUTE_HELD (held 2)
  s.each [0, 1, 2, 3, 4, 5, 6, 7, 9] fun s r => s.wr (CE_SUB_STAT_HELD r) (s.sec.queue.filter fun q => q.r == r).length

/-- A request is replaced by another record of it. -/
def Dev.ceUpdate (s : Dev) (q v : CeReq) : Dev :=
  s.onSec fun x => { x with queue := x.queue.map fun y => if y = q then v else y }

/-- RESULT_FLAGS of a request (Table 08-4). -/
def CeReq.flags (q : CeReq) (noTag : Bool) : Nat :=
  q.engine.getD 0 + (if q.streamed then 2 else 0) + (if noTag then 4 else 0) + (if q.rerun then 8 else 0) +
    (if q.wasDeferred then 16 else 0)

/-- A request leaves the queue with its final status, written last (rule R306); generations may then be scrubbed. -/
def Dev.ceFinish (s : Dev) (q : CeReq) (st : Status) (noTag : Bool) : Dev :=
  let ini := s.ceIni q.engine
  let s := (s.put8 ini (q.addr + 6) (leBytes 1 (q.flags noTag))).put8 ini (q.addr + 4) (leBytes 1 st.code)
  let s := s.onSec fun x => { x with queue := x.queue.filter fun y => y != q }
  let s := match q.engine with
    | some e => s.clr ⟨CE_ENG, 8 * e + 2, 1⟩
    | none => s
  let s := (s.wr (CE_DONE_COUNT q.r) (s.rd (CE_DONE_COUNT q.r) + 1)).putBit CE_EVENTS_DONE_r (doneBit q.r) true
  ((s.bump CE_CNT_REQ_COUNT).ceView).pocketSettle q.pocket

/-- The outputs of a request are scrubbed: OUT, and the MIC or tag where it is an output. -/
def Dev.ceScrub (s : Dev) (q : CeReq) : Dev :=
  let ini := s.ceIni q.engine
  let s := if q.outLen = 0 then s else s.put8 ini q.outAddr (List.replicate q.outLen 0)
  if q.micOut ∧ q.micLen ≠ 0 then s.put8 ini q.micAddr (List.replicate q.micLen 0) else s

/-- A request is aborted with a status, its outputs scrubbed. -/
def Dev.ceAbort (s : Dev) (q : CeReq) (st : Status) : Dev := (s.ceScrub q).ceFinish q st false

/-- ERASE_NOW's effects on a pocket: every bound request aborted, the pocket scrubbed (rule R292). -/
def Dev.pocketKill (s : Dev) (n : Nat) : Dev :=
  (s.each (s.sec.queue.filter fun q => q.pocket == n) fun s q => s.ceAbort q .keyErased).pocketWipe n

/-- The type 3 record of an erased persistent pocket is to be programmed. -/
def Dev.journalErase (s : Dev) (dk : List Byte) (n : Nat) (done : Bool) : Dev :=
  s.journalAdd { bytes := journalBytes dk 3 n (s.pocket n).gen (s.keySize n) 0 [], kind := 3, pocket := n, resv := 0,
                 key := [], done := done }

/-- Sarnis meets an UNCORRECTABLE unit in a pocket's data (rule R285). -/
def Dev.storeUncorr (s : Dev) (dk : List Byte) (n : Nat) : Dev :=
  let s := s.pocketKill n
  let s := if s.persist n then s.journalErase dk n false else s
  ((s.set PCK_EVENTS_STORE_UNCORR).named n).charge 9 .storeUncorr 0

/-! ### Submission (rules R301 to R304) -/

/-- Quota of a requester as it acts. -/
def Dev.ceQuota (s : Dev) (r : Nat) : Nat := max 1 (min 16 (s.rd (CE_QUOTA_QUOTA r)))

/-- Is a submission of requester `r` granted (rule R303)? -/
def Dev.ceGrants (s : Dev) (r : Nat) : Bool :=
  let held (c : Nat) : Nat := (s.sec.queue.filter fun q => ceClass q.r == c).length
  let air := if ceClass r = 0 then 0 else min 48 (s.rd CE_RES_AIR_RES) - held 0
  let sec := if ceClass r = 1 then 0 else min 16 (s.rd CE_RES_SECURE_RES) - held 1
  decide (air + sec < 64 - s.sec.queue.length) &&
    decide ((s.sec.queue.filter fun q => q.r == r).length < s.ceQuota r)

/-- Do two ranges share an octet? -/
def overlap (a n b m : Nat) : Bool := decide (0 < n) && decide (0 < m) && decide (a < b + m) && decide (b < a + n)

/-- Can an engine reach every unit of a range of memory by its routes? -/
def Dev.ceReach (s : Dev) (ini a n : Nat) : Bool :=
  n == 0 || (List.range ((a % 8 + n + 7) / 8)).all fun i =>
    match s.target ini (a / 8 * 8 + 8 * i) with
    | some (.win _) => false
    | some t => s.routed ini (a / 8 * 8 + 8 * i) t && !sarnisOnly (a / 8 * 8 + 8 * i)
    | none => false

/-- Does a descriptor fail a check of Table 08-6? -/
def Dev.ceBadFields (s : Dev) (ini : Nat) (q : CeReq) : Bool :=
  let zero := fieldAt q.bytes 1 1 / 64 != 0 || fieldAt q.bytes 2 1 / 16 != 0 || fieldAt q.bytes 7 1 != 0 ||
    fieldAt q.bytes 0x32 14 != 0
  let sec := if q.isCcm then q.level == 0 || decide (32 ≤ q.sec)
    else if q.isCmac then decide (q.sec < 4) || decide (16 < q.sec) || q.aLen != 0
    else q.sec != 0
  let len := (q.op == 5 && (q.mLen % 8 != 0 || decide (q.mLen < 16))) ||
    (q.op == 6 && (q.mLen % 8 != 0 || decide (q.mLen < 24))) ||
    (q.isCcm && decide (4 ≤ q.level) && q.mLen == 0)
  let parts := (!q.isCmac && !(q.flag 0 && q.flag 1)) || (q.isCmac && !q.flag 1 && q.mLen % 16 != 0)
  let clash := (overlap q.outAddr q.outLen q.mAddr q.mLen && q.outAddr != q.mAddr) ||
    overlap q.outAddr q.outLen q.aAddr q.aLen || overlap q.micAddr q.micLen q.aAddr q.aLen ||
    overlap q.micAddr q.micLen q.mAddr q.mLen || overlap q.micAddr q.micLen q.outAddr q.outLen
  let addr := !(s.ceReach ini q.aAddr q.aLen && s.ceReach ini q.mAddr q.mLen && s.ceReach ini q.outAddr q.outLen &&
    s.ceReach ini q.micAddr q.micLen && s.ceReach ini q.fcAddr (if q.op = 1 ∧ q.fcAddr ≠ 0 then 4 else 0) &&
    s.ceReach ini q.ctxAddr (if q.isPart then 64 else 0))
  q.op == 0 || decide (6 < q.op) || zero || sec || len || parts || clash || addr

/-- Does the policy word of a request's pocket forbid it (case 6 of rule R301)? -/
def Dev.ceDenied (s : Dev) (q : CeReq) : Bool :=
  let n := q.pocket
  let op := if q.isCcm then s.allows n 2 && s.allows n (5 + q.level) && s.allows n (13 + q.sec / 8 % 4)
    else if q.isCmac then s.allows n 3 else s.allows n 4
  let user := if q.r = 9 then true else if q.r = 0 then s.allows n 23 else if q.r = 1 then s.allows n 24 else s.allows n 22
  let ctx := !(q.isPart && !q.flag 2) || s.allows n 18
  !(op && user && ctx)

/-- The first refusal of cases 3 to 8 of rule R301. -/
def Dev.ceRefusal (s : Dev) (ini : Nat) (q : CeReq) : Option Status :=
  if !s.ceGrants q.r then some .busy
  else if s.ceBadFields ini q then some .badRequest
  else if !(s.pocket q.pocket).holds then some .pocketEmpty
  else if s.ceDenied q then some .policyDenied
  else if (if ceClass q.r = 0 then 2047 else 4096) < q.aLen + q.mLen then some .tooLong
  else if q.op = 1 ∧ fcLimit ≤ (s.pocket q.pocket).fc then some .pocketExhausted
  else none

/-- A submission is refused. -/
def Dev.ceRefuse (s : Dev) (r : Nat) (st : Status) : Dev :=
  ((s.st (CE_SUB_STAT_LAST_STATUS r) st).set CE_EVENTS_REFUSED).bump CE_CNT_REFUSED_COUNT

/-- The engine of rule R285 meets an UNCORRECTABLE unit in the pocket a request names, where `upset` says so. -/
def Dev.ceUpset (s : Dev) (dk : List Byte) (n : Nat) (upset : Bool) : Dev := if upset then s.storeUncorr dk n else s

/-- CE_SUBMIT: requester `r` submits the descriptor at `a`, 64-byte aligned. -/
def Dev.ceSubmit (s : Dev) (dk : List Byte) (r a : Nat) (upset : Bool) : Dev :=
  let ini := s.ceIni none
  if !s.sec.ready || !(s.ceServes 0 || s.ceServes 1) then
    (s.put8 ini (a + 4) (leBytes 1 Status.notReady.code)).ceRefuse r .notReady
  else
    let l := s.rdMem ini a 64
    let s := l.1
    if l.2.1 ≠ .ok then s.ceRefuse r l.2.1
    else
      let q : CeReq := { addr := a, r := r, bytes := l.2.2, gen := 0, at_ := s.now, engine := none, rerun := false,
                         deferred := false, wasDeferred := false, streamed := false, fc := none, ctx := [] }
      let s := s.ceUpset dk q.pocket upset
      match s.ceRefusal ini q with
      | some st => (s.put8 ini (a + 4) (leBytes 1 st.code)).ceRefuse r st
      | none =>
        let g := match (s.pocket q.pocket).cur with | some k => k.gen | none => 0
        let s := (s.put8 ini (a + 5) (leBytes 1 g)).put8 ini (a + 4) (leBytes 1 Status.queued.code)
        let s := s.onSec fun x => { x with queue := x.queue ++ [{ q with gen := g }] }
        (s.st (CE_SUB_STAT_LAST_STATUS r) .queued).ceView

/-! ### The start of a request (rules R294 to R298, R305, R314) -/

/-- Is engine `e` free to take a request? -/
def Dev.ceIdle (s : Dev) (e : Nat) : Bool :=
  s.ceServes e && !s.on ⟨CE_ENG, 8 * e + 2, 1⟩ && (s.unit (0x0A + e)).state != 1 && s.up 2

/-- The request an engine takes: among those that wait, not deferred, the oldest of the first class of rule R305. -/
def Dev.cePick (s : Dev) : Option CeReq :=
  let w := s.sec.queue.filter fun q => q.engine.isNone && !q.deferred
  match w.find? fun q => decide (8000 ≤ tsDiff s.now q.at_) with
  | some q => some q
  | none =>
    match w.find? fun q => ceClass q.r == 0 with
    | some q => some q
    | none =>
      match w.find? fun q => ceClass q.r == 1 with
      | some q => some q
      | none => w.head?

/-- Sarnis programs a reservation where the counter has come within half a step of the present one (rule R298). -/
def Dev.journalReserve (s : Dev) (dk : List Byte) (n : Nat) : Dev :=
  let p := s.pocket n
  let v := min fcLimit (p.resv + s.fcStep)
  if s.persist n ∧ p.resv < fcLimit ∧ p.resv ≤ p.fc + s.fcStep / 2 ∧ ¬ (s.sec.journal.any fun r => r.pocket == n && r.kind == 2) then
    s.journalAdd { bytes := journalBytes dk 2 n p.gen (s.keySize n) v [], kind := 2, pocket := n, resv := v, key := [],
                   done := false }
  else s

/-- What a counter that moves from `a` to `b` raises: NEAR_EXHAUST past 0xF000_0000, EXHAUSTED at the limit (rule R295). -/
def Dev.fcPassed (s : Dev) (n a b : Nat) : Dev :=
  let s := if a ≤ 0xF0000000 ∧ 0xF0000000 < b then (s.set PCK_EVENTS_NEAR_EXHAUST).named n else s
  if a < fcLimit ∧ fcLimit ≤ b then (s.set PCK_EVENTS_EXHAUSTED).named n else s

/-- A counter value is taken for a CCM_ENC request on engine `e`: written to FC_ADDR and the descriptor, and counted on
(rules R294 and R295); the answer is the first status that is not OK of these writes. -/
def Dev.takeCounter (s : Dev) (dk : List Byte) (e : Nat) (q : CeReq) : Dev × CeReq × Status :=
  let n := q.pocket
  let p := s.pocket n
  let v := { q with fc := some p.fc }
  let s := s.ceUpdate q v
  let s := s.setPocket n { p with fc := p.fc + 1 }
  let s := s.fcPassed n p.fc (p.fc + 1)
  let s := s.journalReserve dk n
  let w := if q.fcAddr = 0 then (s, Status.ok) else s.wrMem (0x0A + e) q.fcAddr (leBytes 4 p.fc)
  let z := w.1.wrMem (0x0A + e) (q.addr + 0x28) (leBytes 4 p.fc)
  (z.1, v, if w.2 = .ok then z.2 else w.2)

/-- A saved context is read and checked (rules R313 and R314): its 32 bytes, or the status that ends the request. -/
def Dev.ceRestore (s : Dev) (e : Nat) (q : CeReq) : Dev × Status × List Byte :=
  let l := s.rdMem (0x0A + e) q.ctxAddr (if q.flag 2 then 40 else 32)
  if l.2.1 ≠ .ok then l
  else
    let plain := if q.flag 2 then kwUnwrap (nums s.sec.ctxKey) (nums l.2.2) else some (nums l.2.2)
    match plain with
    | none => (l.1, .authFail, [])   -- DEDUCED: no verdict, so not counted (assumption log 58)
    | some c =>
      let b := octets c
      if fieldAt b 0 1 ≠ 1 ∨ fieldAt b 1 1 ≠ q.pocket then (l.1, .badRequest, [])
      else if (s.pocket q.pocket).keyOf (fieldAt b 2 1) = none then (l.1, .keyErased, [])
      else if fieldAt b 8 1 ≠ q.r then (l.1, .policyDenied, [])
      else (l.1, .ok, b)

/-- AUTH_FAILS and REJECTS reach the alert (rule R310). -/
def Dev.failAlert (s : Dev) (n before : Nat) : Dev :=
  let p := s.pocket n
  let top := max 1 (s.rd PCK_CFG_FAIL_ALERT)
  if before < top ∧ top ≤ p.auth + p.rejects then (s.set PCK_EVENTS_FAIL_ALERT).named n else s

/-- A verdict of AUTH_FAIL is counted, on the pocket as a held failure or a streamed reject. -/
def Dev.ceReject (s : Dev) (n : Nat) (streamed : Bool) : Dev :=
  let p := s.pocket n
  let s := (s.set CE_EVENTS_AUTH_FAIL).bump CE_CNT_AUTH_FAIL_COUNT
  let s := s.setPocket n (if streamed then { p with rejects := min 0xFFFF (p.rejects + 1) }
    else { p with auth := min 0xFFFF (p.auth + 1) })
  s.failAlert n (p.auth + p.rejects)

/-- The request picked starts on engine `e`, or ends at once. -/
def Dev.ceBegin (s : Dev) (dk : List Byte) (e : Nat) (q : CeReq) : Dev :=
  let v := { q with engine := some e }
  let s := (s.ceUpdate q v).set ⟨CE_ENG, 8 * e + 2, 1⟩
  if q.op = 1 then
    if fcLimit ≤ (s.pocket q.pocket).fc then s.ceFinish v .pocketExhausted false
    else
      let t := s.takeCounter dk e v
      if t.2.2 = .ok then t.1 else t.1.ceAbort t.2.1 t.2.2
  else if q.isCmac ∧ !q.flag 0 then
    let c := s.ceRestore e v
    if c.2.1 = .ok then c.1.ceUpdate v { v with ctx := c.2.2 }
    else c.1.ceAbort v c.2.1
  else s

/-- Does rule R298 hold a request back: it would take the counter value that its pocket has reserved last? -/
def Dev.ceHeldBack (s : Dev) (q : CeReq) : Bool :=
  q.op == 1 && s.persist q.pocket && decide ((s.pocket q.pocket).resv ≤ (s.pocket q.pocket).fc) &&
    decide ((s.pocket q.pocket).fc < fcLimit)

/-- Engine `e` takes the next request; those held back by the journal are marked and passed over. -/
def Dev.ceTake (dk : List Byte) (e : Nat) : Nat → Dev → Dev
  | 0, s => s
  | n + 1, s =>
    match s.cePick with
    | none => s
    | some q =>
      if s.ceHeldBack q then
        let v := { q with deferred := true, wasDeferred := true }
        let s := ((s.ceUpdate q v).set CE_EVENTS_DEFERRED).put8 (0x0A + e) (q.addr + 6) (leBytes 1 (v.flags false))
        Dev.ceTake dk e n (s.journalReserve dk q.pocket)
      else s.ceBegin dk e q

/-- CE_REQUEST_START. -/
def Dev.ceStart (s : Dev) (dk : List Byte) (e : Nat) (upset : Bool) : Dev :=
  if !s.ceIdle e then s
  else
    let s := match s.cePick with
      | some q => s.ceUpset dk q.pocket upset
      | none => s
    Dev.ceTake dk e 64 s

/-! ### The run of a request (rules R307 to R313, R511, R512) -/

/-- The request that engine `e` runs. -/
def Dev.ceRunning (s : Dev) (e : Nat) : Option CeReq := s.sec.queue.find? fun q => q.engine == some e

/-- A read that is left out where nothing is to be read. -/
def Dev.ceRead (s : Dev) (ini a n : Nat) : Dev × Status × List Byte := if n = 0 then (s, .ok, []) else s.rdMem ini a n

/-- A write that is left out where nothing is to be written. -/
def Dev.ceWrite (s : Dev) (ini a : Nat) (l : List Nat) : Dev × Status := if l = [] then (s, .ok) else s.wrMem ini a (octets l)

/-- Two writes in turn, the second only after a good first. -/
def Dev.ceWrite2 (s : Dev) (ini a : Nat) (l : List Nat) (b : Nat) (m : List Nat) : Dev × Status :=
  let w := s.ceWrite ini a l
  if w.2 = .ok then w.1.ceWrite ini b m else w

/-- The counter of a request's nonce: taken by CCM_ENC, from the descriptor for CCM_DEC. -/
def CeReq.counter (q : CeReq) : Nat := match q.fc with | some v => v | none => fieldAt q.bytes 0x28 4

/-- The nonce of a CCM request. -/
def CeReq.nonce (q : CeReq) : List Nat := ccmNonce (nums ((q.bytes.drop 0x20).take 8)) q.counter q.level

/-- Is the output of a request streamed (rule R308)? -/
def Dev.ceStreams (s : Dev) (q : CeReq) : Bool := q.op == 2 && q.flag 3 && decide (4 ≤ q.level) && s.allows q.pocket 17

/-- CCM_ENC: the MIC over the plaintext, then the counter-mode pass (rule R311). -/
def Dev.runEnc (s : Dev) (ini : Nat) (key : List Nat) (q : CeReq) (a m : List Nat) : Dev × Status :=
  s.ceWrite2 ini q.outAddr (if 4 ≤ q.level then ccmCrypt key q.nonce m else []) q.micAddr
    (ccmMic key q.nonce q.level a m)

/-- CCM_DEC: the plaintext to OUT, then the verdict (rules R307, R309 and R312). Of a streamed request the plaintext is in
OUT already, which is then what `m` holds. -/
def Dev.runDec (s : Dev) (ini : Nat) (key : List Nat) (q : CeReq) (a m mic : List Nat) : Dev × Status :=
  let p := if 4 ≤ q.level ∧ !q.streamed then ccmCrypt key q.nonce m else m
  let w := if 4 ≤ q.level ∧ !q.streamed then s.ceWrite ini q.outAddr p else (s, .ok)
  if w.2 ≠ .ok then w
  else if q.level = 4 ∨ ccmMic key q.nonce q.level a p = mic then (w.1, .ok)
  else (w.1, .authFail)

/-- The context a part saves (Table 08-7). -/
def cmacContext (q : CeReq) (size blocks : Nat) (chain : List Nat) : List Nat :=
  [1, q.pocket, q.gen, size] ++ nums (leBytes 4 blocks) ++ [q.r] ++ List.replicate 7 0 ++ chain

/-- CMAC_GEN and CMAC_VER, whole or a part (rules R313 and R512). -/
def Dev.runCmac (s : Dev) (ini : Nat) (key : List Nat) (q : CeReq) (m mic : List Nat) : Dev × Status :=
  let c := if q.ctx = [] then zero16 else nums (q.ctx.drop 16)
  let n := fieldAt q.ctx 4 4
  if q.flag 1 then
    let tag := (cmacFrom key c m).take (q.sec % 32)
    if q.op = 3 then s.ceWrite ini q.micAddr tag else (s, if tag = mic then .ok else .authFail)
  else
    let x := cmacContext q (s.keySize q.pocket) (n + m.length / 16) (cmacChain key (m.length / 16) c m)
    s.ceWrite ini q.ctxAddr (if q.flag 2 then kwWrap (nums s.sec.ctxKey) x else x)

/-- The run of a request on engine `e`: its memory accesses in turn, and the status it ends with. -/
def Dev.ceRun (s : Dev) (e : Nat) (q : CeReq) : Dev × Status :=
  let ini := 0x0A + e
  let key := nums (((s.pocket q.pocket).keyOf q.gen).getD [])
  let ra := s.ceRead ini q.aAddr q.aLen
  let rm := if q.streamed then ra.1.ceRead ini q.outAddr q.mLen else ra.1.ceRead ini q.mAddr q.mLen
  let rt := if q.micOut then (rm.1, Status.ok, []) else rm.1.ceRead ini q.micAddr q.micLen
  if ra.2.1 ≠ .ok then (ra.1, ra.2.1)
  else if rm.2.1 ≠ .ok then (rm.1, rm.2.1)
  else if rt.2.1 ≠ .ok then (rt.1, rt.2.1)
  else
    let s := rt.1
    let a := nums ra.2.2
    let m := nums rm.2.2
    let t := nums rt.2.2
    match q.op with
    | 1 => s.runEnc ini key q a m
    | 2 => s.runDec ini key q a m t
    | 5 => s.ceWrite ini q.outAddr (kwWrap key m)
    | 6 => match kwUnwrap key m with
      | some p => s.ceWrite ini q.outAddr p
      | none => (s, .authFail)
    | _ => s.runCmac ini key q m t

/-- AES operations of a request (chapter 08, "Side channels and throughput"). -/
def CeReq.ops (q : CeReq) : Nat :=
  let b (n : Nat) : Nat := (n + 15) / 16
  if q.isCmac then (if q.flag 1 then 1 + max 1 (b q.mLen) else b q.mLen)
  else if q.op = 5 then 6 * (q.mLen / 8)
  else if q.op = 6 then 6 * (q.mLen / 8 - 1)
  else if q.level = 4 then b q.mLen
  else if q.level < 4 then 2 + b (2 + q.aLen + q.mLen)
  else 2 + 2 * b q.mLen + (if q.aLen = 0 then 0 else b (2 + q.aLen))

/-- Operations of engine `e` are counted; every 65,536 of them its mask generator is reseeded from the DRBG, or goes on
stale (rule R317). -/
def Dev.ceCount (s : Dev) (e n : Nat) : Dev :=
  let s := s.add (if e = 0 then CE_CNT_OPS_0_COUNT else CE_CNT_OPS_1_COUNT) n
  let k := mapGet (fun _ => 0) s.sec.ops e + n
  let keep (s : Dev) (k : Nat) : Dev := s.onSec fun x => { x with ops := mapPut (fun _ => 0) x.ops e k }
  if k < 65536 then keep s k
  else match s.drbgTake 32 with
    | (t, some _) => (keep t (k - 65536)).clr ⟨CE_ENG, 8 * e + 3, 1⟩
    | (t, none) => ((keep t (k - 65536)).set ⟨CE_ENG, 8 * e + 3, 1⟩).set CE_EVENTS_SEED_STALE

/-- The request of engine `e` stops with the status of an access (rule R511), after as many of its operations as the spec
leaves open. -/
def Dev.ceStop (s : Dev) (e : Nat) (q : CeReq) (st : Status) : Dev :=
  (s.drew.ceCount e (Config.free s.freeCtr % (q.ops + 1))).ceAbort q st

/-- The request of engine `e` ends with its verdict or with the status of an access that failed. -/
def Dev.ceDone (s : Dev) (e : Nat) : Dev :=
  match s.ceRunning e with
  | none => s
  | some q =>
    let r := s.ceRun e q
    match r.2 with
    | .ok => (r.1.ceCount e q.ops).ceFinish q .ok (q.op == 2 && q.level == 4)
    | .authFail =>
      let s := r.1.ceCount e q.ops
      let s := if q.outLen ≠ 0 then s.put8 (0x0A + e) q.outAddr (List.replicate q.outLen 0) else s
      (s.ceReject q.pocket q.streamed).ceFinish q .authFail false
    | st => r.1.ceStop e q st

/-- An access of the request of engine `e` fails, and the request stops with its status (rule R511). -/
def Dev.ceAccessFail (s : Dev) (e : Nat) : Dev :=
  match s.ceRunning e with
  | none => s
  | some q =>
    let r := s.ceRun e q
    if r.2 = .ok ∨ r.2 = .authFail then s else r.1.ceStop e q r.2

/-- The last plaintext octet of a streamed request is in OUT (rule R309). -/
def Dev.ceStream (s : Dev) (e : Nat) : Dev :=
  match s.ceRunning e with
  | none => s
  | some q =>
    if !s.ceStreams q || q.streamed then s
    else
      let ini := 0x0A + e
      let key := nums (((s.pocket q.pocket).keyOf q.gen).getD [])
      let m := s.ceRead ini q.mAddr q.mLen
      if m.2.1 ≠ .ok then m.1.ceStop e q m.2.1
      else
        let w := m.1.ceWrite ini q.outAddr (ccmCrypt key q.nonce (nums m.2.2))
        if w.2 ≠ .ok then w.1.ceStop e q w.2
        else
          let v := { q with streamed := true }
          let s := (w.1.ceUpdate q v).put8 ini (q.addr + 6) (leBytes 1 (v.flags false))
          s.put8 ini (q.addr + 4) (leBytes 1 Status.notReady.code)

/-! ### Engines (rules R323 to R325) -/

/-- With no engine in service every request of the queue completes with NOT_READY (rule R324). -/
def Dev.ceDrain (s : Dev) : Dev :=
  if s.ceServes 0 || s.ceServes 1 then s
  else s.each s.sec.queue fun s q => s.ceAbort q .notReady

/-- The request of an engine that stopped is rerun from its start on the next free engine. -/
def Dev.ceRerun (s : Dev) (e : Nat) : Dev :=
  let s := s.clr ⟨CE_ENG, 8 * e + 2, 1⟩
  match s.ceRunning e with
  | none => s
  | some q => (s.ceUpdate q { q with engine := none, rerun := true, streamed := false, ctx := [] }).set CE_EVENTS_RERUN

/-- An engine faults during a request, which is rerun where an engine is left to rerun it. -/
def Dev.ceFault (s : Dev) (e : Nat) : Dev :=
  match s.ceRunning e with
  | none => s
  | some q =>
    if s.ceRole e ≠ 1 then s
    else
      let v := (s.ceRerun e).charge (0x0A + e) .engineFault 0
      if v.ceServes 0 || v.ceServes 1 then v
      else (((s.clr ⟨CE_ENG, 8 * e + 2, 1⟩).ceUpdate q { q with engine := none }).charge (0x0A + e) .engineFault 0).ceDrain

/-- An engine restarted in place is back in service. -/
def Dev.ceRestarted (s : Dev) (e : Nat) : Dev :=
  if (s.unit (0x0A + e)).state = 1 then (s.unitState (0x0A + e) (if s.ceRole e = 2 then 2 else 0)).svcEval else s

/-- The spare engine runs its known-answer tests, every PERIOD_S seconds. -/
def Dev.ceTest (s : Dev) (pass : Bool) : Dev :=
  match ([0, 1] : List Nat).find? fun e => s.ceRole e == 2 with
  | none => s
  | some e =>
    if s.rd CE_ROT_PERIOD_S = 0 ∨ !s.up 2 ∨ !s.waited .ceTest (us (1000000 * s.rd CE_ROT_PERIOD_S)) then s
    else if pass then (s.mark .ceTest).onSec fun x => { x with rotate := some e }
    else (((s.mark .ceTest).set CE_EVENTS_SELFTEST_FAIL).charge (0x0A + e) .selftestFail 0).ceDrain

/-- The spare that passed becomes active once the active engine has finished its request. -/
def Dev.ceSwap (s : Dev) : Dev :=
  match s.sec.rotate with
  | none => s
  | some e =>
    let o := 1 - e
    if s.ceRole e ≠ 2 ∨ s.ceRole o ≠ 1 then s.onSec fun x => { x with rotate := none }
    else if s.on ⟨CE_ENG, 8 * o + 2, 1⟩ then s
    else
      let s := (s.wr ⟨CE_ENG, 8 * e, 2⟩ 1).wr ⟨CE_ENG, 8 * o, 2⟩ 2
      (((s.unitState (0x0A + e) 0).unitState (0x0A + o) 2).onSec fun x => { x with rotate := none }).set CE_EVENTS_ROTATED

/-- PD2 is powered: the active engines run their known-answer tests. -/
def Dev.ceWake (s : Dev) : Dev :=
  (s.each [0, 1] fun s e => s.put ⟨CE_ENG, 8 * e + 4, 1⟩ (s.ceRole e == 1)).ceView.mark .cePower

/-- The known-answer tests at the power-up of PD2 have ended: 40 us after it the queue accepts requests. -/
def Dev.cePowered (s : Dev) (pass : Nat → Bool) : Dev :=
  if !s.up 2 || s.sec.ready || !s.waited .cePower (us 40) then s
  else
    let bad := ([0, 1] : List Nat).filter fun e => s.ceRole e == 1 && !pass e
    let s := s.each [0, 1] fun s e => s.clr ⟨CE_ENG, 8 * e + 4, 1⟩
    let s := s.onSec fun x => { x with ready := true, failedTest := bad }
    ((s.each bad fun s e => (s.set CE_EVENTS_SELFTEST_FAIL).charge (0x0A + e) .selftestFail 0).ceDrain).journalKick

/-! ### Meanings -/

/-- CE_SUBMIT, rules R301 and R302: each submit register belongs to one requester; no register stands at r = 8. -/
def execCeSubmit (ini : Ini) (r : Fin 10) (a : BitVec 32) (upset : Bool) : State → Host.Outcome State Fault Refusal :=
  onDevKey fun dk s => s.guarded ini (CE_SUB_ADDR r) fun s =>
    if r.val = 8 then (s, .ok, 0)
    else if ini.val ≠ r.val then (s, .routeDenied, 0)
    else (s.ceSubmit dk r (a.toNat / 64 * 64) upset, .ok, 0)
/-- CE_ROTATION_TEST, rule R325. -/
def execCeRotationTest (pass : Bool) : State → Host.Outcome State Fault Refusal := onDev (·.ceTest pass)
/-- CE_ROTATION_SWAP, rule R325. -/
def execCeRotationSwap : State → Host.Outcome State Fault Refusal := onDev (·.ceSwap)
/-- CE_RESTART_DONE, rule R324. -/
def execCeRestartDone (e : Fin 2) : State → Host.Outcome State Fault Refusal := onDev (·.ceRestarted e)
/-- CE_POWERUP_TEST_DONE, rule R323. -/
def execCePowerupTestDone (pass0 pass1 : Bool) : State → Host.Outcome State Fault Refusal :=
  onDev (·.cePowered fun e => if e = 0 then pass0 else pass1)

end Sys2Proof.Machine
end

