-- ==== Sys2Proof/Machine/Pockets.lean ====
section
/-!
DEFINITION. The commands over pockets, what follows when a journal record is programmed, the restore at power-on, and the
entropy source (chapter 08).
-/

namespace Sys2Proof.Machine

/-! ### Commands (rule R322, Table 08-10) -/

/-- The pocket command under way completes. -/
def Dev.pckDone (s : Dev) (st : Status) : Dev :=
  ((((s.onSec fun x => { x with cmd := none }).st PCK_CMD_RESULT st).clr PCK_CMD_PENDING).set PCK_EVENTS_CMD_DONE)

/-- The target pocket of PCK_ARG0. -/
def Dev.pckTarget (s : Dev) : Nat := s.rd PCK_ARG0_POCKET
/-- The key-encryption pocket of PCK_ARG0. -/
def Dev.pckKek (s : Dev) : Nat := s.rd PCK_ARG0_KEK
/-- The address in PCK_ARG1. -/
def Dev.pckAddr (s : Dev) : Nat := 8 * s.rd PCK_ARG1_ADDR

/-- May an initiator issue commands on pocket `n`: Sarnis always, the pairs and the host by ADMIN? -/
def Dev.pckAdmin (s : Dev) (ini n : Nat) : Bool :=
  if ini = 9 then true
  else if ini < 2 then s.allows n 25
  else if ini = 0x10 ∨ ini = 0x11 then s.allows n 26
  else false

/-- Does a write into pocket `n` find two generations live, or an erase? -/
def Dev.pckBusy (s : Dev) (n : Nat) : Bool := (s.pocket n).state == 2 || (s.pocket n).state == 3

/-- What Table 08-10 refuses command `op` with, the caller's ADMIN apart: the table states no order, so the lowest code counts
(rule R12). A pocket without a KEY_SIZE takes no key. -/
def Dev.pckCheck (s : Dev) (op : Nat) : Status :=
  let n := s.pckTarget
  let k := s.pckKek
  let writes := op == 1 || op == 2 || op == 3
  lowestOf [
    (writes && s.pckBusy n, .busy),
    (op == 3 && !s.drbgServes, .notReady),
    ((op == 1 || op == 4) && !(s.pocket k).holds, .pocketEmpty),
    (op == 4 && !(s.pocket n).holds, .pocketEmpty),
    ((op == 5 || op == 6) && (s.pocket n).state == 0, .pocketEmpty),
    (writes && s.keySize n == 0, .policyDenied),
    (op == 2 && !s.allows n 20, .policyDenied),
    (op == 4 && !s.allows n 19, .policyDenied),
    ((op == 1 || op == 4) && !s.allows k 4, .policyDenied)]

/-- A write of OP: ignored while a command is pending; else the caller is recorded and the command runs, or is refused with the
lowest code that applies, that of a caller whom ADMIN does not name included. A refused GENERATE has asked the DRBG, whose refusal
stands until a reseed succeeds (rule R320). -/
def Dev.pckOp (s : Dev) (ini op : Nat) (f : Dev → Dev) : Dev :=
  if s.on PCK_CMD_PENDING then s.set PCK_EVENTS_CMD_IGNORED
  else
    let s := s.wr PCK_CMD_CALLER ini
    match worse (s.pckCheck op) (if s.pckAdmin ini s.pckTarget then .ok else .policyDenied) with
    | .ok => f s
    | .notReady => ((s.onSec fun x => { x with drbgOk := false }).clr PCK_ENT_STATUS_DRBG_READY).pckDone .notReady
    | st => s.pckDone st

/-- A command waits: for the journal, or for an erase to complete. -/
def Dev.pckWait (s : Dev) (op n : Nat) : Dev := (s.onSec fun x => { x with cmd := some (op, n) }).set PCK_CMD_PENDING

/-- A key is written as a new generation: at once, or with the programming of its type 1 record where the pocket is
persistent (rules R290 and R298). Its reservation is the present one, or one step for a pocket that has none. -/
def Dev.pckWrite (s : Dev) (dk : List Byte) (op n : Nat) (key : List Byte) : Dev :=
  if s.persist n then
    let p := s.pocket n
    let v := if p.resv = 0 then min fcLimit (p.fc + s.fcStep) else p.resv
    (s.pckWait op n).journalAdd
      { bytes := journalBytes dk 1 n p.nextGen (s.keySize n) v key, kind := 1, pocket := n, resv := v, key := key, done := true }
  else (s.newGeneration n key).pckDone .ok

/-- WRITE_WRAPPED, once the checks of Table 08-10 have passed. -/
def Dev.pckWrapped (s : Dev) (dk : List Byte) : Dev :=
  let n := s.pckTarget
  let r := s.rdMem 9 s.pckAddr (keyOctets (s.keySize n) + 16)
  if r.2.1 ≠ .ok then r.1.pckDone r.2.1
  else
    let kek := match (r.1.pocket s.pckKek).cur with | some g => nums g.key | none => []
    match kwUnwrap kek (nums r.2.2) with
    | none => r.1.pckDone .authFail
    | some b =>
      if b.take 8 = [1, s.keySize n, 0, 0, 0, 0, 0, 0] then r.1.pckWrite dk 1 n (octets (b.drop 8))
      else r.1.pckDone .wrapMismatch

/-- WRITE_CLEAR: the key is read and its source scrubbed; where the scrub's write fails, its status ends the command and no key is
taken (rules R8 and R24). -/
def Dev.pckClear (s : Dev) (dk : List Byte) : Dev :=
  let n := s.pckTarget
  let len := keyOctets (s.keySize n)
  let r := s.rdMem 9 s.pckAddr len
  if r.2.1 ≠ .ok then r.1.pckDone r.2.1
  else
    let w := r.1.wrMem 9 s.pckAddr (List.replicate len 0)
    if w.2 ≠ .ok then w.1.pckDone w.2 else w.1.pckWrite dk 2 n r.2.2

/-- GENERATE. -/
def Dev.pckGenerate (s : Dev) (dk : List Byte) : Dev :=
  let n := s.pckTarget
  match s.drbgTake (keyOctets (s.keySize n)) with
  | (t, some key) => t.pckWrite dk 3 n key
  | (t, none) => t.pckDone .notReady

/-- EXPORT. -/
def Dev.pckExport (s : Dev) : Dev :=
  match (s.pocket s.pckTarget).cur, (s.pocket s.pckKek).cur with
  | some g, some e =>
    let w := s.wrMem 9 s.pckAddr (octets (kwWrap (nums e.key) (keyBlob (s.keySize s.pckTarget) g.key)))
    w.1.pckDone w.2
  | _, _ => s.pckDone .pocketEmpty

/-- ERASE: the pocket is ERASING; generations without a bound request are scrubbed at once (rule R291). -/
def Dev.pckErase (s : Dev) : Dev :=
  let n := s.pckTarget
  ((s.pckWait 5 n).setPocket n { s.pocket n with erasing := true }).pocketSettle n

/-- Both generations of an erasing pocket are gone: counter and fail counts are scrubbed, and the command completes, once
the type 3 record is programmed where the pocket is persistent. -/
def Dev.pckErased (s : Dev) (dk : List Byte) (n : Nat) : Dev :=
  let p := s.pocket n
  if !p.erasing || p.cur.isSome || p.old.isSome then s
  else
    let mine := s.sec.cmd == some (5, n)
    let s := s.pocketWipe n
    if s.persist n then s.journalErase dk n mine
    else if mine then s.pckDone .ok else s

/-- ERASE_NOW. -/
def Dev.pckEraseNow (s : Dev) (dk : List Byte) : Dev :=
  let n := s.pckTarget
  let s := s.pocketKill n
  if s.persist n then (s.pckWait 6 n).journalErase dk n true else s.pckDone .ok

/-- All 64 pockets are erased with the effects of ERASE_NOW, and both journal blocks are to be erased (rule R293). -/
def Dev.eraseAllPockets (s : Dev) : Dev :=
  let s := s.each (List.range 64) fun s n => s.pocketKill n
  let s := s.onSec fun x => { x with journal := [], jArr := 0, jNext := 0, jErase := [0, 1] }
  let s := if s.sec.cmd.isSome then s.pckDone .keyErased else s
  s.journalKick

/-! ### The journal goes on (rules R298 and R299) -/

/-- A record has been programmed: what waited for it takes effect. -/
def Dev.journalApply (s : Dev) (r : JRec) : Dev :=
  let n := r.pocket
  let s := if r.kind = 1 then s.newGeneration n r.key else s
  let s := s.setPocket n { s.pocket n with lastRec := r.kind, resv := if r.kind = 3 then 0 else r.resv }
  let s := if r.kind = 2 then
      s.onSec fun x => { x with queue := x.queue.map fun q => if q.pocket = n then { q with deferred := false } else q }
    else s
  if r.done then s.pckDone .ok else s

/-- A journal job of array `a` has ended; `ok` where it verified. A failure is raised and charged, and Sarnis goes on in
the other block. -/
def Dev.journalEnded (s : Dev) (a : Nat) (j : FlashJob) (ok : Bool) : Dev :=
  if !isJournalJob j then s
  else
    let s := if ok then s else (s.set PCK_EVENTS_JOURNAL_FAIL).charge (0x0C + a) .journalFail 0
    if j.op = 2 then
      let s := s.onSec fun x => { x with jErase := x.jErase.filter fun y => y != a }
      if !ok ∧ s.sec.jArr = a then s.journalSwitch false else s
    else match s.sec.journal, ok with
      | r :: rest, true =>
        let s := (s.onSec fun x => { x with journal := rest, jNext := x.jNext + 1 }).journalApply r
        if 1024 ≤ s.sec.jNext then s.journalSwitch true else s
      | _, _ => s.journalSwitch false

/-- What the journal says of a pocket: the type of its last record, the latest key record, the latest reservation. -/
structure JState where
  last : Nat
  key : Option (List Byte)
  resv : Nat
deriving DecidableEq, Repr

/-- A record changes what the journal says of its pocket. -/
def JState.add (x : JState) (r : List Byte) : JState :=
  match fieldAt r 0 1 with
  | 1 => { last := 1, key := some r, resv := fieldAt r 4 4 }
  | 2 => { x with last := 2, resv := fieldAt r 4 4 }
  | 3 => { last := 3, key := none, resv := 0 }
  | _ => x

/-- Is the CMAC of a record valid? -/
def journalValid (dk r : List Byte) : Bool := nums (r.drop 0x38) == (cmac (nums dk) (nums (r.take 0x38))).take 8

/-- Records of both blocks in the order they were written: the block that is full first, else FA then FB. -/
def Dev.journalAll (s : Dev) : List (List Byte) :=
  let blk (a : Nat) : List (List Byte) := (List.range (s.journalEnd a)).map fun i => s.journalRecord a i
  if s.journalEnd 1 = 1024 ∧ s.journalEnd 0 ≠ 1024 then blk 1 ++ blk 0 else blk 0 ++ blk 1

/-- The key of a key record, where it can be used for a pocket of KEY_SIZE `size`. -/
def journalKey (dk : List Byte) (size : Nat) (r : List Byte) : Option (List Byte) :=
  match kwUnwrap (nums dk) (nums ((r.drop 8).take (keyOctets size + 16))) with
  | some b => if b.take 8 = [1, size, 0, 0, 0, 0, 0, 0] then some (octets (b.drop 8)) else none
  | none => none

/-- Pocket `n` is restored from what the journal says of it. -/
def Dev.pocketRestore (s : Dev) (dk : List Byte) (n : Nat) (x : JState) : Dev :=
  if !s.persist n || !(x.last == 1 || x.last == 2) then s
  else match x.key with
    | none => (s.set PCK_EVENTS_JOURNAL_LOSS).named n
    | some r => match journalKey dk (s.keySize n) r with
      | none => (s.set PCK_EVENTS_JOURNAL_LOSS).named n
      | some k =>
        let g := fieldAt r 2 1
        (s.setPocket n { Pocket.init with cur := some { gen := g, key := k }, gen := g, virgin := false, fc := x.resv,
                                          resv := x.resv, lastRec := x.last }).fcPassed n 0 x.resv

/-- JOURNAL_RESTORE (rule R299): once after a power-on reset, before any engine is released. -/
def Dev.journalRestore (s : Dev) (dk : List Byte) : Dev :=
  if s.sec.restored then s
  else
    let all := s.journalAll.filter (journalValid dk)
    let s := s.each (List.range 64) fun s n =>
      s.pocketRestore dk n ((all.filter fun r => fieldAt r 1 1 == n).foldl JState.add { last := 0, key := none, resv := 0 })
    let a := if s.journalEnd 1 = 1024 ∧ s.journalEnd 0 ≠ 1024 then 0 else if s.journalEnd 1 ≠ 0 then 1 else 0
    let s := s.onSec fun x => { x with restored := true, jArr := a, jNext := s.journalEnd a }
    if s.sec.jNext = 1024 then s.journalSwitch true else s

/-! ### Entropy (rules R315 and R318 to R320) -/

/-- Does the repetition count test fail on samples, cutoff 41? `run` equal samples end at `last`. -/
def rctFails : List Bool → Bool → Nat → Bool
  | [], _, _ => false
  | x :: l, last, run =>
    let n := if x == last then run + 1 else 1
    decide (41 ≤ n) || rctFails l x n

/-- Does the adaptive proportion test fail on a window of samples, cutoff 794? -/
def aptFails (l : List Bool) : Bool := decide (794 ≤ (l.filter fun x => x == l.headD false).length)

/-- A word of `n` samples, the first in the highest bit (assumption log 58). -/
def sampleList (n w : Nat) : List Bool := ((List.range n).reverse).map fun i => bitOf w i

/-- A health test has failed: in use the start-up test runs again; a start-up test that fails for the third time in a row
makes the source FAILED. -/
def Dev.entropyFail (s : Dev) (rct apt : Bool) : Dev :=
  if !s.up 2 then s
  else
    let s := if rct then s.bump PCK_ENT_CNT_RCT else s
    let s := (if apt then s.bump PCK_ENT_CNT_APT else s).set PCK_EVENTS_ENTROPY_FAIL
    if s.rd PCK_ENT_STATUS_STATE = 1 then s.wr PCK_ENT_STATUS_STATE 2
    else
      let s := s.bump PCK_ENT_STATUS_STARTUP_FAILS
      if 3 ≤ s.rd PCK_ENT_STATUS_STARTUP_FAILS then
        (((s.wr PCK_ENT_STATUS_STATE 3).mark .entropy).set PCK_EVENTS_ENTROPY_LOST).charge 9 .entropyLost 0
      else s.wr PCK_ENT_STATUS_STATE 2

/-- The start-up test takes 1,024 samples, which pass both tests or not. -/
def Dev.entropyStart (s : Dev) (samples : Nat) : Dev :=
  let l := sampleList 1024 samples
  let rct := rctFails l false 0
  let apt := aptFails l
  if !s.up 2 || s.rd PCK_ENT_STATUS_STATE == 1 || s.rd PCK_ENT_STATUS_STATE == 3 then s
  else if rct || apt then s.entropyFail rct apt
  else (s.wr PCK_ENT_STATUS_STATE 1).wr PCK_ENT_STATUS_STARTUP_FAILS 0

/-- In FAILED the start-up test is tried again every 10 s. -/
def Dev.entropyRetry (s : Dev) : Dev :=
  if s.rd PCK_ENT_STATUS_STATE = 3 ∧ s.waited .entropy (us 10000000) then (s.wr PCK_ENT_STATUS_STATE 2).mark .entropy else s

/-- The 384 conditioned bits of 1,536 samples: three blocks of the AES-CMAC of 512 samples each under the conditioning key. -/
def conditioned (samples : Nat) : List Nat :=
  (List.range 3).flatMap fun i => cmac (be 32 Config.condKey.toNat) (be 64 (samples / 2 ^ (512 * (2 - i)) % 2 ^ 512))

/-- The DRBG is seeded with 384 conditioned bits where a reseed is due; the context key is drawn at the first seed after
power-on. -/
def Dev.drbgSeed (s : Dev) (seed : List Nat) : Dev :=
  if !s.up 2 || s.rd PCK_ENT_STATUS_STATE != 1 || (s.sec.drbgOk && !s.drbgDue) then s
  else
    let first := s.sec.drbgKey == []
    let u := if first then drbgUpdate (List.replicate 32 0) zero16 seed
      else drbgUpdate (nums s.sec.drbgKey) (nums s.sec.drbgV) seed
    let s := (s.onSec fun x => { x with drbgKey := octets u.1, drbgV := octets u.2, drbgCount := 0, drbgAt := s.now,
                                        drbgOk := true }).set PCK_ENT_STATUS_DRBG_READY
    if s.sec.ctxKey = [] then
      match s.drbgTake 32 with
      | (t, some k) => t.onSec fun x => { x with ctxKey := k }
      | (t, none) => t
    else s

/-- RANDOM_REFILL, in a powered secure domain. -/
def Dev.refill (s : Dev) : Dev := if s.up 2 then s.randomFill else s

/-! ### Reads with an effect -/

/-- A read of PCK_RANDOM. -/
def Dev.readRandom (s : Dev) : Dev × Status × Nat :=
  match s.draw32 with
  | (t, some v) => (t, .ok, v)
  | (t, none) => (t, .notReady, 0)

/-- A read of PCK_FAILS: both counts of the selected pocket, then 0. -/
def Dev.readFails (s : Dev) : Dev × Status × Nat :=
  let n := s.rd PCK_SEL_POCKET
  let p := s.pocket n
  (s.setPocket n { p with auth := 0, rejects := 0 }, .ok, 65536 * p.rejects + p.auth)

/-- The word of PCK_ENT_STATUS: DRBG_READY while the DRBG accepts requests. -/
def Dev.entropyView (s : Dev) : Nat := ((s.put PCK_ENT_STATUS_DRBG_READY s.drbgServes).reg PCK_ENT_STATUS).toNat

/-- The words of PCK_STATE and PCK_FC for the selected pocket. -/
def Dev.pocketView (s : Dev) : Nat × Nat :=
  let n := s.rd PCK_SEL_POCKET
  let p := s.pocket n
  (p.state + (if fcLimit ≤ p.fc then 8 else 0) + 256 * p.gen + 2 ^ 16 * s.bound n p.cur + 2 ^ 24 * s.bound n p.old, p.fc)

/-! ### Meanings -/

/-- POCKET_WRITE_WRAPPED, rule R290. -/
def execPocketWriteWrapped (ini : Ini) : State → Host.Outcome State Fault Refusal :=
  onDevKey fun dk s => s.cmdAt ini PCK_CMD fun s => s.pckOp ini 1 fun s => s.pckWrapped dk
/-- POCKET_WRITE_CLEAR, rule R290. -/
def execPocketWriteClear (ini : Ini) : State → Host.Outcome State Fault Refusal :=
  onDevKey fun dk s => s.cmdAt ini PCK_CMD fun s => s.pckOp ini 2 fun s => s.pckClear dk
/-- POCKET_GENERATE, rule R290. -/
def execPocketGenerate (ini : Ini) : State → Host.Outcome State Fault Refusal :=
  onDevKey fun dk s => s.cmdAt ini PCK_CMD fun s => s.pckOp ini 3 fun s => s.pckGenerate dk
/-- POCKET_EXPORT, rule R282. -/
def execPocketExport (ini : Ini) : State → Host.Outcome State Fault Refusal :=
  onDev fun s => s.cmdAt ini PCK_CMD fun s => s.pckOp ini 4 fun s => s.pckExport
/-- POCKET_ERASE, rule R291. -/
def execPocketErase (ini : Ini) : State → Host.Outcome State Fault Refusal :=
  onDev fun s => s.cmdAt ini PCK_CMD fun s => s.pckOp ini 5 fun s => s.pckErase
/-- POCKET_ERASE_COMPLETE, rule R291. -/
def execPocketEraseComplete (n : Fin 64) : State → Host.Outcome State Fault Refusal := onDevKey fun dk s => s.pckErased dk n
/-- ENTROPY_STARTUP_TEST, rule R318. -/
def execEntropyStartupTest (samples : BitVec 1024) : State → Host.Outcome State Fault Refusal :=
  onDev (·.entropyStart samples.toNat)
/-- ENTROPY_TEST_FAIL, rule R319. -/
def execEntropyTestFail (apt : Bool) : State → Host.Outcome State Fault Refusal := onDev (·.entropyFail (!apt) apt)
/-- ENTROPY_RETRY, rule R319. -/
def execEntropyRetry : State → Host.Outcome State Fault Refusal := onDev (·.entropyRetry)
/-- DRBG_RESEED, rules R319 and R320. -/
def execDrbgReseed (samples : BitVec 1536) : State → Host.Outcome State Fault Refusal :=
  onDev (·.drbgSeed (conditioned samples.toNat))
/-- RANDOM_REFILL, rule R321. -/
def execRandomRefill : State → Host.Outcome State Fault Refusal := onDev (·.refill)
/-- PCK_RANDOM_READ, rule R321. -/
def execPckRandomRead (ini : Ini) : State → Host.Outcome State Fault Refusal :=
  onDev fun s => s.guarded ini PCK_RANDOM (·.readRandom)
/-- PCK_FAILS_READ, rule R310. -/
def execPckFailsRead (ini : Ini) : State → Host.Outcome State Fault Refusal :=
  onDev fun s => s.guarded ini PCK_FAILS (·.readFails)

end Sys2Proof.Machine
end

