-- ==== Sys2Proof/Machine/Pairs.lean ====
section
/-!
DEFINITION. The processor pairs, their interrupt controllers, mailbox, cache locks and watchdogs (chapter 10). What a
watchdog expiry on trial does, and the debug port, stand in later files.
-/

namespace Sys2Proof.Machine

/-! ### Pairs (rules R367 to R373) -/

/-- STANDBY_READY follows the standby. -/
def Dev.pairView (s : Dev) : Dev := s.put SYS_PAIR_STATUS_STANDBY_READY s.standbyUp

/-- The comparator of pair `x` finds a difference (rule R367). -/
def Dev.mismatch (s : Dev) (x : Nat) : Dev :=
  let r := (s.pair x).run
  if r = .running ∨ r = .selftest then
    (((s.setPair x { s.pair x with run := .halted }).set SYS_PAIR_EVENTS_MISMATCH).charge x .mismatch 0).pairView
  else s

/-- Has unit `c` been declared lasting? -/
def Dev.isLasting (s : Dev) (c : Nat) : Bool :=
  if c < 0x20 then s.bit FLT_LASTING_LO_MASK c else s.bit FLT_LASTING_HI_MASK (c - 0x20)

/-- A pair restarted in place is released at the entry of its role (rule R370). -/
def Dev.pairRestarted (s : Dev) (x : Nat) : Dev :=
  let p := s.pair x
  if p.run ≠ .restarting then s
  else
    let s := s.pairRelease x p.cause p.standby (s.entryOf (s.roleOf x))
    let s := if s.isLasting x ∧ !p.standby then s.unitState x 6 else s
    s.pairView.svcEval

/-- The standby starts its core self-test. -/
def Dev.pairTest (s : Dev) : Dev :=
  let y := s.carrier 1
  if s.standbyUp ∧ (s.pair y).run = .running ∧ s.on SYS_PAIR_ROT_PERIOD_S ∧
      s.waited .pairTest (us (1000000 * s.rd SYS_PAIR_ROT_PERIOD_S)) then
    ((s.setPair y { s.pair y with run := .selftest }).unitState y 3).mark .pairTest
  else s

/-- The standby's self-test of 40 ms ends. -/
def Dev.pairTested (s : Dev) (pass : Bool) : Dev :=
  let y := s.carrier 1
  if (s.pair y).run ≠ .selftest ∨ !s.waited .pairTest (us 40000) then s
  else
    let s := (s.setPair y { s.pair y with run := .running }).unitState y 2
    if pass then s.set SYS_PAIR_EVENTS_ROTATE_DUE
    else ((s.set SYS_PAIR_EVENTS_SELFTEST_FAIL).charge y .selftestFail 0).pairView

/-- HANDOVER by the role-P pair while ROTATE_DUE: the pairs swap, both released at P_ENTRY with CAUSE 6. -/
def Dev.handover (s : Dev) (ini : Nat) : Dev :=
  if ini = 0 ∧ s.on SYS_PAIR_EVENTS_ROTATE_DUE ∧ s.standbyUp then
    let x := s.carrier 0
    let y := s.carrier 1
    let s := ((s.pairReset x).pairReset y).wr SYS_PAIR_STATUS_PRIMARY y
    let s := (s.pairRelease y 6 false s.img.pEntry).pairRelease x 6 true s.img.pEntry
    ((s.clr SYS_PAIR_EVENTS_ROTATE_DUE).pairView).svcEval
  else s

/-- The word of SYS_PAIR_SELF as an initiator reads it; others than the pairs read the role-P pair's view. -/
def Dev.pairSelf (s : Dev) (ini : Nat) : Nat :=
  let r := if ini = 1 then 1 else 0
  let x := s.carrier r
  r + (if (s.pair x).standby then 2 else 0) + 4 * x + 256 * (s.pair x).cause

/-! ### Instruction-cache locks (rule R378) -/

/-- A write to SYS_ICLOCK_SIZE of role `x`. -/
def Dev.icacheLock (s : Dev) (x v : Nat) : Dev :=
  let n := min 512 (bits v 5 10)
  let a := 32 * s.rd (SYS_ICLOCK_BASE_ADDR x)
  let p := s.carrier x
  let s := (s.wr (SYS_ICLOCK_SIZE_LINES x) n).clr (SYS_ICLOCK_SIZE_BAD_RANGE x)
  if n = 0 then (s.setPair p { s.pair p with locked := [] }).clr (SYS_ICLOCK_SIZE_FILLING x)
  else if a < 0x10000000 ∨ 0x10800000 < a + 32 * n then
    ((s.setPair p { s.pair p with locked := [] }).set (SYS_ICLOCK_SIZE_BAD_RANGE x)).clr (SYS_ICLOCK_SIZE_FILLING x)
  else (s.setPair p { s.pair p with locked := [(a, n)] }).set (SYS_ICLOCK_SIZE_FILLING x)

/-- The loading of role `x` has ended: its lines have been read as any flash is read (rule R378). -/
def Dev.icacheFilled (s : Dev) (x : Nat) : Dev :=
  if s.on (SYS_ICLOCK_SIZE_FILLING x) then
    (s.touch x ((s.pair (s.carrier x)).locked.map fun l => (l.1, 32 * l.2))).clr (SYS_ICLOCK_SIZE_FILLING x)
  else s

/-! ### Interrupts (rules R379 and R380) -/

/-- The sources of Table 10-2 with an event and an enable register: id, events, enables. Each is raised by any event bit
whose enable bit is set. -/
def irqBlocks : List (Nat × Nat × Nat) :=
  [(1, SYS_PAIR_EVENTS, SYS_PAIR_INT_EN), (3, MNT_EVENTS, MNT_INT_EN), (4, FLT_EVENTS, FLT_INT_EN)] ++
  (List.range 8).map (fun k => (5 + k, GT_EVENTS k, GT_INT_EN k)) ++
  (List.range 8).map (fun k => (13 + k, CSP_EVENTS k, CSP_INT_EN k)) ++
  (List.range 4).map (fun u => (21 + u, UART_EVENTS u, UART_INT_EN u)) ++
  (List.range 2).map (fun i => (25 + i, I2C_EVENTS i, I2C_INT_EN i)) ++
  [(59, TREF_EVENTS, TREF_INT_EN), (60, FLC_EVENTS 0, FLC_INT_EN 0), (61, FLC_EVENTS 1, FLC_INT_EN 1),
   (62, WV_EVENTS, WV_INT_EN), (63, PCK_EVENTS, PCK_INT_EN), (65, RF_EVENTS 0, RF_INT_EN 0), (66, RF_EVENTS 1, RF_INT_EN 1),
   (67, TXP_EVENTS 0, TXP_INT_EN 0), (68, TXP_EVENTS 1, TXP_INT_EN 1), (69, SLV_EVENTS, SLV_INT_EN),
   (70, SE_EVENTS, SE_INT_EN), (71, LE_EVENTS, LE_INT_EN), (72, ML_EVENTS, ML_INT_EN), (73, PT_EVENTS, PT_INT_EN),
   (74, WL_EVENTS 0, WL_INT_EN 0), (75, WL_EVENTS 1, WL_INT_EN 1), (76, FSW_EVENTS, FSW_INT_EN)]

/-- Event bits of a register pair that are enabled. -/
def Dev.raised (s : Dev) (ev en : Nat) : Nat := (s.reg ev &&& s.reg en).toNat

/-- Is source `id` raised at the controller of the pair in role `r`? -/
def Dev.irqRaised (s : Dev) (r id : Nat) : Bool :=
  if 27 ≤ id ∧ id ≤ 58 then bitOf (s.raised GPIO_EVENTS GPIO_INT_EN) (id - 27)
  else if id = 64 then
    bits (s.raised CE_EVENTS CE_INT_EN) 0 9 != 0 || bitOf (s.raised CE_EVENTS CE_INT_EN) (16 + r)
  else if id = 77 then s.on SYS_PAIR_EVENTS_MBOX && s.mboxFrom != 2 && s.mboxFrom != r
  else if id = 78 then (s.wdt r).warned
  else match irqBlocks.find? fun x => x.1 == id with
    | some x => s.raised x.2.1 x.2.2 != 0
    | none => false

/-- Is source `id` pending at pair `x`: raised, and not claimed? -/
def Dev.irqPending (s : Dev) (x id : Nat) : Bool := s.irqRaised (s.roleOf x) id && !(s.pair x).claimed.contains id

/-- Priority of a source at pair `x`. -/
def Pair.priority (p : Pair) (id : Nat) : Nat := mapGet (fun _ => 0) p.prio id

/-- Is a source enabled for context 0? -/
def Pair.enabled (p : Pair) (id : Nat) : Bool := mapGet (fun _ => false) p.enable id

/-- The source a claim takes: the highest priority above the threshold among pending enabled sources, the lowest id of
equal ones; 0 where there is none. -/
def Dev.irqBest (s : Dev) (x : Nat) : Nat :=
  let p := s.pair x
  ((List.range 128).map (· + 1)).foldl (fun best id =>
    if s.irqPending x id && p.enabled id && decide (p.threshold < p.priority id) &&
       (best == 0 || decide (p.priority best < p.priority id)) then id else best) 0

/-- The pair whose controller an initiator sees at 0x4000_4000. -/
def Dev.plicOf (s : Dev) (ini : Nat) : Nat := s.carrier (if ini = 1 then 1 else 0)

/-- A read of the claim register. -/
def Dev.plicClaim (s : Dev) (ini : Nat) : Dev × Status × Nat :=
  let x := s.plicOf ini
  let id := s.irqBest x
  if id = 0 then (s, .ok, 0) else (s.setPair x { s.pair x with claimed := id :: (s.pair x).claimed }, .ok, id)

/-- A write to the claim and complete register. -/
def Dev.plicComplete (s : Dev) (ini id : Nat) : Dev :=
  let x := s.plicOf ini
  s.setPair x { s.pair x with claimed := (s.pair x).claimed.filter fun y => y != id }

/-- The claim and complete register (rule R379). -/
def plicClaimAddr : Nat := 0x40007004

/-- 32 bits of the interrupt controller of pair `x`, bit `i` for source `32 w + i`. -/
def irqWord (f : Nat → Bool) (w : Nat) : Nat :=
  (List.range 32).foldl (fun v i => if 1 ≤ 32 * w + i ∧ 32 * w + i ≤ 128 ∧ f (32 * w + i) then v + 2 ^ i else v) 0

/-- A read of the interrupt controller at offset `o`, the claim register apart. -/
def Dev.plicRead (s : Dev) (ini o : Nat) : Nat :=
  let x := s.plicOf ini
  let p := s.pair x
  if o % 4 ≠ 0 then 0
  else if 4 ≤ o ∧ o ≤ 512 then p.priority (o / 4)
  else if 0x1000 ≤ o ∧ o ≤ 0x1010 then irqWord (s.irqPending x) ((o - 0x1000) / 4)
  else if 0x2000 ≤ o ∧ o ≤ 0x2010 then irqWord p.enabled ((o - 0x2000) / 4)
  else if o = 0x3000 then p.threshold
  else 0

/-- A write to the interrupt controller at offset `o`, the complete register apart. -/
def Dev.plicWrite (s : Dev) (ini o v : Nat) : Dev :=
  let x := s.plicOf ini
  let p := s.pair x
  if o % 4 ≠ 0 then s
  else if 4 ≤ o ∧ o ≤ 512 then s.setPair x { p with prio := mapPut (fun _ => 0) p.prio (o / 4) (v % 8) }
  else if 0x2000 ≤ o ∧ o ≤ 0x2010 then
    let w := (o - 0x2000) / 4
    let e := (List.range 32).foldl (fun m i =>
      if 1 ≤ 32 * w + i ∧ 32 * w + i ≤ 128 then mapPut (fun _ => false) m (32 * w + i) (bitOf v i) else m) p.enable
    s.setPair x { p with enable := e }
  else if o = 0x3000 then s.setPair x { p with threshold := v % 8 }
  else s

/-! ### Mailbox (rule R380) -/

/-- A write to SYS_MBOX. -/
def Dev.mboxWrite (s : Dev) (ini v : Nat) : Dev :=
  { (s.wr SYS_MBOX_VALUE v).set SYS_PAIR_EVENTS_MBOX with mboxFrom := if ini < 2 then ini else 2 }

/-- A read of SYS_MBOX: by the receiving pair it clears MBOX. -/
def Dev.mboxRead (s : Dev) (ini : Nat) : Dev × Status × Nat :=
  (if ini < 2 ∧ s.mboxFrom < 2 ∧ ini ≠ s.mboxFrom then s.clr SYS_PAIR_EVENTS_MBOX else s, .ok, s.rd SYS_MBOX_VALUE)

/-! ### Watchdogs (rules R381 to R383) -/

/-- TIMEOUT_MS of role `x` as it acts. -/
def Dev.wdtTimeout (s : Dev) (x : Nat) : Nat := max 256 (2 * s.rd (SYS_WDT_CFG_TIMEOUT_MS x))

/-- WARN_MS of role `x` as it acts. -/
def Dev.wdtLead (s : Dev) (x : Nat) : Nat :=
  if s.wdtTimeout x ≤ s.rd (SYS_WDT_CFG_WARN_MS x) then s.wdtTimeout x / 2 else s.rd (SYS_WDT_CFG_WARN_MS x)

/-- The count of role `x` starts at TIMEOUT_MS. -/
def Dev.wdtStart (s : Dev) (x : Nat) : Dev :=
  s.setWdt x { due := tsAdd s.now (s.wdtTimeout x * 8000 : Nat),
               paused := if (s.wdt x).paused.isSome then some (s.wdtTimeout x * 8000) else none, warned := false }

/-- SYS_WDT_LEFT of role `x`. -/
def Dev.wdtLeft (s : Dev) (x : Nat) : Nat :=
  if !s.on (SYS_WDT_CFG_ENABLE x) then 0
  else match (s.wdt x).paused with
    | some c => (c + 7999) / 8000
    | none => if tsLe (s.wdt x).due s.now then 0 else ((tsDiff (s.wdt x).due s.now).toNat + 7999) / 8000

/-- A write of SYS_WDT_CFG of role `x`: ENABLE is set and never cleared, and setting it starts the count. -/
def Dev.wdtCfg (s : Dev) (x v : Nat) : Dev :=
  let on := s.on (SYS_WDT_CFG_ENABLE x)
  let s := s.setReg (SYS_WDT_CFG x) (BitVec.ofNat 32 (v / 2 * 2 + if on ∨ v % 2 = 1 then 1 else 0))
  if on ∨ v % 2 = 0 then s else (s.wdtStart x).svcEval

/-- A write of SYS_WDT_KICK of role `x`: only the key, only by the pair in the role. -/
def Dev.wdtKick (s : Dev) (ini x key : Nat) : Dev :=
  if ini = x ∧ key = 0x4B49434B then
    let p := s.carrier x
    ((s.wdtStart x).setPair p { s.pair p with kicked := true }).svcEval
  else s

/-- Has the count of role `x`, which runs, come within `lead` ms of expiry? -/
def Dev.wdtNear (s : Dev) (x lead : Nat) : Bool :=
  s.on (SYS_WDT_CFG_ENABLE x) && (s.wdt x).paused.isNone && tsLe (tsAdd (s.wdt x).due (-((8000 * lead : Nat) : Int))) s.now

/-- WARN_MS before expiry source 78 is raised. -/
def Dev.wdtWarn (s : Dev) (x : Nat) : Dev :=
  if s.wdtNear x (s.wdtLead x) then s.setWdt x { s.wdt x with warned := true } else s

/-- An expired watchdog of an image that is not on trial is a fault of the pair carrying the role. -/
def Dev.wdtFault (s : Dev) (x : Nat) : Dev := ((s.set SYS_PAIR_EVENTS_WDT_FAULT).charge (s.carrier x) .watchdog 0).pairView

/-- Has link engine `k` completed no tick for 16 times TICK_US (Table 10-3)? -/
def Dev.leStuck (s : Dev) (k : Nat) : Bool :=
  s.on (LE_STATE_RUNNING k) && decide (((128 * max 100 (s.rd (LE_TICK_TICK_US k)) : Nat) : Int) ≤ tsDiff s.now (s.eng k).last)

/-- A watchdog of Table 10-3 expires. -/
def Dev.engineWdt (s : Dev) (e : WdtEngine) : Dev :=
  match e with
  | .le k => if s.leStuck k then s.charge (2 + k) .watchdog 0 else s
  | .mantle => s.charge 8 .watchdog 0
  | .sarnis =>
    if !s.up 2 then s
    else
      let s := s.charge 9 .watchdog 0
      let s := s.unitState 9 1
      if s.on PCK_CMD_PENDING then (s.journalCut (s.journalBusy s.sec.jArr)).pckDone .notReady else s

/-- Sarnis is back in service. -/
def Dev.sarnisRestarted (s : Dev) : Dev :=
  if (s.unit 9).state = 1 then s.unitState 9 (if s.isLasting 9 then 6 else 0) else s

/-! ### Meanings -/

/-- LOCKSTEP_MISMATCH, rule R367. -/
def execLockstepMismatch (x : Fin 2) : State → Host.Outcome State Fault Refusal := onDev (·.mismatch x)
/-- PAIR_RESTART_DONE, rule R370. -/
def execPairRestartDone (x : Fin 2) : State → Host.Outcome State Fault Refusal := onDev (·.pairRestarted x)
/-- PAIR_SELFTEST_START, rule R373. -/
def execPairSelftestStart : State → Host.Outcome State Fault Refusal := onDev (·.pairTest)
/-- PAIR_SELFTEST_DONE, rule R373. -/
def execPairSelftestDone (pass : Bool) : State → Host.Outcome State Fault Refusal := onDev (·.pairTested pass)
/-- PAIR_HANDOVER, rule R373. -/
def execPairHandover (ini : Ini) : State → Host.Outcome State Fault Refusal :=
  onDev fun s => s.cmdAt ini SYS_PAIR_CTL (·.handover ini)
/-- ICACHE_LOCK, rule R378. -/
def execIcacheLock (ini : Ini) (x : Fin 2) (v : Word) : State → Host.Outcome State Fault Refusal :=
  onDev fun s => s.cmdAt ini (SYS_ICLOCK_SIZE x) (·.icacheLock x v.toNat)
/-- ICACHE_LOCK_DONE, rule R378. -/
def execIcacheLockDone (x : Fin 2) : State → Host.Outcome State Fault Refusal := onDev (·.icacheFilled x)
/-- PLIC_CLAIM, rule R379. -/
def execPlicClaim (ini : Ini) : State → Host.Outcome State Fault Refusal :=
  onDev fun s => s.guarded ini plicClaimAddr (·.plicClaim ini)
/-- PLIC_COMPLETE, rule R379. -/
def execPlicComplete (ini : Ini) (id : Word) : State → Host.Outcome State Fault Refusal :=
  onDev fun s => s.cmdAt ini plicClaimAddr (·.plicComplete ini id.toNat)
/-- MAILBOX_WRITE, rule R380. -/
def execMailboxWrite (ini : Ini) (v : Word) : State → Host.Outcome State Fault Refusal :=
  onDev fun s => s.cmdAt ini SYS_MBOX (·.mboxWrite ini v.toNat)
/-- MAILBOX_READ, rule R380. -/
def execMailboxRead (ini : Ini) : State → Host.Outcome State Fault Refusal :=
  onDev fun s => s.guarded ini SYS_MBOX (·.mboxRead ini)
/-- WDT_KICK, rule R381. -/
def execWdtKick (ini : Ini) (x : Fin 2) (key : Word) : State → Host.Outcome State Fault Refusal :=
  onDev fun s => s.cmdAt ini (SYS_WDT_KICK x) (·.wdtKick ini x key.toNat)
/-- WDT_WARN, rule R381. -/
def execWdtWarn (x : Fin 2) : State → Host.Outcome State Fault Refusal := onDev (·.wdtWarn x)
/-- ENGINE_WDT_EXPIRE, rule R383. -/
def execEngineWdtExpire (e : WdtEngine) : State → Host.Outcome State Fault Refusal := onDev (·.engineWdt e)
/-- SARNIS_RESTART_DONE, rule R383. -/
def execSarnisRestartDone : State → Host.Outcome State Fault Refusal := onDev (·.sarnisRestarted)

end Sys2Proof.Machine
end

