-- ==== Sys2Proof/Machine/Timers.lean ====
section
/-!
DEFINITION. The general timers and their trigger matrix (rules R387 to R395). A timer's count is the one known at its last
event; a command carries the ticks that have passed since.
-/

namespace Sys2Proof.Machine

/-! ### Counting -/

/-- The channel record of timer `k`, channel `c`. -/
def Dev.gtc (s : Dev) (k c : Nat) : Chan := s.chan (4 * k + c)

/-- Channel `c` of timer `k` takes a record. -/
def Dev.setGtc (s : Dev) (k c : Nat) (v : Chan) : Dev := s.setChan (4 * k + c) v

/-- May the counter of timer `k` tick: enabled, ungated, its bus clock running and not frozen by the debugger (rules R386,
R387 and R395)? -/
def Dev.gtLive (s : Dev) (k : Nat) : Bool :=
  s.up 1 && s.on (GT_CTRL_EN k) && !s.on (GT_CTRL_GATED k) &&
    !(s.on (GT_CTRL_DBG_FREEZE k) && s.hartHalted (s.carrier 0))

/-- Does timer `k` count bus-clock cycles? -/
def Dev.gtCounts (s : Dev) (k : Nat) : Bool := s.gtLive k && !s.on (GT_CTRL_CLK_EXT k)

/-- Ticks that have passed are counted. A wrap is a command of its own, so the count stays at the reload at most. -/
def Dev.gtAdvance (s : Dev) (k ticks : Nat) : Dev :=
  let t := s.timer k
  if s.gtCounts k then s.setTimer k { t with cnt := max t.cnt (min (t.cnt + ticks) t.reload) } else s

/-! ### Trigger lines (rule R393) -/

/-- The level of line `l`: a wrap source toggles it, a compare channel holds it at 1 below VAL, a capture channel shows
its filtered input. -/
def Dev.lineLevel (s : Dev) (l : Nat) : Bool :=
  let k := s.rd (GT_TRIG_SOURCE l)
  let e := s.rd (GT_TRIG_EVENT l)
  if e = 0 then mapGet (fun _ => false) s.lineTog l
  else if e ≤ 4 then decide ((s.timer k).cnt < (s.gtc k (e - 1)).val)
  else (s.gtc k (e - 5)).level

/-- Is line `l` wired to timer `d` with action `act`? -/
def Dev.wired (s : Dev) (l d act : Nat) : Bool :=
  s.rd (GT_TRIG_SOURCE l) != 0xFF && s.rd (GT_TRIG_ACTION l) == act && s.rd (GT_TRIG_DEST l) == d

/-- GATED and CLK_EXT of every timer follow the lines. -/
def Dev.gtView (s : Dev) : Dev :=
  s.each (List.range 8) fun s d =>
    (s.put (GT_CTRL_GATED d) ((List.range 16).any fun l => s.wired l d 1 && !s.lineLevel l)).put
      (GT_CTRL_CLK_EXT d) ((List.range 16).any fun l => s.wired l d 3)

/-- An event of a timer: the timer, and its number in Table 10-18. -/
abbrev GtEvent := Nat × Nat

/-- The compare channels of timer `k` whose VAL the count has just taken match: CC, the output, and their events
(rule R390). -/
def Dev.gtMatch (s : Dev) (k : Nat) : Dev × List GtEvent :=
  (List.range 4).foldl (fun r c =>
    let s := r.1
    let v := s.gtc k c
    if s.rd (GT_CFG_MODE k c) = 1 ∧ v.val = (s.timer k).cnt then
      let act := s.rd (GT_CFG_OUT_ACT k c)
      let out := if act = 1 then true else if act = 2 ∨ act = 4 then false else if act = 3 then !v.out else v.out
      ((s.putBit (GT_EVENTS_CC k) c true).setGtc k c { v with out := out }, r.2 ++ [(k, 1 + c)])
    else r) (s, [])

/-- Preloaded values of timer `k` come into use at a wrap, and PWM outputs rise (rules R388 and R390). -/
def Dev.gtReloaded (s : Dev) (k : Nat) : Dev :=
  let t := s.timer k
  let s := if s.on (GT_STATUS_RELOAD_PEND k) then
      (s.setTimer k { t with reload := t.reloadSet }).clr (GT_STATUS_RELOAD_PEND k) else s
  let s := if s.on (GT_STATUS_PSC_PEND k) then
      ((s.setTimer k { s.timer k with psc := s.rd (GT_PSC_PSC k) }).wr (GT_PSC_PSC_ACTIVE k) (s.rd (GT_PSC_PSC k))).clr
        (GT_STATUS_PSC_PEND k)
    else s
  s.each (List.range 4) fun s c =>
    let v := s.gtc k c
    let v := if s.bit (GT_STATUS_CC_PEND k) c then { v with val := v.next } else v
    let v := if s.rd (GT_CFG_MODE k c) = 1 ∧ s.rd (GT_CFG_OUT_ACT k c) = 4 then { v with out := true } else v
    (s.putBit (GT_STATUS_CC_PEND k) c false).setGtc k c v

/-- The counter of timer `k` wraps: RELOAD_PASSED where a reload was committed below the count (rule R388). -/
def Dev.gtWrapped (s : Dev) (k : Nat) : Dev × List GtEvent :=
  let t := s.timer k
  let s := if t.passed ∧ t.reload < t.cnt then s.set (GT_EVENTS_RELOAD_PASSED k) else s
  let s := (s.set (GT_EVENTS_WRAP k)).setTimer k { t with cnt := 0, passed := false }
  let s := s.each (List.range 16) fun s l =>
    if s.rd (GT_TRIG_SOURCE l) = k ∧ s.rd (GT_TRIG_EVENT l) = 0 then
      { s with lineTog := mapPut (fun _ => false) s.lineTog l (!mapGet (fun _ => false) s.lineTog l) }
    else s
  let r := (s.gtReloaded k).gtMatch k
  (r.1, (k, 0) :: r.2)

/-- One tick of timer `k` (rule R387). -/
def Dev.gtTick (s : Dev) (k : Nat) : Dev × List GtEvent :=
  let t := s.timer k
  if t.reload ≤ t.cnt then s.gtWrapped k else (s.setTimer k { t with cnt := t.cnt + 1 }).gtMatch k

/-- One line pulse counted by the prescaler of timer `k` (Table 10-5, action 3). -/
def Dev.gtPulse (s : Dev) (k : Nat) : Dev × List GtEvent :=
  let t := s.timer k
  if !s.gtLive k then (s, [])
  else if t.pscCount + 1 < 2 ^ t.psc then (s.setTimer k { t with pscCount := t.pscCount + 1 }, [])
  else (s.setTimer k { t with pscCount := 0 }).gtTick k

/-- What the pulses of one cycle do to timer `d`: a reset acts in place of a tick, several clock pulses count once, and a
start sets EN (Table 10-5). -/
def Dev.gtAct (s : Dev) (evs : List GtEvent) (d : Nat) : Dev × List GtEvent :=
  let pulse (act : Nat) : Bool := (List.range 16).any fun l =>
    s.wired l d act && evs.any fun e => s.rd (GT_TRIG_SOURCE l) == e.1 && s.rd (GT_TRIG_EVENT l) == e.2
  let start := pulse 4
  let r := if pulse 2 then (s.setTimer d { s.timer d with cnt := 0, pscCount := 0, passed := false }).gtMatch d
    else if pulse 3 then s.gtPulse d else (s, [])
  (if start then r.1.set (GT_CTRL_EN d) else r.1, r.2)

/-- The pulses of the events `evs` act at their destinations, then those of the events they raise; `n` bounds the chain,
which a loop of lines would continue for ever. -/
def Dev.gtSpread (s : Dev) : Nat → List GtEvent → Dev
  | 0, _ => s.gtView
  | n + 1, evs =>
    if evs = [] then s.gtView
    else
      let r := (List.range 8).foldl (fun r d =>
        let q := r.1.gtAct evs d
        (q.1, r.2 ++ q.2)) (s, [])
      Dev.gtSpread r.1 n r.2

/-- The bound of a chain of trigger pulses. -/
def gtChain : Nat := 64

/-- A step of a timer and the pulses it raises. -/
def gtRun (r : Dev × List GtEvent) : Dev := r.1.gtView.gtSpread gtChain r.2

/-! ### Commands -/

/-- A timer clocked from the bus clock wraps. -/
def Dev.gtWrapCmd (s : Dev) (k : Nat) : Dev := if s.gtCounts k then gtRun (s.gtWrapped k) else s

/-- The count takes the VAL of channel `c`. -/
def Dev.gtMatchCmd (s : Dev) (k c : Nat) : Dev :=
  let t := s.timer k
  let v := (s.gtc k c).val
  if s.gtCounts k ∧ s.rd (GT_CFG_MODE k c) = 1 ∧ t.cnt < v ∧ v ≤ t.reload then
    gtRun ((s.setTimer k { t with cnt := v }).gtMatch k)
  else s

/-- A capture of the count on channel `c`: into VAL, or during a capture read into the holding stage (rule R392). -/
def Dev.gtTake (s : Dev) (k c : Nat) : Dev × List GtEvent :=
  let v := s.gtc k c
  let n := (s.timer k).cnt
  let s := s.putBit (GT_EVENTS_CC k) c true
  let s := if !v.reading then s.setGtc k c { v with val := n }
    else if v.hold.isSome then s.putBit (GT_EVENTS_OVERCAPTURE k) c true
    else (s.setGtc k c { v with hold := some n }).putBit (GT_STATUS_CAP_PENDING k) c true
  (s, [(k, 5 + c)])

/-- An edge of the filtered input of capture channel `c` (rule R391). -/
def Dev.gtEdge (s : Dev) (k c : Nat) (rising : Bool) (ticks : Nat) : Dev :=
  if s.up 1 ∧ s.rd (GT_CFG_MODE k c) = 2 then
    let s := s.gtAdvance k ticks
    let s := s.setGtc k c { s.gtc k c with level := rising }
    let e := s.rd (GT_CFG_EDGE k c)
    let v := s.gtc k c
    if e ≠ 2 ∧ rising = (e == 1) then s.gtView
    else if v.edges < s.rd (GT_CFG_EPSC k c) then (s.setGtc k c { v with edges := v.edges + 1 }).gtView
    else gtRun ((s.setGtc k c { v with edges := 0 }).gtTake k c)
  else s

/-- A write to GT_RELOAD_LO commits the staged high bits and these (rule R388). -/
def Dev.gtCommit (s : Dev) (k v ticks : Nat) : Dev :=
  let s := s.gtAdvance k ticks
  let t := s.timer k
  let n := t.reloadStage * 2 ^ 32 + v
  let s := (s.wr (GT_RELOAD_LO_RELOAD k) v).wr (GT_RELOAD_HI_RELOAD k) t.reloadStage
  if s.on (GT_CTRL_PRELOAD k) then (s.setTimer k { t with reloadSet := n }).set (GT_STATUS_RELOAD_PEND k)
  else
    (s.setTimer k { t with reload := n, reloadSet := n, passed := decide (n < t.cnt) }).clr (GT_STATUS_RELOAD_PEND k)

/-- A write to GT_PSC (rule R388). -/
def Dev.gtPscWrite (s : Dev) (k v : Nat) : Dev :=
  let s := s.wr (GT_PSC_PSC k) v
  if s.on (GT_CTRL_PRELOAD k) then s.set (GT_STATUS_PSC_PEND k)
  else
    ((s.setTimer k { s.timer k with psc := v % 16, pscCount := 0 }).wr (GT_PSC_PSC_ACTIVE k) v).clr (GT_STATUS_PSC_PEND k)

/-- A write to GT_CNT_LO: only while EN is 0 (rule R387). -/
def Dev.gtCount (s : Dev) (k v : Nat) : Dev :=
  if s.on (GT_CTRL_EN k) then s.set (GT_EVENTS_WRITE_IGNORED k)
  else
    let t := s.timer k
    (s.setTimer k { t with cnt := t.cntStage * 2 ^ 32 + v, passed := false }).gtView

/-- A write to GT_VAL_LO of channel `c`: ignored in capture mode; with CC_PRELOAD it waits for a wrap (rule R390). -/
def Dev.gtVal (s : Dev) (k c v : Nat) : Dev :=
  let h := s.gtc k c
  let n := h.stage * 2 ^ 32 + v
  if s.rd (GT_CFG_MODE k c) = 2 then s
  else if s.on (GT_CFG_CC_PRELOAD k c) then (s.setGtc k c { h with next := n }).putBit (GT_STATUS_CC_PEND k) c true
  else ((s.setGtc k c { h with val := n }).putBit (GT_STATUS_CC_PEND k) c false).gtView

/-- A read of GT_CNT_LO latches the high bits (rule R389). -/
def Dev.gtCntRead (s : Dev) (k ticks : Nat) : Dev × Status × Nat :=
  let s := s.gtAdvance k ticks
  let t := s.timer k
  ((s.setTimer k { t with cntLatch := t.cnt / 2 ^ 32 }).gtView, .ok, t.cnt % 2 ^ 32)

/-- A read of GT_VAL_LO of channel `c` latches the high bits, and in capture mode begins a capture read (rules R389 and
R392). -/
def Dev.gtValRead (s : Dev) (k c : Nat) : Dev × Status × Nat :=
  let v := s.gtc k c
  (s.setGtc k c { v with latch := v.val / 2 ^ 32, reading := v.reading || s.rd (GT_CFG_MODE k c) == 2 }, .ok, v.val % 2 ^ 32)

/-- A capture read of channel `c` is complete: the held value moves into VAL (rule R392). -/
def Dev.gtReadEnd (s : Dev) (k c : Nat) : Dev :=
  let v := s.gtc k c
  if !v.reading then s
  else
    (s.setGtc k c { v with reading := false, hold := none, val := v.hold.getD v.val }).putBit (GT_STATUS_CAP_PENDING k) c
      false

/-- A read of GT_VAL_HI of channel `c` returns the latch and completes a capture read. -/
def Dev.gtHiRead (s : Dev) (k c : Nat) : Dev × Status × Nat := (s.gtReadEnd k c, .ok, (s.gtc k c).latch)

/-- A PD1 that was off: counters, captures, events and holding stages restart at 0; what the saved registers hold is in use
again (rule R395). -/
def Dev.gtRestart (s : Dev) : Dev :=
  (s.each (List.range 8) fun s k =>
    let r := s.rd (GT_RELOAD_HI_RELOAD k) * 2 ^ 32 + s.rd (GT_RELOAD_LO_RELOAD k)
    let s := s.setTimer k { Timer.init with reload := r, reloadSet := r, reloadStage := r / 2 ^ 32,
                                            psc := s.rd (GT_PSC_PSC k) }
    let s := ((s.setReg (GT_STATUS k) 0).setReg (GT_EVENTS k) 0).wr (GT_PSC_PSC_ACTIVE k) (s.rd (GT_PSC_PSC k))
    s.each (List.range 4) fun s c =>
      let v := if s.rd (GT_CFG_MODE k c) = 2 then 0 else (s.gtc k c).val
      s.setGtc k c { Chan.init with val := v, stage := v / 2 ^ 32 }).gtView

/-! ### Meanings -/

/-- GT_WRAP, rule R387. -/
def execGtWrap (k : Fin 8) : State → Host.Outcome State Fault Refusal := onDev (·.gtWrapCmd k)
/-- GT_COMPARE_MATCH, rule R390. -/
def execGtCompareMatch (k : Fin 8) (c : Fin 4) : State → Host.Outcome State Fault Refusal := onDev (·.gtMatchCmd k c)
/-- GT_CAPTURE, rule R391. -/
def execGtCapture (k : Fin 8) (c : Fin 4) (rising : Bool) (ticks : BitVec 48) : State → Host.Outcome State Fault Refusal :=
  onDev (·.gtEdge k c rising ticks.toNat)
/-- GT_RELOAD_COMMIT, rule R388. -/
def execGtReloadCommit (ini : Ini) (k : Fin 8) (v : Word) (ticks : BitVec 48) : State → Host.Outcome State Fault Refusal :=
  onDev fun s => s.cmdAt ini (GT_RELOAD_LO k) (·.gtCommit k v.toNat ticks.toNat)
/-- GT_CNT_WRITE, rule R387. -/
def execGtCntWrite (ini : Ini) (k : Fin 8) (v : Word) : State → Host.Outcome State Fault Refusal :=
  onDev fun s => s.cmdAt ini (GT_CNT_LO k) (·.gtCount k v.toNat)
/-- GT_VAL_WRITE, rule R390. -/
def execGtValWrite (ini : Ini) (k : Fin 8) (c : Fin 4) (v : Word) : State → Host.Outcome State Fault Refusal :=
  onDev fun s => s.cmdAt ini (GT_VAL_LO k c) (·.gtVal k c v.toNat)
/-- GT_LO_READ, rule R389. -/
def execGtLoRead (ini : Ini) (k : Fin 8) (c : Option (Fin 4)) (ticks : BitVec 48) :
    State → Host.Outcome State Fault Refusal :=
  onDev fun s => match c with
    | none => s.guarded ini (GT_CNT_LO k) (·.gtCntRead k ticks.toNat)
    | some c => s.guarded ini (GT_VAL_LO k c) (·.gtValRead k c)
/-- GT_VAL_HI_READ, rule R392. -/
def execGtValHiRead (ini : Ini) (k : Fin 8) (c : Fin 4) : State → Host.Outcome State Fault Refusal :=
  onDev fun s => s.guarded ini (GT_VAL_HI k c) (·.gtHiRead k c)
/-- GT_CAPTURE_READ_TIMEOUT, rule R392. -/
def execGtCaptureReadTimeout (k : Fin 8) (c : Fin 4) : State → Host.Outcome State Fault Refusal := onDev (·.gtReadEnd k c)

end Sys2Proof.Machine
end

