-- ==== Sys2Proof/Machine/Timebase.lean ====
section
/-!
DEFINITION. The air timebase: its clocks, the time-reference port and the pulse-per-second pins (rules R184 to R195). What
the slow clock runs from is decided with the mantle.
-/

namespace Sys2Proof.Machine

/-- The timebase takes a record. -/
def Dev.onTb (s : Dev) (f : Timebase → Timebase) : Dev := { s with tb := f s.tb }

/-! ### Counting (rules R185, R186 and R191) -/

/-- A phase correction is used up or replaced by none. -/
def Dev.slewEnd (s : Dev) : Dev :=
  (((s.wr TREF_PHASE_ADJ_COUNTS 0).clr TREF_STATUS_SLEWING).set TREF_EVENTS_SLEW_DONE).onTb fun t => { t with slewAcc := 0 }

/-- Counts of reference time per count of phase correction: the slew rate of TREF_SLEW (Table 06-16). -/
def Dev.slewPeriod (s : Dev) : Nat := 1000000 / max 1 (min 200 (s.rd TREF_SLEW_PPM))

/-- One count of the reference uses up its part of the phase correction. -/
def Dev.slewCount (s : Dev) : Dev :=
  if !s.on TREF_STATUS_SLEWING then s
  else if s.tb.slewAcc + 1 < s.slewPeriod then s.onTb fun t => { t with slewAcc := t.slewAcc + 1 }
  else
    let r := signed 32 (s.rd TREF_PHASE_ADJ_COUNTS)
    let r := if 0 < r then r - 1 else if r < 0 then r + 1 else 0
    if r = 0 then s.slewEnd
    else (s.wr TREF_PHASE_ADJ_COUNTS (unsigned 32 r)).onTb fun t => { t with slewAcc := 0 }

/-- The rate adjustment in force, in units of 1/1024 ppb: TREF_RATE_ADJ and a slew in progress at TREF_SLEW.PPM (rules R185 and
R191). -/
def Dev.rateNow (s : Dev) : Int :=
  let r := signed 32 (s.rd TREF_PHASE_ADJ_COUNTS)
  let slew : Int := if s.on TREF_STATUS_SLEWING then 1024000 * (max 1 (min 200 (s.rd TREF_SLEW_PPM)) : Nat) * r.sign else 0
  signed 32 (s.rd TREF_RATE_ADJ_ADJ) + slew

/-- One reference cycle, a fifth of a count, in units of 1/1024 ppb of a count. -/
def fifthCount : Int := 204800000000

/-- A count of the reference ends: the timebase advances, and the next count period lasts 5 reference cycles, or 4 or 6 where a whole
cycle of the adjustment is due (rule R185; which periods carry it, assumption log 10). -/
def Dev.refCount (s : Dev) : Dev :=
  let a := s.tb.rateAcc + s.rateNow
  let r : Nat × Int := if fifthCount ≤ a then (4, a - fifthCount) else if a ≤ -fifthCount then (6, a + fifthCount) else (5, a)
  (s.onTb fun t => { t with count := (t.count + 1) % 2 ^ 48, cyc := 0, period := r.1, rateAcc := r.2 }).slewCount

/-- One edge of the clock that drives the timebase: a cycle of the 40 MHz reference, or a tick of the slow clock that adds
TREF_SLOW_INC to the accumulator. While the power-on reset is held the timebase stays at 0. -/
def Dev.tick (s : Dev) : Dev :=
  if s.boot.held then s
  else if s.tb.onSlow then
    let a := s.tb.count * 2 ^ 22 + s.tb.acc + s.rd TREF_SLOW_INC_INC
    s.onTb fun t => { t with count := a / 2 ^ 22 % 2 ^ 48, acc := a % 2 ^ 22 }
  else if s.tb.cyc + 1 < s.tb.period then s.onTb fun t => { t with cyc := t.cyc + 1 }
  else s.refCount

/-- The timebase is carried by the slow clock or driven by the reference from now on; the value continues. -/
def Dev.tbClock (s : Dev) (slow : Bool) : Dev := s.onTb fun t => { t with onSlow := slow, cyc := 0 }

/-- R187: the counts of 4,096 slow-clock ticks give TREF_SLOW_INC, in units of 2^-22 count per tick. -/
def Dev.slowMeasure (s : Dev) (counts : Nat) : Dev :=
  if s.boot.held ∨ s.tb.onSlow then s
  else
    let inc := s.rd TREF_SLOW_INC_INC
    let m := counts * 1024
    let v : Int := if s.tb.fresh then m else inc + ((m : Int) - inc).tdiv 4
    (s.wr TREF_SLOW_INC_INC (min 0xFFFFFFFF v.toNat)).onTb fun t => { t with fresh := false }

/-! ### The time-reference port (rules R189 to R192) -/

/-- TREF_RATE_ADJ clamped to 200 ppm. -/
def rateClamp (x : Int) : Int := max (-204800000) (min 204800000 x)

/-- Units of 1/1024 ppb in 10 ppm. -/
def tenPpm : Int := 10240000

/-- R189 and R190: a gate of TREF_CLK_IN ends with the counts it lasted. One count in 8,000,000 is 128,000 units. -/
def Dev.gateDone (s : Dev) (counts : Nat) : Dev :=
  if !s.up 1 ∨ s.rd TREF_CTRL_MODE ≠ 1 ∨ !s.on TREF_STATUS_CLK_PRESENT then s
  else
    let e : Int := ((counts : Int) - 8000000) * 128000
    let good := decide (-tenPpm ≤ e) && decide (e ≤ tenPpm)
    let s := s.set TREF_EVENTS_GATE
    if s.on TREF_STATUS_HOLDOVER ∧ !good then s
    else
      let s := (s.clr TREF_STATUS_HOLDOVER).put TREF_STATUS_LOCKED good
      let s := s.wr TREF_CLK_ERR_ERR (unsigned 32 (max (-0x80000000) (min 0x7FFFFFFF e)))
      s.wr TREF_RATE_ADJ_ADJ (unsigned 32 (rateClamp (signed 32 (s.rd TREF_RATE_ADJ_ADJ) - e.tdiv 4)))

/-- R190: TREF_CLK_IN has stopped. -/
def Dev.clkLost (s : Dev) : Dev :=
  if !s.up 1 then s
  else
    let s := s.clr TREF_STATUS_CLK_PRESENT
    if s.rd TREF_CTRL_MODE = 1 then (s.set TREF_EVENTS_CLK_LOST).set TREF_STATUS_HOLDOVER else s

/-- R190: the first edge of TREF_CLK_IN after a loss. -/
def Dev.clkBack (s : Dev) : Dev := if s.up 1 then s.set TREF_STATUS_CLK_PRESENT else s

/-- A write to TREF_CTRL: outside mode 1 nothing is locked and nothing held over. -/
def Dev.trefCtrl (s : Dev) (v : Nat) : Dev :=
  let s := s.setReg TREF_CTRL (BitVec.ofNat 32 (v % 4 + bits v 4 3 * 16))
  if s.rd TREF_CTRL_MODE = 1 then s else (s.clr TREF_STATUS_LOCKED).clr TREF_STATUS_HOLDOVER

/-- A write to TREF_RATE_ADJ: ignored in mode 1, else clamped. -/
def Dev.rateWrite (s : Dev) (v : Nat) : Dev :=
  if s.rd TREF_CTRL_MODE = 1 then s else s.wr TREF_RATE_ADJ_ADJ (unsigned 32 (rateClamp (signed 32 v)))

/-- R191: a phase correction to slew, in place of what remains of the last. -/
def Dev.phaseAdj (s : Dev) (v : Nat) : Dev :=
  ((s.wr TREF_PHASE_ADJ_COUNTS v).put TREF_STATUS_SLEWING (decide (v % 2 ^ 32 ≠ 0))).onTb fun t => { t with slewAcc := 0 }

/-- The phase correction has been used up. -/
def Dev.slewUsed (s : Dev) : Dev := if s.on TREF_STATUS_SLEWING ∧ !s.tb.onSlow then s.slewEnd else s

/-- The ledger's buckets move with a step of the timebase, so that their ages stay (rule R229). -/
def Dev.ledgerShift (s : Dev) (d : Int) : Dev :=
  { s with se := { s.se with
    led := { s.se.led with use := s.se.led.use.map fun a => (a.1, a.2.map fun b => (tsAdd b.1 d, b.2)) },
    issued := s.se.issued.map fun (x : Issued) => { x with charges := x.charges.map fun c => (c.1, tsAdd c.2.1 d, c.2.2) } } }

/-- R192: a step of the timebase, refused while the slot engine runs. -/
def Dev.trefStep (s : Dev) (v : Nat) : Dev × Status × Nat :=
  if s.on SE_CTRL_RUN then (s.set TREF_EVENTS_STEP_REFUSED, .busy, 0)
  else ((s.onTb fun t => { t with count := tsAdd t.count (signed 32 v) }).ledgerShift (signed 32 v), .ok, 0)

/-! ### Pulses per second (rules R193 and R194) -/

/-- An edge of TREF_PPS_IN. -/
def Dev.ppsIn (s : Dev) (rising : Bool) (frac : Nat) : Dev :=
  if s.up 1 ∧ s.on TREF_CTRL_PPS_IN_EN ∧ rising = !s.on TREF_CTRL_EDGE then
    (s.onTb fun t => { t with cap := t.count, capFrac := frac }).set TREF_EVENTS_PPS
  else s

/-- The pulse period as it acts. -/
def Dev.ppsPeriod (s : Dev) : Nat := let p := s.rd TREF_PPS_OUT_PERIOD_PERIOD; if p = 0 then 8000000 else p

/-- TREF_PPS_OUT rises at a count c for which (c - PHASE) mod PERIOD is 0; the pulse lasts WIDTH_US as it stands now, at most half the
period. -/
def Dev.ppsRise (s : Dev) : Dev :=
  let p := s.ppsPeriod
  if s.up 1 ∧ s.on TREF_CTRL_PPS_OUT_EN ∧ ((s.now : Int) - (s.rd TREF_PPS_OUT_PHASE_PHASE : Nat)) % (p : Int) = 0 then
    s.onTb fun t => { t with ppsOut := true, ppsEnd := tsAdd s.now (min (us (s.rd TREF_PPS_OUT_WIDTH_WIDTH_US)) (p / 2) : Nat) }
  else s

/-- TREF_PPS_OUT falls once its pulse has lasted its width. -/
def Dev.ppsFall (s : Dev) : Dev := if tsLe s.tb.ppsEnd s.now then s.onTb fun t => { t with ppsOut := false } else s

/-! ### Latching reads (rule R188) -/

/-- The address of a latching LO register. -/
def LoReg.addr : LoReg → Nat
  | .time => TREF_TIME_LO
  | .ppsCap => TREF_PPS_CAP_LO
  | .asn => SE_ASN_LO

/-- A read of a latching LO register: the low bits, the high ones latched into the HI register. -/
def Dev.loRead (s : Dev) (r : LoReg) : Dev × Status × Nat :=
  match r with
  | .time => (s.wr TREF_TIME_HI_TIME (s.now / 2 ^ 32), .ok, s.now % 2 ^ 32)
  | .ppsCap =>
    ((s.wr TREF_PPS_CAP_HI_TIME (s.tb.cap / 2 ^ 32)).wr TREF_PPS_CAP_HI_FRAC s.tb.capFrac, .ok, s.tb.cap % 2 ^ 32)
  | .asn => (s.wr SE_ASN_HI_ASN (s.se.asn / 2 ^ 32), .ok, s.se.asn % 2 ^ 32)

/-! ### Meanings -/

/-- LATCHING_LO_READ, rule R188. -/
def execLatchingLoRead (ini : Ini) (r : LoReg) : State → Host.Outcome State Fault Refusal :=
  onDev fun s => s.guarded ini r.addr (·.loRead r)
/-- SLOW_INC_MEASURE, rule R187. -/
def execSlowIncMeasure (counts : BitVec 23) : State → Host.Outcome State Fault Refusal := onDev (·.slowMeasure counts.toNat)
/-- TREF_GATE, rule R189. -/
def execTrefGate (counts : BitVec 24) : State → Host.Outcome State Fault Refusal := onDev (·.gateDone counts.toNat)
/-- TREF_CLK_LOST, rule R190. -/
def execTrefClkLost : State → Host.Outcome State Fault Refusal := onDev (·.clkLost)
/-- TREF_CLK_RESTORED, rule R190. -/
def execTrefClkRestored : State → Host.Outcome State Fault Refusal := onDev (·.clkBack)
/-- TREF_PHASE_ADJ_WRITE, rule R191. -/
def execTrefPhaseAdjWrite (ini : Ini) (v : Word) : State → Host.Outcome State Fault Refusal :=
  onDev fun s => s.cmdAt ini TREF_PHASE_ADJ (·.phaseAdj v.toNat)
/-- SLEW_DONE, rule R191. -/
def execSlewDone : State → Host.Outcome State Fault Refusal := onDev (·.slewUsed)
/-- TREF_STEP, rule R192. -/
def execTrefStep (ini : Ini) (v : Word) : State → Host.Outcome State Fault Refusal :=
  onDev fun s => s.guarded ini TREF_STEP (·.trefStep v.toNat)
/-- PPS_IN_EDGE, rule R193. -/
def execPpsInEdge (rising : Bool) (frac : Fin 25) : State → Host.Outcome State Fault Refusal := onDev (·.ppsIn rising frac)
/-- PPS_OUT_PULSE, rule R194. -/
def execPpsOutPulse : State → Host.Outcome State Fault Refusal := onDev (·.ppsRise)
/-- PPS_OUT_WIDTH_END, rule R194. -/
def execPpsOutWidthEnd : State → Host.Outcome State Fault Refusal := onDev (·.ppsFall)

end Sys2Proof.Machine
end

