-- ==== Sys2Proof/Machine/Radio.lean ====
section
/-!
DEFINITION. Bands, chains, the gain governor, narrow hops and calibration (chapter 03).
-/

namespace Sys2Proof.Machine

/-! ### Band states (Table 03-3) -/

/-- The VCO band of an LO frequency in kHz (Table 03-2); the ISM synthesiser has band 0 alone. -/
def vcoBand (b khz : Nat) : Nat :=
  if b = 1 then 0
  else if khz < 480000 then 0 else if khz < 560000 then 1 else if khz < 640000 then 2 else if khz < 720000 then 3
  else if khz < 800000 then 4 else if khz < 870000 then 5 else if khz < 940000 then 6 else 7

/-- The state a band listens in: DISABLED out of service or in limp state, IDLE while its chains are gated, else LISTEN. -/
def Dev.bandRest (s : Dev) (b : Nat) : Nat :=
  let v := s.band b
  if v.outOfService ∨ v.limpOff then 10 else if v.gated ∧ s.on (RF_CHAINS_SLOT_GATE b) then 8 else 4

/-- A window retune or narrow hop starts: frames end with BAND_BLANKED, lock is gone, the sleeves are held (rule R73). -/
def Dev.retune (s : Dev) (b khz : Nat) : Dev :=
  let s := (s.endBand b .bandBlanked).setBand b { s.band b with target := khz, relock := false }
  let s := ((s.bandState b 3).clr (RF_STATE_LOCKED b)).wr (RF_STATE_VCO_BAND b) (vcoBand b khz)
  let s := if s.narrow b then s.each (s.ofBand b) fun s n => s.wr (SLV_CHAN_CHANNEL_KHZ n) khz else s
  s.restBand b

/-- The first channel a band retunes to: its narrow channel, or its window centre (rule R71). -/
def Dev.firstLo (s : Dev) (b : Nat) : Nat :=
  if s.narrow b then s.rd (RF_NARROW_CHANNEL_KHZ b) else s.rd (RF_WINDOW_CENTRE_KHZ b)

/-- Retirements that waited for the end of the band's state take effect (rule R93). -/
def Dev.retireDue (s : Dev) (b : Nat) : Dev :=
  let l := (s.band b).retire
  let s := s.setBand b { s.band b with retire := [] }
  s.each l fun s c => s.aerialDown b c

/-- The band reaches the state it listens in. -/
def Dev.bandListen (s : Dev) (b : Nat) : Dev :=
  let s := s.retireDue b
  ((s.bandState b (s.bandRest b)).restBand b).svcEval

/-- RECAL_DELTA as it acts: 5 to 60 degrees (Table 03-18). -/
def Dev.recalDelta (s : Dev) (b : Nat) : Nat := min 60 (max 5 (s.rd (RF_CAL_TEMP_RECAL_DELTA b)))

/-- Is the band's saved calibration valid: taken within RECAL_DELTA of the present die temperature (rule R101)? -/
def Dev.calValid (s : Dev) (b : Nat) : Bool :=
  (s.band b).savedOk &&
    decide ((signed 8 (s.rd (RF_CAL_TEMP_DIE_C b)) - signed 8 (s.band b).savedTemp).natAbs < s.recalDelta b)

/-- Does the band run a start-up calibration: START_CAL, not for item 7? -/
def Dev.startUp (s : Dev) (b : Nat) : Bool := s.rd (RF_STATE_STATE b) == 2 && s.rd (RF_STATE_CAL_ITEM b) != 7

/-- The first item of a start-up calibration runs, unless the other band's start-up calibration holds the tone generator (rule
R100). -/
def Dev.startCal (s : Dev) (b : Nat) : Dev :=
  if s.startUp b && s.rd (RF_STATE_CAL_ITEM b) == 0 && !(s.startUp (1 - b) && s.on (RF_STATE_CAL_ITEM (1 - b))) then
    s.wr (RF_STATE_CAL_ITEM b) 3
  else s

/-- The item that follows in the order of rule R100. -/
def nextCal (item : Nat) : Option Nat :=
  match item with
  | 3 => some 1
  | 1 => some 2
  | 2 => some 4
  | 4 => some 5
  | 5 => some 6
  | _ => none

/-- The band domain is powered: restore with valid saved calibration, else start-up calibration, sub-GHz before ISM (rules R100,
R101 and R107). -/
def Dev.bandOn (s : Dev) (b : Nat) (wake : Bool) : Dev :=
  if s.on MNT_STATE_LIMP then ((s.setBand b { s.band b with limpOff := true }).bandState b 10).restBand b
  else
    let s := s.setBand b { s.band b with limpOff := false }
    (if wake ∧ s.calValid b then s.bandState b 1
     else ((s.setBand b { s.band b with savedOk := false }).bandState b 2).startCal b).restBand b

/-! ### The gain governor (rules R78 to R82) -/

/-- Is chain `c` held by its manual setting (rule R82)? -/
def Dev.manual (s : Dev) (b c : Nat) : Bool := if c = 0 then s.on (RF_GAIN_A_MANUAL b) else s.on (RF_GAIN_B_MANUAL b)

/-- Does the governor hold its step: blank, retune, calibration of the chain, or band not receiving (rule R81)? After a
transmission it resumes when the blank is released (assumption log 57). -/
def Dev.govHeld (s : Dev) (b c : Nat) : Bool :=
  s.on (RF_STATE_BLANK b) || !(s.rd (RF_STATE_STATE b) == 4 || s.rd (RF_STATE_STATE b) == 8) ||
    s.rd (RF_STATE_CAL_ITEM b) == c + 1

/-- The step-up level actually used, in dBFS below full scale (rule R78). -/
def Dev.lowLevel (s : Dev) (b : Nat) : Nat := max (s.rd (RF_GOV_LOW_DBFS b)) (s.rd (RF_GOV_HIGH_DBFS b) + 12)

/-- The step-up hold in us: a multiple of 2, at least 2 (Table 03-13). -/
def Dev.upHold (s : Dev) (b : Nat) : Nat := max 2 ((s.rd (RF_GOV_UP_HOLD_US b) + 1) / 2 * 2)

/-- The low time of a chain is recorded. -/
def Dev.setUp (s : Dev) (b c v : Nat) : Dev :=
  s.setBand b (if c = 0 then { s.band b with upA := v } else { s.band b with upB := v })

/-- R78: at the end of a 2 us block the governor of chain `c` steps down on a peak above -HIGH_DBFS, or up after
UP_HOLD_US of blocks below -LOW_DBFS, unless a sleeve is inside a frame on the chain. `peak` is in 0.01 dBFS. The low time starts
again after every step and clip and is kept over a hold (assumption log 57). -/
def Dev.gainBlock (s : Dev) (b c : Nat) (peak : Int) : Dev :=
  if s.manual b c ∨ s.govHeld b c then s
  else
    let low := decide (peak < -((100 * s.lowLevel b : Nat) : Int))
    let up := if low then (if c = 0 then (s.band b).upA else (s.band b).upB) + 2 else 0
    let busy := (List.range 32).any (s.inFrameOn b c)
    let step := s.rd (stepFld b c)
    if busy then s.setUp b c up
    else if decide (peak > -((100 * s.rd (RF_GOV_HIGH_DBFS b) : Nat) : Int)) then
      (s.setUp b c 0).wr (stepFld b c) (step - 1)
    else if s.upHold b ≤ up ∧ step < 11 then (s.setUp b c 0).wr (stepFld b c) (step + 1)
    else s.setUp b c up

/-- R80: a clip steps the chain down at once; frames on the chain are flagged, and the clip is counted. -/
def Dev.gainClip (s : Dev) (b c : Nat) : Dev :=
  let s := (s.bump (RF_CLIP_COUNT_COUNT b)).set (RF_EVENTS_CLIP b)
  if s.manual b c ∨ s.govHeld b c ∨ s.rd (stepFld b c) = 0 then s
  else
    let hit := (List.range 32).filter (s.inFrameOn b c)
    let s := (s.setUp b c 0).wr (stepFld b c) (s.rd (stepFld b c) - 1)
    let s := if hit = [] then s else s.set (RF_EVENTS_GAIN_STEP_IN_FRAME b)
    s.each hit fun s n =>
      match (s.sleeve n).frame with
      | some f => s.setSleeve n { s.sleeve n with frame := some { f with gainStep := true } }
      | none => s

/-! ### Hops and lock (rules R73, R74 and R109) -/

/-- R74: a write to RFx_NARROW starts a narrow hop, waits for the band to leave its state, or is ignored in wideband mode. A
band that restores, or will, retunes to its saved channel first and hops then (rule R107 and assumption log 57). -/
def Dev.narrowHop (s : Dev) (b khz : Nat) : Dev :=
  if !s.narrow b then s
  else
    let st := s.rd (RF_STATE_STATE b)
    let s := s.wr (RF_NARROW_CHANNEL_KHZ b) khz
    if st = 4 ∨ st = 8 then s.retune b khz
    else if st = 3 ∨ st = 5 ∨ st = 6 ∨ st = 7 ∨ st = 9 ∨ st = 1 ∨ st = 0 ∧ s.calValid b then s.setBand b { s.band b with hop := some khz }
    else s

/-- R74: the deferred hop starts once the band has left the state that deferred it. -/
def Dev.hopDue (s : Dev) (b : Nat) : Dev :=
  match (s.band b).hop with
  | none => s
  | some khz =>
    if s.rd (RF_STATE_STATE b) = 4 ∨ s.rd (RF_STATE_STATE b) = 8 then
      (s.setBand b { s.band b with hop := none }).retune b khz
    else s

/-- R73: the synthesiser locks, RETUNE_DONE is set and the band leaves RETUNE. -/
def Dev.retuneLock (s : Dev) (b : Nat) : Dev :=
  if s.rd (RF_STATE_STATE b) ≠ 3 then s
  else
    let s := (s.set (RF_STATE_LOCKED b)).set (RF_EVENTS_RETUNE_DONE b)
    let s := s.setBand b { s.band b with savedLo := (s.band b).target, savedVco := s.rd (RF_STATE_VCO_BAND b) }
    s.bandListen b

/-! ### Calibration (rules R100 to R106) -/

/-- A calibration status is reported for an item. -/
def Dev.calReport (s : Dev) (b item : Nat) (st : Status) : Dev :=
  (s.st (RF_CAL_STATUS_LAST_STATUS b) st).wr (RF_CAL_STATUS_LAST_ITEM b) item

/-- An item is queued. -/
def Dev.calQueue (s : Dev) (b item deadline : Nat) : Dev :=
  (s.putBit ⟨RF_CAL_STATUS b, 0, 8⟩ item true).setBand b
    { s.band b with cal := (s.band b).cal ++ [(item, deadline, false)] }

/-- Is an item pending on the band? -/
def Dev.calPending (s : Dev) (b item : Nat) : Bool := (s.band b).cal.any fun c => c.1 == item

/-- R102: a write of RFx_CAL_REQ queues an item, or refuses it: NOT_READY in OFF or DISABLED, BUSY while pending. -/
def Dev.calRequest (s : Dev) (b deadline item : Nat) : Dev :=
  let s := s.wr (RF_CAL_REQ_DEADLINE_MS b) deadline
  if item = 0 ∨ 8 ≤ item then s
  else if s.rd (RF_STATE_STATE b) = 0 ∨ s.rd (RF_STATE_STATE b) = 10 ∨ s.on MNT_STATE_LIMP then s.calReport b item .notReady
  else if s.calPending b item then s.calReport b item .busy
  else s.calQueue b item deadline

/-- A pending item starts: a chain item marks its chain, a band item applies the band blank for its duration (rules R103 to
R105). -/
def Dev.calBegin (s : Dev) (b item : Nat) : Dev :=
  match (s.band b).cal.find? fun c => c.1 == item with
  | none => s
  | some c =>
    let s := (s.putBit ⟨RF_CAL_STATUS b, 0, 8⟩ item false).setBand b
      { s.band b with cal := (s.band b).cal.filter (fun x => x.1 != item), deferred := c.2.2 }
    let s := s.wr (RF_STATE_CAL_ITEM b) item
    if item ≤ 2 then s.ringsNote b
    else
      let s := ((s.endBand b .bandBlanked).set (RF_STATE_BLANK b)).wr (TXP_STATUS_STATE b) 6
      let s := if item = 3 ∨ item = 7 then s.clr (RF_STATE_LOCKED b) else s
      (s.bandState b (if item = 7 then 2 else 9)).restBand b

/-- A calibration of the band has ended at the present die temperature (rule R101). -/
def Dev.calTaken (s : Dev) (b : Nat) : Dev :=
  let t := s.rd (RF_CAL_TEMP_DIE_C b)
  (s.wr (RF_CAL_TEMP_LAST_CAL_C b) t).setBand b { s.band b with savedTemp := t }

/-- Start-up calibration ends: the band retunes to its first channel, or is DISABLED in limp state; the other band's, where it
waited, begins (rule R100). -/
def Dev.startCalEnd (s : Dev) (b : Nat) : Dev :=
  let s := (s.calTaken b).wr (RF_STATE_CAL_ITEM b) 0
  let s := (s.setBand b { s.band b with savedOk := true }).set (RF_EVENTS_CAL_DONE b)
  let s := (s.retireDue b).clr (RF_STATE_BLANK b)
  let s := s.wr (TXP_STATUS_STATE b) 1
  (if s.on MNT_STATE_LIMP ∨ (s.band b).outOfService then s.bandListen b else s.retune b (s.firstLo b)).startCal (1 - b)

/-- R105: the running item completes with OK; LAST_DEFERRED tells whether CAL_DEFERRED was reported first. An item of a start-up
calibration reports nothing, and the next one of its order begins (rule R100). -/
def Dev.calDone (s : Dev) (b : Nat) : Dev :=
  let item := s.rd (RF_STATE_CAL_ITEM b)
  if item = 0 then s
  else if s.startUp b then
    match nextCal item with
    | some i => (s.set (RF_EVENTS_CAL_DONE b)).wr (RF_STATE_CAL_ITEM b) i
    | none => s.startCalEnd b
  else
    let s := ((s.calReport b item .ok).put (RF_CAL_STATUS_LAST_DEFERRED b) (s.band b).deferred).set (RF_EVENTS_CAL_DONE b)
    let s := (s.calTaken b).wr (RF_STATE_CAL_ITEM b) 0
    if item = 7 then s.startCalEnd b
    else if item ≤ 2 then s.ringsNote b
    else
      let s := ((s.clr (RF_STATE_BLANK b)).set (RF_STATE_LOCKED b)).wr (TXP_STATUS_STATE b) 1
      let s := s.bandListen b
      if (s.band b).relock then s.retune b (s.band b).target else s

/-- R105: a pending item's deadline passes: CAL_DEFERRED is reported and the item stays pending without a deadline. -/
def Dev.calLate (s : Dev) (b item : Nat) : Dev :=
  if (s.band b).cal.any fun c => c.1 == item && c.2.1 != 0 then
    let s := s.setBand b { s.band b with cal := (s.band b).cal.map fun c => if c.1 = item then (item, 0, true) else c }
    (s.calReport b item .calDeferred).set (RF_EVENTS_CAL_DEFERRED b)
  else s

/-- R101: the die temperature is measured; a move of RECAL_DELTA or more from the last calibration sets RECAL_DUE and
queues items 1 to 6 with no deadline. -/
def Dev.recal (s : Dev) (b die : Nat) : Dev :=
  let s := s.wr (RF_CAL_TEMP_DIE_C b) die
  let d := signed 8 die - signed 8 (s.rd (RF_CAL_TEMP_LAST_CAL_C b))
  if d.natAbs < s.recalDelta b ∨ s.rd (RF_STATE_STATE b) = 0 ∨ s.rd (RF_STATE_STATE b) = 10 then s
  else
    let s := s.set (RF_EVENTS_RECAL_DUE b)
    s.each [1, 2, 3, 4, 5, 6] fun s i => if s.calPending b i then s else s.calQueue b i 0

/-- R93: with SLOT_GATE set the slot engine gates the band's chains into IDLE, or ungates them. Frames in progress end with
SAMPLES_LOST (assumption log 57). -/
def Dev.gate (s : Dev) (b : Nat) (g : Bool) : Dev :=
  if !s.on (RF_CHAINS_SLOT_GATE b) then s
  else
    let s := s.setBand b { s.band b with gated := g }
    let st := s.rd (RF_STATE_STATE b)
    if g ∧ st = 4 then ((s.endBand b .samplesLost).bandState b 8).restBand b
    else if !g ∧ st = 8 then (s.bandState b 4).restBand b
    else s

/-! ### Meanings -/

/-- GAIN_BLOCK, rule R78. -/
def execGainBlock (b c : Fin 2) (peak : Int) : State → Host.Outcome State Fault Refusal := onDev (·.gainBlock b c peak)
/-- GAIN_CLIP, rule R80. -/
def execGainClip (b c : Fin 2) : State → Host.Outcome State Fault Refusal := onDev (·.gainClip b c)
/-- DEFERRED_HOP_START, rule R74. -/
def execDeferredHopStart (b : Fin 2) : State → Host.Outcome State Fault Refusal := onDev (·.hopDue b)
/-- RETUNE_LOCK, rule R73. -/
def execRetuneLock (b : Fin 2) : State → Host.Outcome State Fault Refusal := onDev (·.retuneLock b)
/-- CAL_REQUEST, rule R102. -/
def execCalRequest (ini : Ini) (b : Fin 2) (deadline : BitVec 16) (item : Fin 16) : State → Host.Outcome State Fault Refusal :=
  onDev (·.cmdAt ini (RF_CAL_REQ b) (·.calRequest b deadline.toNat item))
/-- CAL_ITEM_DONE, rule R105. -/
def execCalItemDone (b : Fin 2) : State → Host.Outcome State Fault Refusal := onDev (·.calDone b)
/-- CAL_DEADLINE, rule R105. -/
def execCalDeadline (b : Fin 2) (item : Fin 8) : State → Host.Outcome State Fault Refusal := onDev (·.calLate b item)
/-- RECAL_DUE, rule R101. -/
def execRecalDue (b : Fin 2) (die : BitVec 8) : State → Host.Outcome State Fault Refusal := onDev (·.recal b die.toNat)
/-- START_CAL_DONE, rule R100: item 7 reports like any other; of a start-up calibration CAL_DONE tells that items completed
(Table 03-16), and RFx_CAL_STATUS reports nothing. The items still to run are over with it; a band that waits for the other is not
calibrated yet. -/
def execStartCalDone (b : Fin 2) : State → Host.Outcome State Fault Refusal :=
  onDev fun s =>
    if s.rd (RF_STATE_STATE b) ≠ 2 ∨ !s.on (RF_STATE_CAL_ITEM b) then s
    else if s.rd (RF_STATE_CAL_ITEM b) = 7 then s.calDone b else s.startCalEnd b
/-- BAND_RESTORE_DONE, rule R107: the band retunes to its saved LO frequency, or is DISABLED in limp state. -/
def execBandRestoreDone (b : Fin 2) : State → Host.Outcome State Fault Refusal :=
  onDev fun s =>
    if s.rd (RF_STATE_STATE b) ≠ 1 then s
    else if s.on MNT_STATE_LIMP ∨ (s.band b).outOfService then s.bandListen b
    else s.retune b (s.band b).savedLo
/-- SLOT_GATE_CHANGE, rule R93. -/
def execSlotGateChange (b : Fin 2) (gate : Bool) : State → Host.Outcome State Fault Refusal := onDev (·.gate b gate)

end Sys2Proof.Machine
end

