-- ==== Sys2Proof/Machine/Transmit.lean ====
section
/-!
DEFINITION. Transmit paths: the start command and its checks, the decision point and clear-channel assessment, the frame on
air, cuts, the completion report and the turn to receive (chapters 03 and 05).
-/

namespace Sys2Proof.Machine

/-! ### The transmit descriptor (Table 05-8) -/

/-- MODE: 0 SUN FSK, 1 O-QPSK, 2 SUN OFDM. -/
def dMode (d : List Byte) : Nat := fieldAt d 0 1 % 4
/-- PHY_A. -/
def dPhyA (d : List Byte) : Nat := fieldAt d 1 1
/-- PHY_B. -/
def dPhyB (d : List Byte) : Nat := fieldAt d 2 1
/-- FLAGS. -/
def dFlags (d : List Byte) : Nat := fieldAt d 3 1
/-- PREAMBLE. -/
def dPreamble (d : List Byte) : Nat := fieldAt d 4 2
/-- PSDU_LEN. -/
def dPsdu (d : List Byte) : Nat := fieldAt d 6 2
/-- BUF_ADDR. -/
def dBuf (d : List Byte) : Nat := fieldAt d 8 4
/-- CHANNEL_KHZ. -/
def dChannel (d : List Byte) : Nat := fieldAt d 0x0C 4
/-- POWER. -/
def dPower (d : List Byte) : Nat := fieldAt d 0x10 1
/-- AERIAL. -/
def dAerial (d : List Byte) : Nat := fieldAt d 0x11 1
/-- PARTNER. -/
def dPartner (d : List Byte) : Nat := fieldAt d 0x12 2
/-- CCA_MODE. -/
def dCcaMode (d : List Byte) : Nat := fieldAt d 0x14 1
/-- CCA_DBM. -/
def dCcaDbm (d : List Byte) : Nat := fieldAt d 0x15 1
/-- CCA_US. -/
def dCcaUs (d : List Byte) : Nat := fieldAt d 0x16 2
/-- TAG. -/
def dTag (d : List Byte) : Nat := fieldAt d 0x18 2
/-- LE. -/
def dLe (d : List Byte) : Nat := fieldAt d 0x1A 1

/-- FCS octets of the frame: O-QPSK 2, OFDM 4, FSK as FCS2 says (rule R158). -/
def dFcsLen (d : List Byte) : Nat :=
  match dMode d with
  | 0 => if bitOf (dFlags d) 0 then 2 else 4
  | 1 => 2
  | _ => 4

/-- Does a descriptor fail a check of Table 05-9? -/
def badDescriptor (p : Nat) (d : List Byte) : Bool :=
  let mode := dMode d
  let a := dPhyA d
  let b := dPhyB d
  let fcs2 := bitOf (dFlags d) 0
  let reserved := mode == 3 || decide (4 ≤ fieldAt d 0 1) || decide (3 ≤ dAerial d) || decide (5 ≤ dCcaMode d) ||
    decide (2 ≤ dFlags d) || decide (2 ^ 24 ≤ dChannel d) || decide (8 ≤ dLe d) || fieldAt d 0x1B 5 != 0 ||
    (mode == 2 && (bitOf a 3 || bitOf a 7 || dPreamble d != 0))
  let oq := mode == 1 && (p == 0 || decide (dChannel d < 2405000) || decide (2480000 < dChannel d) ||
    (dChannel d - 2405000) % 5000 != 0 || a != 0 || b != 0 || dPreamble d != 0 || fcs2)
  let fsk := mode == 0 && (decide (5 ≤ a % 8) || decide (b < 5) || decide (50 < b) || decide (dPreamble d < 4) ||
    decide (1000 < dPreamble d))
  let ofdm := mode == 2 && (!mcsValid (a % 8) (bits a 4 3) || fcs2)
  let len := decide (dPsdu d < dFcsLen d + 2)
  let buf := dBuf d % 8 != 0 || decide (dBuf d < 0x20000000) ||
    decide (0x20200000 < dBuf d + (dPsdu d - dFcsLen d))
  let cca := (decide (1 ≤ dCcaUs d) && decide (dCcaUs d ≤ 7)) || decide (992 < dCcaUs d)
  reserved || oq || fsk || ofdm || len || buf || cca

/-- Does a PSDU length exceed the limit of its mode (rule R170, case 6)? -/
def psduTooLong (d : List Byte) : Bool := decide ((if dMode d = 1 then 127 else 2047) < dPsdu d)

/-- Half of a band window, in kHz (Table 03-1). -/
def halfWindow (b : Nat) : Nat := if b = 0 then 13500 else 42000

/-- Does a channel centre lie inside the band window (rule R44)? -/
def Dev.inWindow (s : Dev) (b khz : Nat) : Bool :=
  let c := s.rd (RF_WINDOW_CENTRE_KHZ b)
  decide (c ≤ khz + halfWindow b) && decide (khz ≤ c + halfWindow b)

/-- May the path accept a start on the channel: inside the window, or the channel that RFx_NARROW reads, a hop under way or
deferred included (rules R74, R83 and R106; assumption log 36)? -/
def Dev.onWindow (s : Dev) (b khz : Nat) : Bool :=
  if s.narrow b then khz == s.rd (RF_NARROW_CHANNEL_KHZ b) else s.inWindow b khz

/-- The bits of the sync word a path sends. -/
def Dev.txSyncLen (s : Dev) (p : Nat) : Nat := syncLen (s.rd (TXP_SYNC_LEN_LEN p))

/-- The airtime of a descriptor on path `p` in counts. -/
def Dev.airtime (s : Dev) (p : Nat) (d : List Byte) : Nat :=
  airCounts (dMode d) (dPhyA d) (dPreamble d) (s.txSyncLen p) (dPsdu d)

/-! ### Completion reports (Table 05-13) -/

/-- What a completion report says beside its command. -/
structure TxEnd where
  status : Status
  cut : Bool
  len : Nat
  tsEnd : Nat
  sent : Bool            -- a symbol left
  rl : Nat
  ccaBusy : Bool
deriving DecidableEq, Repr

/-- A command that sent nothing. -/
def TxEnd.none (st : Status) : TxEnd :=
  { status := st, cut := false, len := 0, tsEnd := 0, sent := false, rl := 0xFF, ccaBusy := false }

/-- A signed dBm value of one byte, held inside the range the byte shows; 0x80 means not measured. -/
def dbm (x : Int) : Nat := unsigned 8 (max (-127) (min 127 x))

/-- The 32 bytes of a completion report. -/
def txReport (p : Nat) (c : TxCmd) (e : TxEnd) : List Byte :=
  let f (b : Bool) (v : Nat) : Nat := if b then v else 0
  leBytes 1 e.status.code ++
  leBytes 1 (c.aerial + f c.capped 2 + f e.cut 4 + f c.ccaDone 8 + f e.ccaBusy 16 + f c.ccaIncomplete 32 + f c.held 64) ++
  leBytes 1 p ++ [0] ++ leBytes 2 (dTag c.bytes) ++ leBytes 2 (if e.sent then e.len else 0) ++ leBytes 8 c.ts ++
  leBytes 8 (if e.sent then e.tsEnd else 0) ++ leBytes 1 (if e.sent then c.power else 0) ++ leBytes 1 e.rl ++
  leBytes 1 (if c.ccaDone then dbm c.ccaEnergy else 0x80) ++ [0] ++ leBytes 4 c.desc

/-- The command leaves the path and its report is written; of two equal commands one. -/
def Dev.txComplete (s : Dev) (p : Nat) (c : TxCmd) (e : TxEnd) : Dev :=
  let s := s.setPath p { s.path p with cmds := (s.path p).cmds.erase c }
  s.cqWrite p c.le (txReport p c e)

/-- The event and count of a refused start (Table 03-23). -/
def Dev.txRefusal (s : Dev) (p : Nat) (st : Status) : Dev :=
  match st with
  | .late => (s.set (TXP_EVENTS_LATE p)).bump (TXP_LATE_COUNT_COUNT p)
  | .outsideWindow => s.set (TXP_EVENTS_OUTSIDE_WINDOW p)
  | .channelBusy => s.bump (TXP_CNT_CCA_BUSY_COUNT p)
  | _ => s

/-- The command is replaced by another record of it. -/
def Dev.txUpdate (s : Dev) (p : Nat) (c d : TxCmd) : Dev :=
  s.setPath p { s.path p with cmds := (s.path p).cmds.replace c d }

/-! ### The start command (rules R169 to R172) -/

/-- The ledger's demand in a start command (rule R228). -/
structure Lbt where
  minCca : Nat
  maxThr : Option Int
  on : Bool
deriving DecidableEq, Repr

/-- Is the band of path `p` unable to transmit: disabled, off, or both aerials retired (rules R92, R94 and R110)? -/
def Dev.txDown (s : Dev) (p : Nat) : Bool :=
  s.rd (RF_STATE_STATE p) == 10 || s.rd (RF_STATE_STATE p) == 0 || (s.band p).outOfService

/-- Case 1 of rule R170. -/
def Dev.txNotReady (s : Dev) (p : Nat) : Bool :=
  !s.on (TXP_CONFIG_ENABLE p) || s.on MNT_SUPPLY_STAT_WARN || s.txDown p

/-- The first failing condition of rule R170, cases 1 to 7; `full` tells that no entry can be reserved or that two commands
are held. -/
def Dev.txAcceptCheck (s : Dev) (p ts : Nat) (full : Bool) (st : Status) (d : List Byte) : Status :=
  if s.txNotReady p then .notReady
  else if full then .busy
  else if !tsLe s.now (tsAdd ts (-320)) then .late
  else if st ≠ .ok then st
  else if badDescriptor p d then .badDescriptor
  else if psduTooLong d then .tooLong
  else if !s.onWindow p (dChannel d) then .outsideWindow
  else .ok

/-- R170: the path takes a start command for the descriptor at `a`, or refuses it with a status. `le` is the engine that
owns the link; the descriptor's own LE is used where it can be read (assumption log 7). -/
def Dev.txStart (s : Dev) (p le a ts : Nat) (lbt : Lbt) : Dev × Status :=
  let r := s.rdMem (0x0E + p) a 32
  let s := r.1
  let d := r.2.2
  let k := s.lePhys (if r.2.1 = .ok then dLe d % 8 else le)
  let free := s.cqFree p k
  let full := !free || decide (2 ≤ (s.path p).cmds.length)
  let held := s.rd (RF_STATE_STATE p) == 3 || s.rd (RF_STATE_STATE p) == 2 || s.rd (RF_STATE_CAL_ITEM p) != 0
  let c : TxCmd :=
    { le := k, desc := a, bytes := d, ts := ts, minCca := lbt.minCca, maxThr := lbt.maxThr, lbt := lbt.on, readSt := .ok, buf := [],
      held := held, phase := .armed, power := 0, capped := false, folded := false, aerial := 0, ccaDone := false,
      ccaEnergy := 0, ccaIncomplete := false }
  let st := s.txAcceptCheck p ts full r.2.1 d
  if st ≠ .ok then
    let s := (s.txRefusal p st).bump (TXP_CNT_REFUSED_COUNT p)
    (if free then (s.cqReserve p k).cqWrite p k (txReport p { c with held := false } (.none st)) else s, st)
  else
    let q := s.rdMem (0x0E + p) (dBuf d) (min 256 (dPsdu d - dFcsLen d))
    let s := q.1.cqReserve p k
    let s := s.setPath p { s.path p with cmds := (s.path p).cmds ++ [{ c with readSt := q.2.1, buf := q.2.2 }] }
    let s := if held then s.set (TXP_EVENTS_HELD p) else s
    (if s.rd (TXP_STATUS_STATE p) ≤ 1 then s.wr (TXP_STATUS_STATE p) 2 else s, .ok)

/-! ### The decision point (rules R94, R173 and R175 to R178) -/

/-- A look-back ring read sets its events; an UNCORRECTABLE unit is charged to the aerial with its offset in the ring, and its two
samples count as marked (rule R77). -/
def Dev.ringMet (s : Dev) (b c : Nat) (r : RingRead) : Dev :=
  let s := if r.darn then s.set (RF_EVENTS_RING_DARN b) else s
  match r.uncorr with
  | some (u, t) =>
    let q := s.ring b c
    let t2 := tsAdd t.toNat (if s.narrow b then 4 else 1)
    let s := if s.marked b c (s.age t.toNat) then s else s.setRing b c { q with marks := (t.toNat, t2) :: q.marks }
    (s.set (RF_EVENTS_RING_UNCORR b)).charge (0x16 + 2 * b + c) .ringUncorr (8 * (u.toNat % (s.ringSamples b / 2)))
  | none => s

/-- The aerial of a frame (rule R88): the descriptor's, TXP_CONFIG's or the partner's; a retired one is never used. -/
def Dev.txAerial (s : Dev) (p : Nat) (d : List Byte) : Nat :=
  let follow := s.partnerAerial (dPartner d)
  let cfg := match s.rd (TXP_CONFIG_AERIAL p) with
    | 1 => 0
    | 2 => 1
    | _ => follow
  let want := match dAerial d with
    | 1 => 0
    | 2 => 1
    | _ => cfg
  if want = 0 then (if s.on (RF_STATE_A_RETIRED p) then 1 else 0) else (if s.on (RF_STATE_B_RETIRED p) then 0 else 1)

/-- The largest power code of a band. -/
def bandMax (p : Nat) : Nat := if p = 0 then 0xA0 else 0x78

/-- The thermal cap with its hysteresis: from 135 degrees, released below 125 (rule R85). -/
def Dev.thermal (s : Dev) (p : Nat) (die : Int) : Bool :=
  decide (135 ≤ die) || (s.on (TXP_STATUS_CAP_THERMAL p) && decide (125 ≤ die))

/-- The supply cap, on TX-SG alone. -/
def Dev.supplyCap (s : Dev) (p : Nat) : Bool := p == 0 && s.on MNT_SUPPLY_STAT_SG_CAP

/-- The effective cap of rule R84, without the requested code. -/
def Dev.capNow (s : Dev) (p : Nat) (die : Int) : Nat :=
  let x := min (s.rd (TXP_CONFIG_CAP p)) (bandMax p)
  let x := if s.supplyCap p then min x 0x94 else x
  if s.thermal p die then min x (if p = 0 then 0x88 else 0x50) else x

/-- The clear-channel assessment a frame gets (rules R175 to R177): mode, window in us, threshold in dBm. -/
def Dev.ccaPlan (s : Dev) (p : Nat) (c : TxCmd) : Nat × Nat × Int :=
  let m := dCcaMode c.bytes
  let mode := if c.lbt ∧ (m = 0 ∨ m = 2) then 4 else m
  let len := if dCcaUs c.bytes = 0 then min 992 (max 8 (s.rd (TXP_CCA_LEN_US p))) else dCcaUs c.bytes
  let thr := signed 8 (if dCcaDbm c.bytes = 0x80 then s.rd (TXP_CCA_ED_DBM p) else dCcaDbm c.bytes)
  (mode, max len c.minCca, match c.maxThr with
    | some t => min thr t
    | none => thr)

/-- Is a sleeve on the same channel and mode in a state of 3 to 6 (rule R176)? -/
def Dev.sleeveBusy (s : Dev) (p : Nat) (d : List Byte) : Bool :=
  (s.ofBand p).any fun n => s.on (SLV_STATE_IN_FRAME n) && s.rd (SLV_ASSIGN_MODE n) == dMode d &&
    s.rd (SLV_CHAN_CHANNEL_KHZ n) == dChannel d

/-- The sync word that a SUN FSK frame of the descriptor carries on path `p`: TXP_SYNC0 uncoded, TXP_SYNC1 coded (rule R154). -/
def Dev.txSync (s : Dev) (p : Nat) (d : List Byte) : Nat :=
  (if bitOf (dPhyA d) 4 then s.rd (TXP_SYNC1_WORD p) else s.rd (TXP_SYNC0_WORD p)) % 2 ^ s.txSyncLen p

/-- Does what the CCA unit found in its window amount to a preamble or sync of the frame's mode (rule R176)? -/
def Dev.ccaCarrier (s : Dev) (p : Nat) (d : List Byte) (q : CcaSeen) : Bool :=
  match dMode d with
  | 0 => decide (8 ≤ q.run) || q.words.any fun w => decide (bitErrs (w.toNat % 2 ^ s.txSyncLen p) (s.txSync p d) ≤ 2)
  | 1 => q.zeros.any fun z => decide (z.1 ≤ 8) && decide (z.2 ≤ 8)
  | _ => decide (180 ≤ q.plateau)

/-- The chain whose look-back ring serves the assessment: that of the frame's aerial, or the band's other one where it is off (rule
R175). -/
def Dev.ccaChain (s : Dev) (p a : Nat) : Nat := if s.chainOn p a then a else 1 - a

/-- Is at least half of the window's samples usable, the window ending now (rules R76 and R178)? -/
def Dev.ccaUsable (s : Dev) (p a us : Nat) : Bool := decide (us * 8 ≤ 2 * (us * 8 - s.markedIn p (s.ccaChain p a) (us * 8)))

/-- Does the assessment find the channel busy? `energy` is the average over the window in dBm, `carrier` what the CCA unit
detected, `usable` that at least half of the samples could be used. -/
def Dev.ccaBusy (s : Dev) (p : Nat) (c : TxCmd) (energy : Int) (carrier usable : Bool) : Bool :=
  let q := s.ccaPlan p c
  let e := decide (q.2.2 ≤ energy)
  let k := carrier || s.sleeveBusy p c.bytes
  match q.1 with
  | 0 => false
  | 1 => !usable || e
  | 2 => !usable || k
  | 3 => !usable || (e && k)
  | _ => !usable || (e || k)

/-- The first failing condition at the decision point, in the order of rules R94 and R173. -/
def Dev.txDecide (s : Dev) (p : Nat) (c : TxCmd) (busy : Bool) : Status :=
  let q := s.path p
  if s.on MNT_SUPPLY_STAT_WARN ∨ s.txDown p then .notReady
  else if !s.on (RF_STATE_LOCKED p) ∨ s.rd (RF_STATE_CAL_ITEM p) ≠ 0 ∨ q.cmds.any (fun x => x.phase != .armed) ∨
      q.prevEnd.any (fun e => !tsLe (tsAdd e 128) c.ts) then .late
  else if s.narrow p ∧ dChannel c.bytes ≠ (s.band p).target then .outsideWindow
  else if c.readSt ≠ .ok then c.readSt
  else if busy then .channelBusy
  else .ok

/-- R97: the band blank covers every sleeve of the band, and the governors hold. -/
def Dev.blankBand (s : Dev) (b : Nat) : Dev :=
  let s := ((s.endBand b .bandBlanked).set (RF_STATE_BLANK b)).bandState b 5
  s.restBand b

/-- The first command that waits for its decision point. -/
def Path.armed (q : Path) : Option TxCmd := q.cmds.find? fun c => c.phase == .armed

/-- The frame past its decision point. -/
def Path.going (q : Path) : Option TxCmd := q.cmds.find? fun c => c.phase != .armed

/-- R94: the decision point of the armed command. Rule R99: a decision point in TURN_RX ends the turn without release. -/
def Dev.txPoint (s : Dev) (p : Nat) (die energy : Int) (seen : CcaSeen) (ring : RingRead) : Dev :=
  match (s.path p).armed with
  | none => s
  | some c =>
    let mode := (s.ccaPlan p c).1
    let aerial := s.txAerial p c.bytes
    let reads := mode != 0 && s.txDecide p c false == .ok
    let s := if reads then s.ringMet p (s.ccaChain p aerial) ring else s
    let usable := s.ccaUsable p aerial (s.ccaPlan p c).2.1
    let st := s.txDecide p c (s.ccaBusy p c energy (s.ccaCarrier p c.bytes seen) usable)
    let d := { c with aerial := aerial, ccaDone := reads, ccaEnergy := energy, ccaIncomplete := reads && !usable }
    if st ≠ .ok then
      let s := (s.txUpdate p c d).txRefusal p st
      let s := s.txComplete p d { TxEnd.none st with ccaBusy := st == .channelBusy }
      if (s.path p).cmds = [] ∧ s.rd (TXP_STATUS_STATE p) = 2 then s.wr (TXP_STATUS_STATE p) 1 else s
    else
      let cap := s.capNow p die
      let pw := min (dPower c.bytes) cap
      let s := ((s.put (TXP_STATUS_CAP_THERMAL p) (s.thermal p die)).put (TXP_STATUS_CAP_SUPPLY p) (s.supplyCap p)).put
        (TXP_STATUS_CAP_REG p) (decide (s.rd (TXP_CONFIG_CAP p) = cap))
      let s := ((s.wr (TXP_STATUS_CAP_NOW p) cap).wr (TXP_STATUS_AERIAL_NOW p) d.aerial).wr (TXP_STATUS_STATE p) 3
      let s := if pw < dPower c.bytes then s.set (TXP_EVENTS_POWER_CAPPED p) else s
      let s := s.txUpdate p c { d with phase := .decided, power := pw, capped := decide (pw < dPower c.bytes) }
      (s.setPath p { s.path p with turning := false }).blankBand p

/-! ### The frame on air -/

/-- What leaves the aerial with a PSDU (rules R153 to R155, R158, R167 and R508). The preamble of O-QPSK is eight zero
symbols (assumption log 6). -/
def Dev.onAir (s : Dev) (p : Nat) (d psdu : List Byte) : OnAir :=
  let mode := dMode d
  let phr := phrSent mode (dPhyA d) (dPhyB d) (bitOf (dFlags d) 0) (dPsdu d)
  { preamble := match mode with
      | 0 => List.replicate (dPreamble d) 0x55
      | 1 => List.replicate 4 0
      | _ => []
    sync := match mode with
      | 0 => msbBits (s.txSyncLen p) (s.txSync p d)
      | 1 => msbBits 8 0xA7
      | _ => []
    phr := phr, psdu := psdu,
    body := match mode with
      | 0 => fskBits (dPhyA d) phr psdu
      | 1 => phr ++ octetBits psdu
      | _ => [] }

/-- R95 and R179: the first symbol is at the pad, not before t_s. -/
def Dev.txFirst (s : Dev) (p : Nat) : Dev :=
  match (s.path p).going with
  | none => s
  | some c =>
    if c.phase ≠ .decided ∨ !tsLe c.ts s.now then s
    else
      let s := s.txUpdate p c { c with phase := .onAir }
      let s := s.setPath p { s.path p with air := some (s.onAir p c.bytes c.buf) }
      ((s.bump (TXP_FRAMES_COUNT p)).wr (TXP_STATUS_STATE p) 4).bandState p 6

/-- R90: at an 8 us point of a frame at +10 dBm or more, a return loss below FOLD_RL folds the power back. -/
def Dev.foldback (s : Dev) (p rl : Nat) : Dev :=
  match (s.path p).going with
  | none => s
  | some c =>
    if c.phase = .onAir ∧ 0x50 ≤ c.power ∧ rl < s.rd (TXP_VSWR_FOLD_RL p) then s.txUpdate p c { c with folded := true }
    else s

/-- The band turns to receive from the end of a frame at `t` on (Table 03-6). -/
def Dev.turnRx (s : Dev) (p t : Nat) : Dev :=
  let s := s.setPath p { s.path p with prevEnd := some t, turning := true }
  (s.wr (TXP_STATUS_STATE p) 5).bandState p 7

/-- R89 and R91: the measured return loss is stored; a fail is counted, and FAIL_LIMIT of them retire the aerial. -/
def Dev.measure (s : Dev) (p c rl fwd : Nat) : Dev :=
  let f := if c = 0 then TXP_LAST_MEAS_FAILS_A p else TXP_LAST_MEAS_FAILS_B p
  let s := (s.wr (if c = 0 then TXP_LAST_MEAS_RL_A p else TXP_LAST_MEAS_RL_B p) rl).wr (TXP_LAST_MEAS_FWD p) fwd
  if rl < s.rd (TXP_VSWR_RL_LIMIT p) then
    let s := s.bump f
    let gone := if c = 0 then s.on (RF_STATE_A_RETIRED p) else s.on (RF_STATE_B_RETIRED p)
    if max 1 (s.rd (TXP_VSWR_FAIL_LIMIT p)) ≤ s.rd f ∧ !gone then s.charge (0x16 + 2 * p + c) .aerialRetired 0 else s
  else s.wr f 0

/-- The place of a cut's status in the list of rule R181. -/
def cutRank (st : Status) : Nat :=
  match st with
  | .notReady => 0
  | .synthUnlock => 1
  | .uncorrectable => 2
  | _ => 3

/-- A frame past its decision point is cut: it completes with a status and CUT, and the band turns to receive. A frame at
+10 dBm or more on air was measured until the cut (rule R89), with values that no operand carries: they are open. -/
def Dev.txCut (s : Dev) (p : Nat) (st : Status) (sent : Nat) : Dev :=
  match (s.path p).going with
  | none => s
  | some c =>
    let meas := c.phase == .onAir && decide (0x50 ≤ c.power)
    let rl := Config.free s.freeCtr % 256
    let fwd := Config.free (s.freeCtr + 1) % 256
    let s := (s.drewN 2).turnRx p s.now
    let r : TxCutRec :=
      { time := s.now, report := s.rd (TXP_CQ_BASE_ADDR p c.le) * 32 + s.rd (TXP_CQ_WR_WR p c.le) * 32, rank := cutRank st,
        early := c.phase == .decided, buf := dBuf c.bytes, len := dPsdu c.bytes - dFcsLen c.bytes }
    let s := s.setPath p { s.path p with cut := some r }
    let s := s.txComplete p c { status := st, cut := true, len := sent, tsEnd := s.now, sent := c.phase == .onAir,
                                rl := if meas then rl else 0xFF, ccaBusy := false }
    if meas then s.measure p c.aerial rl fwd else s

/-- R181: a second event that would cut the frame in the tick of its cut; the status listed first stands in the report. -/
def Dev.txCutAgain (s : Dev) (p : Nat) (st : Status) : Dev :=
  match (s.path p).cut with
  | none => s
  | some r =>
    if r.time = s.now ∧ cutRank st < r.rank then
      (s.stow (0x0E + p) r.report (leBytes 1 st.code)).setPath p { s.path p with cut := some { r with rank := cutRank st } }
    else s

/-- Was a frame cut in this tick, before its first symbol where `early` asks for that? -/
def Dev.cutNow (s : Dev) (p : Nat) (early : Bool) : Bool :=
  ((s.path p).cut).any fun r => r.time == s.now && (r.early || !early)

/-- R174: the buffer unit `u` read after the first symbol, one beyond the 256 octets read ahead, cannot be read with OK, and the
frame is cut. -/
def Dev.txReadFail (s : Dev) (p sent u : Nat) : Dev :=
  match (s.path p).going with
  | none =>
    match (s.path p).cut with
    | none => s
    | some c =>
      if c.time ≠ s.now ∨ c.early ∨ u < 32 ∨ c.len ≤ 8 * u then s
      else
        let r := s.rdMem (0x0E + p) (c.buf + 8 * u) 8
        if r.2.1 = .ok then r.1 else r.1.txCutAgain p r.2.1
  | some c =>
    if c.phase ≠ .onAir ∨ u < 32 ∨ dPsdu c.bytes - dFcsLen c.bytes ≤ 8 * u then s
    else
      let r := s.rdMem (0x0E + p) (dBuf c.bytes + 8 * u) 8
      if r.2.1 = .ok then r.1 else r.1.txCut p r.2.1 sent

/-- R172: the rest of the buffer, beyond the 256 octets read ahead, is read during the frame; a unit that cannot be read with OK cuts
it, every octet before that unit sent. -/
def Dev.txReadRest (s : Dev) (p : Nat) : Dev :=
  match (s.path p).going with
  | none => s
  | some c =>
    s.each ((List.range ((dPsdu c.bytes - dFcsLen c.bytes + 7) / 8)).drop 32) fun s u => s.txReadFail p (8 * u) u

/-- R96 and R179: the last symbol ends at t_s plus the airtime; the path reports, measures and starts the turn to receive. -/
def Dev.txLast (s : Dev) (p rl fwd : Nat) : Dev :=
  match (s.path p).going with
  | none => s
  | some c =>
    let tsEnd := tsAdd c.ts (s.airtime p c.bytes : Nat)
    if c.phase ≠ .onAir ∨ !tsLe tsEnd s.now then s
    else
      let s := s.txReadRest p
      if ((s.path p).going).isNone then s
      else
        let n := dPsdu c.bytes - dFcsLen c.bytes
        let data := c.buf ++ s.peekBytes (0x0E + p) (dBuf c.bytes + 256) (n - 256)
        let air := s.onAir p c.bytes (data ++ fcsOf (dFcsLen c.bytes == 2) data)
        let s := s.setPath p { s.path p with air := some air }
        let meas := decide (0x50 ≤ c.power)
        let s := s.turnRx p tsEnd
        let s := if c.folded then s.set (TXP_EVENTS_FOLDBACK p) else s
        let s := s.txComplete p c
          { status := if c.folded then .vswrFoldback else .ok, cut := false, len := dPsdu c.bytes, tsEnd := tsEnd,
            sent := true, rl := if meas then rl else 0xFF, ccaBusy := false }
        if meas then s.measure p c.aerial rl fwd else s

/-- R108: WARN cuts a frame between its decision point and its first symbol. -/
def Dev.warnCut (s : Dev) (p : Nat) : Dev :=
  match (s.path p).going with
  | none => if s.cutNow p true then (s.set (TXP_EVENTS_WARN_CUT p)).txCutAgain p .notReady else s
  | some c => if c.phase = .decided then (s.set (TXP_EVENTS_WARN_CUT p)).txCut p .notReady 0 else s

/-- R109: a locked synthesiser loses lock; a frame on air has sent `sent` octets of its PSDU. -/
def Dev.unlock (s : Dev) (b sent : Nat) : Dev :=
  if !s.on (RF_STATE_LOCKED b) then s
  else
    let s := ((s.endBand b .synthUnlock).clr (RF_STATE_LOCKED b)).set (RF_EVENTS_UNLOCK b)
    let st := s.rd (RF_STATE_STATE b)
    let s := if st = 5 ∨ st = 6 then
        ((s.set (TXP_EVENTS_UNLOCK_CUT b)).txCut b .synthUnlock sent).setBand b { s.band b with relock := true }
      else if st = 7 ∧ s.cutNow b false then
        ((s.set (TXP_EVENTS_UNLOCK_CUT b)).txCutAgain b .synthUnlock).setBand b { s.band b with relock := true }
      else if st = 4 ∨ st = 8 then s.retune b (s.band b).target
      else s.setBand b { s.band b with relock := true }
    s.charge (0x1A + b) .synthUnlock 0

/-- R96: 20 us after the last symbol or cut the band blank is released. -/
def Dev.turnDone (s : Dev) (b : Nat) : Dev :=
  if s.rd (RF_STATE_STATE b) ≠ 7 then s
  else
    let s := (s.clr (RF_STATE_BLANK b)).setPath b { s.path b with turning := false }
    let s := s.wr (TXP_STATUS_STATE b) (if (s.path b).cmds = [] then 1 else 2)
    let s := s.bandListen b
    if (s.band b).relock ∧ s.rd (RF_STATE_STATE b) ≠ 10 then s.retune b (s.band b).target else s

/-- Every accepted command whose decision point has not come completes with NOT_READY (rules R171 and R183). -/
def Dev.txDrop (s : Dev) (p : Nat) : Dev :=
  let s := s.each ((s.path p).cmds.filter fun c => c.phase == .armed) fun s c => s.txComplete p c (.none .notReady)
  if s.rd (TXP_STATUS_STATE p) = 2 then s.wr (TXP_STATUS_STATE p) 1 else s

/-- R171: TXP_CONFIG is written with ENABLE 0. -/
def Dev.txDisable (s : Dev) (p v : Nat) : Dev :=
  let s := ((s.wr (TXP_CONFIG_AERIAL p) v).wr (TXP_CONFIG_CAP p) (v / 256)).wr (TXP_CONFIG_ENABLE p) (v / 2 ^ 24)
  if s.on (TXP_CONFIG_ENABLE p) then s.svcEval else (s.txDrop p).svcEval

/-! ### Meanings -/

/-- SYNTH_UNLOCK, rule R109. -/
def execSynthUnlock (b : Fin 2) (sent : BitVec 11) : State → Host.Outcome State Fault Refusal :=
  onDev (·.unlock b sent.toNat)
/-- TX_DECISION_POINT, rule R94. -/
def execTxDecisionPoint (p : Fin 2) (die energy : Int) (seen : CcaSeen) (ring : RingRead) :
    State → Host.Outcome State Fault Refusal := onDev (·.txPoint p die energy seen ring)
/-- TX_FIRST_SYMBOL, rule R95. -/
def execTxFirstSymbol (p : Fin 2) : State → Host.Outcome State Fault Refusal := onDev (·.txFirst p)
/-- VSWR_FOLDBACK, rule R90. -/
def execVswrFoldback (p : Fin 2) (rl : BitVec 8) : State → Host.Outcome State Fault Refusal :=
  onDev (·.foldback p rl.toNat)
/-- TX_FRAME_END, rule R96. -/
def execTxFrameEnd (p : Fin 2) (rl fwd : BitVec 8) : State → Host.Outcome State Fault Refusal :=
  onDev (·.txLast p rl.toNat fwd.toNat)
/-- TX_READ_FAIL_CUT, rule R174. -/
def execTxReadFailCut (p : Fin 2) (sent : BitVec 11) (unit : BitVec 8) : State → Host.Outcome State Fault Refusal :=
  onDev (·.txReadFail p sent.toNat unit.toNat)
/-- TURN_RX_DONE, rule R96. -/
def execTurnRxDone (b : Fin 2) : State → Host.Outcome State Fault Refusal := onDev (·.turnDone b)
/-- TXP_DISABLE, rule R171. -/
def execTxpDisable (ini : Ini) (p : Fin 2) (v : Word) : State → Host.Outcome State Fault Refusal :=
  onDev (·.cmdAt ini (TXP_CONFIG p) (·.txDisable p v.toNat))
/-- COMPLETION_RING_SIZE_WRITE, rule R182. -/
def execCompletionRingSizeWrite (ini : Ini) (p : Fin 2) (k : Fin 6) (v : Word) : State → Host.Outcome State Fault Refusal :=
  onDev (·.cmdAt ini (TXP_CQ_SIZE p k) (·.cqSizeWrite p k v.toNat))
/-- COMPLETION_RING_OFF, rule R182. -/
def execCompletionRingOff (p : Fin 2) (k : Fin 6) : State → Host.Outcome State Fault Refusal := onDev (·.cqSettle p k)

end Sys2Proof.Machine
end

