-- ==== Sys2Proof/Machine/Queues.lean ====
section
/-!
DEFINITION. Partner entries, transmit queues, routes, and messages on their way out: fragmentation, completions and open
transactions (chapters 06 and 07). The value an engine reads of a table is `Dev.peek`; that its read is an access of the fabric, checked,
counted and logged, is said once for each command by the `touch` operations (assumption log 12).
-/

namespace Sys2Proof.Machine

/-! ### Partner entries (Table 07-1) -/

/-- `n` octets of partner entry `i` from offset `off` on. -/
def Dev.pf (s : Dev) (i off n : Nat) : Nat := s.peek 0x0C (partnerAddr i + off) n

/-- The initiator code of the link engine that owns partner `i`, the slot engine's where none does. -/
def Dev.ownerOf (s : Dev) (i : Nat) : Nat := match s.leOfPartner i with
  | some k => 2 + k
  | none => 0x0C

/-- `n` octets of partner entry `i` are written by the link engine that owns it. -/
def Dev.pfw (s : Dev) (i off n v : Nat) : Dev := s.put8 (s.ownerOf i) (partnerAddr i + off) (leBytes n v)

/-- A field of `w` bits inside one octet of a partner entry is written. -/
def Dev.pfBits (s : Dev) (i off lo w v : Nat) : Dev :=
  let x := s.pf i off 1
  s.pfw i off 1 (x % 2 ^ lo + 2 ^ lo * (v % 2 ^ w) + 2 ^ (lo + w) * (x / 2 ^ (lo + w)))

/-- The partner entry is read by the link engine that owns it, or by the slot engine's port (rules R24, R28, R29 and R514). -/
def Dev.touchPartner (s : Dev) (ini i : Nat) : Dev := if i < 4096 then s.touch ini [(partnerAddr i, 64)] else s

/-- The MAC sequence number of the next frame to partner `i`, which TX_SEQ then moves past (rule R239). -/
def Dev.txSeq (s : Dev) (i : Nat) : Dev × Nat := (s.pfw i 0x0F 1 (s.pf i 0x0F 1 + 1), s.pf i 0x0F 1)

/-- Is partner `i` VALID? -/
def Dev.pValid (s : Dev) (i : Nat) : Bool := decide (i < 4096) && bitOf (s.pf i 0x0D 1) 0

/-- Is partner `i` REMOVED? -/
def Dev.pRemoved (s : Dev) (i : Nat) : Bool := decide (i < 4096) && bitOf (s.pf i 0x0D 1) 1

/-- Is partner `i` in a range served by an active link engine (rules R200 and R242)? -/
def Dev.served (s : Dev) (i : Nat) : Bool :=
  match s.leOfPartner i with
  | some k => s.rd (LE_STATE_ROLE k) == 1
  | none => false

/-! ### Transmit queues (rule R220) -/

/-- Fields of the queue entry at `e` (Table 06-4). -/
def Dev.qDesc (s : Dev) (e : Nat) : Nat := s.peek 0x0C e 4
def Dev.qPartner (s : Dev) (e : Nat) : Nat := s.peek 0x0C (e + 4) 2
def Dev.qFlags (s : Dev) (e : Nat) : Nat := s.peek 0x0C (e + 6) 1
def Dev.qAge (s : Dev) (e : Nat) : Nat := s.peek 0x0C (e + 7) 1
def Dev.qTries (s : Dev) (e : Nat) : Nat := s.peek 0x0C (e + 8) 1
def Dev.qCca (s : Dev) (e : Nat) : Nat := s.peek 0x0C (e + 9) 1
def Dev.qClass (s : Dev) (e : Nat) : Nat := s.qFlags e % 4
def Dev.qAckReq (s : Dev) (e : Nat) : Bool := bitOf (s.qFlags e) 2
def Dev.qControl (s : Dev) (e : Nat) : Bool := bitOf (s.qFlags e) 3
def Dev.qInFlight (s : Dev) (e : Nat) : Bool := bitOf (s.qFlags e) 4

/-- Octets of the queue entry at `e` are written by link engine `k`. -/
def Dev.qw (s : Dev) (k e off n v : Nat) : Dev := s.put8 (2 + k) (e + off) (leBytes n v)

/-- IN_FLIGHT of the entry at `e`. -/
def Dev.qMark (s : Dev) (k e : Nat) (b : Bool) : Dev :=
  s.qw k e 6 1 (s.qFlags e % 16 + (if b then 16 else 0))

/-- Head and tail of the queue of the broadcast link whose descriptor stands at `a` (rule R220; assumption log 13). -/
def Dev.bqGet (s : Dev) (a : Nat) : Nat × Nat := ((s.se.bq.find? fun x => x.1 == a).map (·.2.2)).getD (0, 0)

/-- Head entry of the queue of partner `i`, or of the broadcast link at address `i` where that is no partner index. -/
def Dev.qHead (s : Dev) (i : Nat) : Nat := if i < 4096 then s.pf i 0x30 4 else (s.bqGet i).1

/-- The entries from `e` on, at most `n`. -/
def Dev.qWalk (s : Dev) : Nat → Nat → List Nat
  | 0, _ => []
  | n + 1, e => if e = 0 then [] else e :: Dev.qWalk s n (s.peek 0x0C (e + 0x0C) 4)

/-- The entries of a queue, head first. -/
def Dev.qList (s : Dev) (i : Nat) : List Nat := s.qWalk 8192 (s.qHead i)

/-- A queue is read by link engine `k`. -/
def Dev.touchQueue (s : Dev) (k i : Nat) : Dev := s.touch (2 + k) ((s.qList i).map fun e => (e, 16))

/-- The queue that holds the entry at `e`: its partner's, or that of a broadcast link. -/
def Dev.qOf (s : Dev) (e : Nat) : Nat :=
  let p := s.qPartner e
  if p < 4096 then p else (((s.se.bq.map (·.1)).find? fun a => (s.qList a).contains e).getD 0xFFFF)

/-- The broadcast queues of physical engine `k`. -/
def Dev.bqsOf (s : Dev) (k : Nat) : List Nat := (s.se.bq.filter fun x => x.2.1 == k).map (·.1)

/-- A queue takes the entries `l`, in that order. -/
def Dev.qStore (s : Dev) (k i : Nat) (l : List Nat) : Dev :=
  let s := s.each (l.zip (l.drop 1 ++ [0])) fun s p => if s.peek 0x0C (p.1 + 0x0C) 4 = p.2 then s else s.qw k p.1 0x0C 4 p.2
  let h := l.headD 0
  let t := l.getLastD 0
  if i < 4096 then (s.pfw i 0x30 4 h).pfw i 0x34 4 t
  else { s with se := { s.se with bq := (s.se.bq.filter fun x => x.1 != i) ++ [(i, k, h, t)] } }

/-- An entry joins a queue: after those in flight and those of its class or a higher one. -/
def Dev.qAdd (s : Dev) (k i e : Nat) : Dev :=
  let l := s.qList i
  let c := s.qClass e
  let before := l.takeWhile fun x => s.qInFlight x || decide (c ≤ s.qClass x)
  s.qStore k i (before ++ [e] ++ l.drop before.length)

/-- An entry leaves its queue. -/
def Dev.qDrop (s : Dev) (k i e : Nat) : Dev :=
  let l := s.qList i
  if l.contains e then s.qStore k i (l.filter fun x => x != e) else s

/-! ### Message-layer rings (rules R272, R276 and R278) -/

/-- Is there a free entry in ring `j`? -/
def Dev.mlFree (s : Dev) (j : Nat) : Bool :=
  ringFree (s.rd (ML_RING_SIZE_ENTRIES j)) (s.rd (ML_RING_WR_WR j)) (s.rd (ML_RING_RD_RD j)) 0

/-- A record is written whole to ring `j` before WR advances; a record in ring 2 or 8 is a host event (Table 12-18). -/
def Dev.mlPut (s : Dev) (j : Nat) (rec : List Byte) : Dev :=
  let w := s.rd (ML_RING_WR_WR j)
  let n := s.rd (ML_RING_SIZE_ENTRIES j)
  let s := (s.put8 0x0C (s.rd (ML_RING_BASE_ADDR j) * 32 + w * rec.length) rec).wr (ML_RING_WR_WR j) (if n = 0 then 0 else (w + 1) % n)
  if j = 2 then s.hostEvt 0 else if j = 8 then s.hostEvt 1 else s

/-- ML_STATUS follows the contexts and transactions. -/
def Dev.mlView (s : Dev) : Dev :=
  (s.wr ML_STATUS_TXN_OPEN s.ml.txns.length).wr ML_STATUS_RA_IN_USE s.ml.ctxs.length

/-- The message layer takes a record. -/
def Dev.onMl (s : Dev) (f : Layer → Layer) : Dev := ({ s with ml := f s.ml }).mlView

/-- A completion record (Table 07-13). -/
def completion (st : Status) (tries tag txn dest asn : Nat) : List Byte :=
  leBytes 1 st.code ++ leBytes 1 tries ++ leBytes 2 tag ++ leBytes 2 txn ++ leBytes 2 dest ++ leBytes 5 asn ++ leBytes 3 0

/-- Completions held for a ring are written while it has free entries, oldest first; `n` bounds them. -/
def Dev.mlRelease (s : Dev) (sub : Nat) : Nat → Dev
  | 0 => s
  | n + 1 =>
    match s.ml.heldDone.find? fun x => x.1 == sub with
    | some x =>
      if s.mlFree (6 + sub) then
        Dev.mlRelease ((s.onMl fun m => { m with heldDone := m.heldDone.erase x }).mlPut (6 + sub) x.2) sub n
      else s
    | none => s

/-- A submission completes: its record is written, or held for a full ring (rule R278). -/
def Dev.mlComplete (s : Dev) (sub : Nat) (st : Status) (tries tag txn dest : Nat) : Dev :=
  let rec_ := completion st tries tag txn dest s.se.asn
  if s.mlFree (6 + sub) ∧ !(s.ml.heldDone.any fun x => x.1 == sub) then s.mlPut (6 + sub) rec_
  else s.onMl fun m => { m with heldDone := m.heldDone ++ [(sub, rec_)] }

/-! ### Routes (rules R256 to R258) -/

/-- The address of the route entry of a mesh address: the first VALID one of its bucket. -/
def Dev.rtFind (s : Dev) (a : Nat) : Option Nat :=
  if !s.on ML_RT_CFG_ENABLE then none
  else
    let b := (a ^^^ (a / 128)) % 2 ^ min 12 (s.rd ML_RT_CFG_SHIFT)
    ((List.range 4).map fun w => s.rd ML_RT_BASE_ADDR * 64 + (4 * b + w) * 16).find? fun e =>
      bitOf (s.peek 0x0C (e + 4) 1) 0 && s.peek 0x0C e 2 == a

/-- The bucket of a mesh address is read through the slot engine's port (rule R514). -/
def Dev.touchRoute (s : Dev) (a : Nat) : Dev :=
  if !s.on ML_RT_CFG_ENABLE then s
  else s.touch 0x0C [(s.rd ML_RT_BASE_ADDR * 64 + 64 * ((a ^^^ (a / 128)) % 2 ^ min 12 (s.rd ML_RT_CFG_SHIFT)), 64)]

/-- Where a message for a mesh address goes next. -/
inductive Hop where
  | none
  | removed
  | via (p : Nat)
deriving DecidableEq, Repr

/-- Step 4 of rule R258. -/
def Dev.hop (s : Dev) (dest : Nat) : Hop :=
  match s.rtFind dest with
  | some e =>
    let p := s.peek 0x0C (e + 2) 2
    if !s.pValid p then .none else if s.pRemoved p then .removed else .via p
  | none => .none

/-! ### Fragments on their way out (rules R251, R253 and R254) -/

/-- The fragment size towards a next hop; 0xFFFF stands for a broadcast. -/
def Dev.fragSize (s : Dev) (hop : Nat) : Nat :=
  if hop < 4096 then max 16 (min 2000 (s.pf hop 0x38 2)) else max 16 (min 2000 (s.rd ML_LIMITS_BCAST_FRAG))

/-- The number of fragments of a message. -/
def Dev.fragCount (s : Dev) (m : Msg) (hop : Nat) : Nat := max 1 ((m.data.length + s.fragSize hop - 1) / s.fragSize hop)

/-- The header of fragment `i` of `n`. -/
def Msg.header (m : Msg) (i n : Nat) : List Byte :=
  leBytes 1 (0x10 + m.kind) ++ leBytes 1 (m.flags - m.flags / 2 % 2 * 2 + (if i + 1 < n then 2 else 0)) ++ leBytes 2 m.txn ++
    leBytes 1 i ++ leBytes 1 n ++ leBytes 2 m.data.length

/-- The mesh prefix, left out where this node sends to a next hop that is the destination (rule R253). -/
def Dev.prefixOf (s : Dev) (m : Msg) (hop : Nat) : List Byte :=
  if m.origin = s.rd ML_SELF_ADDR ∧ hop < 4096 ∧ m.dest = s.pf hop 8 2 then []
  else leBytes 1 (0xE0 + m.hops % 16) ++ [0] ++ leBytes 2 m.origin ++ leBytes 2 m.dest

/-- The link engine that queues for a next hop: the owner of the partner, or the engine of ML_CFG.BCAST_LE. -/
def Dev.hopLe (s : Dev) (hop : Nat) : Nat :=
  if hop < 4096 then (s.leOfPartner hop).getD 0
  else s.lePhys (if 6 ≤ s.rd ML_CFG_BCAST_LE then 0 else s.rd ML_CFG_BCAST_LE)

/-- A frame, its transmit descriptor and its queue entry are written by link engine `k` for a partner or 0xFFFF: type, class and
the flags of the entry, the header's Tilnurek sub-elements, and what follows the header. The sequence number is the partner's TX_SEQ
(rules R159, R163, R168, R220 and R239). -/
def Dev.frameWrite (s : Dev) (k p : Nat) (a : PlacePlan) (tx : TxPlan) (h : MhrPlan) (ftype flags : Nat) (subs : List (List Byte))
    (body : List Byte) : Dev :=
  let r := if p < 4096 then s.txSeq p else (s, h.seq.toNat)
  let l := h.octets s.img.oui ftype (bitOf flags 2) r.2 subs (decide (body ≠ [])) ++ body ++ List.replicate h.mic 0
  let e := leBytes 4 a.descAt ++ leBytes 2 p ++ leBytes 1 flags ++ List.replicate 9 0
  ((r.1.put8 (2 + k) a.bufAt l).put8 (2 + k) a.descAt (tx.octets l.length a.bufAt 0 p (s.rangeOf k))).put8 (2 + k) a.entryAt e

/-- One fragment is built, its transmit descriptor and queue entry written, and enqueued. -/
def Dev.fragSend (s : Dev) (m : Msg) (hop n i : Nat) (p : FragPlan) : Dev :=
  let f := s.fragSize hop
  let k := s.hopLe hop
  let body := s.prefixOf m hop ++ m.header i n ++ (m.data.drop (i * f)).take f
  let s := s.frameWrite k hop p.at_ p.tx p.mhr 1 (m.flags / 16 % 4 + (if hop < 4096 then 4 else 0)) [] body
  s.qAdd k (if hop < 4096 then hop else p.link.toNat) p.at_.entryAt

/-- A message is fragmented and enqueued; what waits for its fragments is recorded. -/
def Dev.msgSend (s : Dev) (m : Msg) (hop : Nat) (plans : List FragPlan) (what : SendFor) (tries : Nat) : Dev :=
  let n := s.fragCount m hop
  let l := plans.take n
  let s := s.each ((List.range n).zip l) fun s x => s.fragSend m hop n x.1 x.2
  s.onMl fun x => { x with sends := x.sends ++
    [{ txn := m.txn, dest := m.dest, what := what, entries := l.map (·.at_.entryAt), tries := tries }] }

/-! ### Descriptors the message layer holds (rule R273) -/

/-- A descriptor returns to the pool, its buffer scrubbed first where ML_CFG asks for it. -/
def Dev.descRelease (s : Dev) (i : Nat) : Dev :=
  (if s.on ML_CFG_SCRUB_ON_FREE then s.put8 0x0C (s.bufAddr i) (List.replicate s.bufSize 0) else s).poolFree i

/-- A link engine scrubs a buffer and frees its descriptor (rule R249). -/
def Dev.descScrub (s : Dev) (k i : Nat) : Dev := (s.put8 (2 + k) (s.bufAddr i) (List.replicate s.bufSize 0)).poolFree i

/-- Every descriptor of a list is freed. -/
def Dev.descsFree (s : Dev) (l : List Nat) : Dev := s.each l (·.descRelease ·)

/-! ### Queue entries that complete (rules R223, R259, R263 and R264) -/

/-- The transaction open under an id. -/
def Dev.txnOf (s : Dev) (id : Nat) : Option Txn := s.ml.txns.find? fun t => t.id == id

/-- A record of the layer is stored in its area in memory, through the slot engine's port: `n` bytes, whose layout the spec does not
give and whose content is open (rules R255, R263 and R514; assumption log 29). -/
def Dev.areaWrite (s : Dev) (a n : Nat) : Dev := (s.put8 0x0C a (s.freeBytes n)).drewN n

/-- The lowest place that no record takes. -/
def freeSlot (l : List Nat) : Nat := ((List.range 256).find? fun i => !l.contains i).getD 0

/-- The transaction in place `i` is stored. -/
def Dev.txnStore (s : Dev) (i : Nat) : Dev := s.areaWrite (s.rd ML_TXN_BASE_ADDR * 32 + 32 * i) 32

/-- A transaction opens in a free place. -/
def Dev.txnOpen (s : Dev) (t : Txn) : Dev :=
  let i := freeSlot (s.ml.txns.map (·.slot))
  (s.onMl fun m => { m with txns := m.txns ++ [{ t with slot := i }] }).txnStore i

/-- A transaction closes. -/
def Dev.txnClose (s : Dev) (id : Nat) : Dev :=
  let u := s.onMl fun m => { m with txns := m.txns.filter fun t => t.id != id }
  match s.txnOf id with
  | some t => u.txnStore t.slot
  | none => u

/-- A transaction takes a record. -/
def Dev.txnSet (s : Dev) (t : Txn) : Dev :=
  (s.onMl fun m => { m with txns := m.txns.map fun x => if x.id = t.id then t else x }).txnStore t.slot

/-- An open transaction completes its submission. -/
def Dev.txnDone (s : Dev) (t : Txn) (st : Status) : Dev := (s.txnClose t.id).mlComplete t.sub st t.tries t.tag t.id t.dest

/-- A forward goes on after one of its fragments has completed: a failing one ends it, its fragments that are not in flight leave
their queue, and the descriptors stay held until those in flight have completed too (rule R259). -/
def Dev.forwardDone (s : Dev) (k : Nat) (x : Sending) (descs : List Nat) (failed : Bool) (rest : List Nat) (st : Status) : Dev :=
  let fails := st != .ok && !failed
  let stay := if fails then rest.filter s.qInFlight else rest
  let s := if fails then s.each (rest.filter fun y => !s.qInFlight y) fun s y => s.qDrop k (s.qOf y) y else s
  let s := if fails then s.bump ML_CNT_FWD_FAIL_COUNT else s
  if stay = [] then (s.onMl fun m => { m with sends := m.sends.filter fun y => y != x }).descsFree descs
  else s.onMl fun m => { m with sends := m.sends.map fun y =>
    if y = x then { y with entries := stay, what := .forward descs (failed || fails) } else y }

/-- The message layer hears that the fragment of a queue entry of engine `k` has completed. -/
def Dev.sendDone (s : Dev) (k e : Nat) (st : Status) : Dev :=
  match s.ml.sends.find? fun x => x.entries.contains e with
  | none => s
  | some x =>
    let rest := x.entries.filter fun y => y != e
    let gone := s.onMl fun m => { m with sends := m.sends.filter fun y => y != x }
    let next := s.onMl fun m => { m with sends := m.sends.map fun y => if y = x then { y with entries := rest } else y }
    match x.what with
    | .layer => if rest = [] then gone else next
    | .forward descs failed => s.forwardDone k x descs failed rest st
    | .submit sub tag opened =>
      if st ≠ .ok then
        match opened, gone.txnOf x.txn with
        | true, some t => gone.txnDone t st
        | true, none => gone
        | false, _ => gone.mlComplete sub st x.tries tag x.txn x.dest
      else if rest ≠ [] then next
      else if opened then
        match gone.txnOf x.txn with
        | some t => gone.txnSet { t with since := some gone.now }
        | none => gone
      else gone.mlComplete sub .ok x.tries tag x.txn x.dest

/-- A queue entry of engine `k` completes with a status: it leaves its queue and goes back to the message layer. -/
def Dev.entryDone (s : Dev) (k e : Nat) (st : Status) : Dev :=
  let q := s.qOf e
  ((s.qMark k e false).qw k e 0x0A 1 st.code).qDrop k q e |>.sendDone k e st

/-- Every queue entry of partner `i` completes with a status. -/
def Dev.queueEmpty (s : Dev) (i : Nat) (st : Status) : Dev :=
  let k := (s.leOfPartner i).getD 0
  s.each (s.qList i) fun s e => s.entryDone k e st

end Sys2Proof.Machine
end

