-- ==== Sys2Proof/Machine/Sleeves.lean ====
section
/-!
DEFINITION. The sleeve bank (chapter 04): detection, the diversity decision, sync, the lining, re-search, the header and its
route, the end of a frame, deferred writes, arms, restarts and rotation.
-/

namespace Sys2Proof.Machine

/-! ### Branches -/

/-- Is branch `c` of a band usable: its chain on, its aerial in service, no chain item on it (rule R119)? -/
def Dev.branchOk (s : Dev) (b c : Nat) : Bool := s.chainOn b c && s.rd (RF_STATE_CAL_ITEM b) != c + 1

/-- The branches an assignment searches (rules R91, R118 and R119): one fixed to a retired aerial moves to its partner. -/
def Dev.branches (s : Dev) (n : Nat) : List Nat :=
  let b := s.slvBand n
  let gone (c : Nat) : Bool := if c = 0 then s.on (RF_STATE_A_RETIRED b) else s.on (RF_STATE_B_RETIRED b)
  let want := match s.rd (SLV_ASSIGN_AERIAL n) with
    | 1 => if gone 0 then [1] else [0]
    | 2 => if gone 1 then [0] else [1]
    | _ => [0, 1]
  want.filter (s.branchOk b)

/-- A reception of which only the detection is known. -/
def RxFrame.start (branch : Nat) (ts : Nat) (arm : Option Nat) (ring trunc : Bool) : RxFrame :=
  { branch := branch, diversity := false, detA := if branch = 0 then some ts else none,
    detB := if branch = 1 then some ts else none, tsDetect := ts, tsRef := 0, coded := false, errs := 0, rssi := 0,
    rssiA := -128, rssiB := -128, noise := 0, gain := 0, gainStep := false, lined := false, trunc := trunc, fromRing := ring,
    mcs := 0, fcs2 := false, phr := [], psduLen := 0, white := false, staged := [], le := 0, arm := arm, reason := 0,
    partner := 0xFFFF, ring := none, desc := none, control := false }

/-- The frame of an assignment takes a record. -/
def Dev.setFrame (s : Dev) (n : Nat) (f : RxFrame) : Dev := s.setSleeve n { s.sleeve n with frame := some f }

/-- The link engine that arms the assignment now. -/
def Dev.armOf (s : Dev) (n : Nat) : Option Nat :=
  if s.on (SLV_ROUTE_ARMED n) then some (s.rd (SLV_ROUTE_ARM_LE n)) else none

/-- Is the assignment the one a sniff window runs (rule R422)? -/
def Dev.sniffs (s : Dev) (n : Nat) : Bool := s.mnt.stage == .window && s.rd MNT_SNIFF_ASSIGN == n

/-! ### Detection to sync (rules R118 to R122) -/

/-- The branch is chosen: SYNC on it (rule R120). -/
def Dev.choose (s : Dev) (n c : Nat) (div : Bool) : Dev :=
  match (s.sleeve n).frame with
  | none => s
  | some f =>
    let ts := ((if c = 0 then f.detA else f.detB).getD f.tsDetect)
    let s := s.setFrame n { f with branch := c, diversity := div, tsDetect := ts }
    (s.wr (SLV_STATE_BRANCH n) c).slvState n 4

/-- Does a detection at sample time `ts` rest on samples a sleeve never uses: before the start of its re-search, or marked (rules R76,
R118 and R130)? -/
def Dev.detectBad (s : Dev) (n c ts : Nat) : Bool :=
  let v := s.sleeve n
  (v.research && !tsLe v.start ts) || s.marked (s.slvBand n) c (s.age ts)

/-- R118: a branch detects a preamble. A search enters ACQUIRE; the other branch's detection joins it. -/
def Dev.detect (s : Dev) (n c ts : Nat) : Dev :=
  let st := s.rd (SLV_STATE_STATE n)
  let l := s.branches n
  if !l.contains c then s
  else if (st = 2 ∨ st = 7) ∧ !s.detectBad n c ts then
    let v := s.sleeve n
    let s := (s.bump (SLV_CNT_DETECT_COUNT n)).setFrame n (.start c ts (s.armOf n) v.research (v.research && v.trunc))
    let s := if s.sniffs n then { s with mnt := { s.mnt with sniffSync := true } } else s
    let s := (s.wr (SLV_STATE_BRANCH n) c).slvState n 3
    if l.length = 1 then s.choose n c false else s
  else if st = 3 then
    match (s.sleeve n).frame with
    | none => s
    | some f =>
      s.setFrame n (if c = 0 then { f with detA := f.detA.or (some ts) } else { f with detB := f.detB.or (some ts) })
  else s

/-- The branch of a diversity decision: the higher estimate, in 0.01 dB; within 1 dB the first to detect, A on a tie
(rule R120). -/
def betterBranch (f : RxFrame) (a b : Int) : Nat :=
  if 100 < (a - b).natAbs then (if b < a then 0 else 1)
  else match f.detA, f.detB with
    | some x, some y => if tsLe x y then 0 else 1
    | none, some _ => 1
    | _, none => 0

/-- The diversity decision point after detection, in counts (Table 04-2); the end of the STF of OFDM is not tied to the
moment of detection. -/
def Dev.divWait (s : Dev) (n : Nat) : Nat :=
  match s.rd (SLV_ASSIGN_MODE n) with
  | 0 => max 1 (s.rd (SLV_SYNC_CFG_DIV_SYMBOLS n)) * 8000 / fskRate (s.rd (SLV_FSK_RATE n))
  | 1 => 512
  | _ => 0

/-- R120: the diversity decision. -/
def Dev.diversity (s : Dev) (n : Nat) (a b : Int) : Dev :=
  if s.rd (SLV_STATE_STATE n) ≠ 3 then s
  else match (s.sleeve n).frame with
    | none => s
    | some f =>
      if tsDiff (s.readPoint n) f.tsDetect < s.divWait n then s else s.choose n (betterBranch f a b) true

/-- The sync that the bits at a position make: whether the frame is coded, and the errors (rule R121 and Table 04-2). The low LEN
bits are compared; the word with fewer errors wins, SLV_SYNC0 a tie. -/
def Dev.syncOf (s : Dev) (n : Nat) (q : SyncSeen) : Option (Bool × Nat) :=
  match s.rd (SLV_ASSIGN_MODE n) with
  | 0 =>
    let w := 2 ^ syncLen (s.rd (SLV_SYNC_CFG_LEN n))
    let tol := min 4 (s.rd (SLV_SYNC_CFG_ERR_TOL n))
    let e0 := bitErrs (q.word.toNat % w) (s.rd (SLV_SYNC0_WORD n) % w)
    let e1 := bitErrs (q.word.toNat % w) (s.rd (SLV_SYNC1_WORD n) % w)
    let ok0 := s.on (SLV_FSK_ACCEPT_UNCODED n) && decide (e0 ≤ tol)
    let ok1 := s.on (SLV_FSK_ACCEPT_CODED n) && decide (e1 ≤ tol)
    if ok0 && (!ok1 || decide (e0 ≤ e1)) then some (false, e0) else if ok1 then some (true, e1) else none
  | 1 =>
    let tol := s.rd (SLV_SYNC_CFG_CHIP_ERR n)
    if q.chip0.toNat ≤ tol ∧ q.chip1.toNat ≤ tol then some (false, q.chip0.toNat + q.chip1.toNat) else none
  | _ => some (false, 0)

/-- How long the sleeve waits for the sync point after detection, in counts (Table 04-2). -/
def Dev.syncWait (s : Dev) (n : Nat) : Nat :=
  match s.rd (SLV_ASSIGN_MODE n) with
  | 0 => ceilDiv (max 1 (s.rd (SLV_ACQ_SYNC_WAIT n)) * 8000) (fskRate (s.rd (SLV_FSK_RATE n)))
  | 1 => 16 * 128
  | _ => 8 * 960

/-- What a sleeve has measured at the sync point goes into its frame; a branch it does not search is not measured, and the gain is the
present step of the chosen chain (rules R139 and R140). -/
def Dev.synced (s : Dev) (n c : Nat) (f : RxFrame) (k : Bool × Nat) (ts : Nat) (m : SyncMeas) : RxFrame :=
  let l := s.branches n
  { f with tsRef := ts, coded := k.1, errs := k.2, rssi := m.rssi, rssiA := if l.contains 0 then m.rssiA else -128,
           rssiB := if l.contains 1 then m.rssiB else -128, noise := m.noise, gain := s.rd (stepFld (s.slvBand n) c) }

/-- R121: the sync point is found within its waiting time; the header is read. In a sniff window the match is the SNIFF wake source and
no report follows (rules R422 and R423). -/
def Dev.sync (s : Dev) (n c : Nat) (q : SyncSeen) (ts : Nat) (m : SyncMeas) : Dev :=
  let st := s.rd (SLV_STATE_STATE n)
  match s.syncOf n q, (s.sleeve n).frame with
  | some k, some o =>
    if !(st == 3 || st == 4) || !(s.branches n).contains c || decide ((s.syncWait n : Int) < tsDiff ts o.tsDetect) then s
    else if st = 4 ∧ s.rd (SLV_STATE_BRANCH n) ≠ c then s
    else
      let s := if st = 3 then s.choose n c false else s
      if s.sniffs n then
        ({ s with mnt := { s.mnt with sniffSync := false } }).wakeHit 17 |>.slvLeave n
      else match (s.sleeve n).frame with
        | none => s
        | some f => (s.setFrame n (s.synced n c f k ts m)).slvState n 5
  | _, _ => s

/-! ### Failures before payload and re-search (rules R129 to R132) -/

/-- Does a deferred write name the channel register? -/
def Dev.chanWaits (s : Dev) (n : Nat) : Bool := (s.sleeve n).waiting.any fun p => p.1 == SLV_CHAN n

/-- The distance from the first sample of a detection span to the moment of detection, less one symbol period, in counts (rule R130
and Table 04-2). -/
def Dev.spanBack (s : Dev) (n : Nat) : Nat :=
  match s.rd (SLV_ASSIGN_MODE n) with
  | 0 => (min 64 (max 8 (s.rd (SLV_SYNC_CFG_PRE_DETECT n))) - 1) * 8000 / fskRate (s.rd (SLV_FSK_RATE n))
  | 1 => 128
  | _ => 480

/-- Where the re-search after a failed reception starts, as an age in counts, and whether that is later than intended: the first
usable sample, on any branch searched, at or after the intended start, the oldest sample in the ring and the start of the re-search
that found the reception (rules R130 and R132; assumption log 57). -/
def Dev.researchFrom (s : Dev) (n : Nat) (f : RxFrame) : Option (Nat × Bool) :=
  let want := s.age f.tsDetect + s.spanBack n
  let a := min want ringDepth
  let a := if f.fromRing then min a (s.age (s.sleeve n).start) else a
  ((s.branches n).foldl (fun r c => match s.usableFrom (s.slvBand n) c a, r with
    | some x, some y => some (max x y)
    | some x, none => some x
    | none, r => r) none).map fun x => (x, decide (x < want))

/-- A reception fails before its payload: the sleeve leaves the frame and re-searches the ring, or searches live (rules R129 to
R132). -/
def Dev.hdrFail (s : Dev) (n : Nat) (ring : RingRead) : Dev :=
  match (s.sleeve n).frame with
  | none => s
  | some f =>
    let c := s.rd (SLV_STATE_BRANCH n)
    let moved := s.chanWaits n
    let s := (s.bump (SLV_CNT_HDR_FAIL_COUNT n)).slvLeave n
    if s.on (SLV_CTRL_RESEARCH_EN n) ∧ !moved ∧ s.rd (SLV_STATE_STATE n) = 2 then
      let s := s.ringMet (s.slvBand n) c ring
      match s.researchFrom n f with
      | none => s
      | some (a, late) =>
        let s := s.bump (SLV_CNT_RESEARCH_COUNT n)
        let s := if late then (s.set SLV_EVENTS_RESEARCH_TRUNC).bump (SLV_CNT_TRUNC_COUNT n) else s
        let s := s.setSleeve n
          { s.sleeve n with research := true, trunc := late, start := tsAdd s.now (-(a : Int)), began := s.now }
        (s.set (SLV_STATE_FROM_RING n)).slvState n 7
    else s

/-- R129: the waiting time of the sync point has run out without a sync. -/
def Dev.syncLate (s : Dev) (n : Nat) (ring : RingRead) : Dev :=
  match (s.sleeve n).frame with
  | none => s
  | some f =>
    if s.rd (SLV_STATE_STATE n) ≠ 4 ∨ tsDiff (s.readPoint n) f.tsDetect < s.syncWait n then s
    else
      let s := if s.sniffs n then { s with mnt := { s.mnt with sniffSync := false } } else s
      s.hdrFail n ring

/-- R131: the read point of a re-search has reached live samples. -/
def Dev.reachLive (s : Dev) (n : Nat) : Dev :=
  if !(s.sleeve n).research ∨ s.readPoint n ≠ s.now then s
  else
    let s := s.slvQuit n
    if s.rd (SLV_STATE_STATE n) = 7 then s.slvState n (s.slvRest n) else s

/-! ### The lining (rules R126 to R128) -/

/-- Is a sync complete after `before` preamble symbols, zero symbols or STF periods (rule R127)? -/
def Dev.liningFull (s : Dev) (n before : Nat) : Bool := decide ((if s.rd (SLV_ASSIGN_MODE n) = 0 then 8 else 4) ≤ before)

/-- R128: the lining fires on a complete sync elsewhere than that of the frame in progress, stronger by `stronger` in 0.5 dB, and the
sleeve continues with that frame. -/
def Dev.lining (s : Dev) (n c : Nat) (q : SyncSeen) (before det ts : Nat) (m : SyncMeas) (stronger : Nat) : Dev :=
  let st := s.rd (SLV_STATE_STATE n)
  match s.syncOf n q, (s.sleeve n).frame with
  | some k, some o =>
    if !(st == 3 || st == 4 || st == 5) || !s.on (SLV_CTRL_LINING_EN n) || !s.liningFull n before ||
        !(s.branches n).contains c || decide (stronger < max 1 (s.rd (SLV_ACQ_MARGIN n))) || (st == 5 && ts == o.tsRef) then s
    else
      let v := s.sleeve n
      let f := { RxFrame.start c det o.arm v.research (v.research && v.trunc) with lined := true }
      let s := (s.bump (SLV_CNT_LINING_COUNT n)).setFrame n (s.synced n c f k ts m)
      (s.wr (SLV_STATE_BRANCH n) c).slvState n 5
  | _, _ => s

/-! ### The header (rules R134 and R135) -/

/-- The default link engine: 6 and 7 act as 0. -/
def Dev.defaultLe (s : Dev) : Nat := if 6 ≤ s.rd SLV_COMMON_DEFAULT_LE then 0 else s.rd SLV_COMMON_DEFAULT_LE

/-- The longest PSDU the assignment accepts (Table 04-15). -/
def Dev.maxPsdu (s : Dev) (n : Nat) : Nat :=
  let m := s.rd (SLV_MAX_PSDU_MAX n)
  if s.rd (SLV_ASSIGN_MODE n) = 1 then min 127 m else m

/-- The route of a report: link engine, reason and partner index (rule R135). The partner is looked up for an armed
frame too (assumption log 8); while the key index is being rebuilt no lookup is made (rule R245). -/
def Dev.route (s : Dev) (arm : Option Nat) (staged : List Byte) : Dev × Nat × Nat × Nat :=
  let r : Dev × Option Nat := match (macOf staged).key with
    | some k => if s.ml.rebuilding then (s, none) else s.ptLookup k
    | none => (s, none)
  let s := r.1
  let idx := r.2.getD 0xFFFF
  match arm with
  | some k => (s, s.lePhys k, 0, idx)
  | none =>
    match r.2.bind s.leOfPartner with
    | some k => (s, k, 1, idx)
    | none => (s, s.lePhys s.defaultLe, 2, idx)

/-- A frame is dropped for want of a report entry or a descriptor. -/
def Dev.rxDrop (s : Dev) (n : Nat) : Dev := s.bump (SLV_CNT_DROP_COUNT n)

/-- Step 1 of rule R134: a PSDU over the limit is reported with TOO_LONG, or dropped. -/
def Dev.tooLong (s : Dev) (n : Nat) (f : RxFrame) : Dev :=
  let k := match f.arm with
    | some k => s.lePhys k
    | none => s.lePhys s.defaultLe
  if s.rqFree k then
    (s.rqReserve k).setFrame n { f with le := k, reason := if f.arm.isSome then 0 else 2, ring := some k }
      |>.slvBreak n .tooLong
  else ((s.rxDrop n).set SLV_EVENTS_REPORT_Q_FULL).slvLeave n

/-- Steps 2 to 5 of rule R134. -/
def Dev.headerPass (s : Dev) (n : Nat) (f : RxFrame) : Dev :=
  let r := s.route f.arm f.staged
  let s := r.1
  let t := (macOf f.staged).ftype
  let control := t == 2 || t == 3
  let f := { f with le := r.2.1, reason := r.2.2.1, partner := r.2.2.2, control := control }
  if !s.rqFree f.le then ((s.rxDrop n).set SLV_EVENTS_REPORT_Q_FULL).slvLeave n
  else
    let s := s.rqReserve f.le
    let f := { f with ring := some f.le }
    match s.poolRequest (s.rangeOf f.le) control f.psduLen with
    | (s, none) => ((s.rxDrop n).setFrame n f).slvBreak n .busy
    | (s, some i) => (s.setFrame n { f with desc := some i }).slvState n 6

/-- The PHR as a report shows it (rule R157). -/
def phrShown (mode : Nat) (phr : List Byte) : List Byte :=
  match mode with
  | 0 => phr.take 2
  | 1 => phr.take 1
  | _ => leBytes 4 (fieldAt phr 0 4 % 2 ^ 30)

/-- R134: the PHR is received whole and checked; `staged` are the first PSDU octets after decoding, whitening still on (rule R155). -/
def Dev.header (s : Dev) (n : Nat) (phr : List Byte) (tail : Bool) (staged : List Byte) (ring : RingRead) : Dev :=
  if s.rd (SLV_STATE_STATE n) ≠ 5 then s
  else match (s.sleeve n).frame with
    | none => s
    | some f =>
      let mode := s.rd (SLV_ASSIGN_MODE n)
      let opt := if s.rd (SLV_OFDM_OPTION n) = 0 ∨ 5 ≤ s.rd (SLV_OFDM_OPTION n) then 1 else s.rd (SLV_OFDM_OPTION n)
      match phrCheck mode f.coded tail phr with
      | none => s.hdrFail n ring
      | some h =>
        if mode = 2 ∧ !(mcsValid opt h.2.2.2 && s.bit (SLV_OFDM_MCS_MASK n) h.2.2.2) then s.hdrFail n ring
        else
          let arm := (s.armOf n).or f.arm
          let f := { f with phr := phrShown mode phr, psduLen := h.1, fcs2 := h.2.1, white := h.2.2.1, mcs := h.2.2.2,
                            arm := arm, staged := whiten h.2.2.1 (staged.take 64) }
          let s := if f.fromRing then s.bump (SLV_CNT_FOUND_COUNT n) else s
          if s.maxPsdu n < h.1 then s.tooLong n f else s.headerPass n f

/-! ### The end of a frame (rules R136 to R138) -/

/-- The status of a frame that ends before its last symbol. -/
def RxEnd.status : RxEnd → Status
  | .complete => .ok
  | .restarted => .aborted
  | .domainOff => .aborted
  | .unlocked => .synthUnlock
  | .blanked => .bandBlanked
  | .samplesLost => .samplesLost

/-- R137: the frame ends; whitening is removed from the octets decoded (rule R155), and a complete PSDU's FCS is checked. A second
event in the tick in which the frame has ended ranks against the first. -/
def Dev.frameEnd (s : Dev) (n : Nat) (e : RxEnd) (psdu : List Byte) (m : EndMeas) : Dev :=
  if !s.on (SLV_STATE_IN_FRAME n) then (if e = .complete then s else s.slvRankEnd n e.status)
  else match (s.sleeve n).frame with
    | none => s
    | some f =>
      let data := whiten f.white (psdu.take f.psduLen)
      let s := match f.desc with
        | some i => s.stow 0x0D (s.bufAddr i) data
        | none => s
      if e = .complete then
        if s.rd (SLV_STATE_STATE n) ≠ 6 then s
        else if data.length = f.psduLen ∧ fcsOk f.fcs2 data then
          (s.bump (SLV_CNT_OK_COUNT n)).slvEnd n .ok data.length m
        else (s.bump (SLV_CNT_FCS_FAIL_COUNT n)).slvEnd n .fcsFail data.length m
      else s.slvEnd n e.status data.length m

/-! ### Writes, arms, restarts (rules R114 to R117, R144 and R213) -/

/-- A write waits until the sleeve leaves its frame; the last value written is used. -/
def Dev.slvDefer (s : Dev) (n a v : Nat) : Dev :=
  s.setSleeve n { s.sleeve n with waiting := (s.sleeve n).waiting.filter (fun p => p.1 != a) ++ [(a, v)] }

/-- R114: a write to SLV_CHAN: the status it completes with. -/
def Dev.chanWrite (s : Dev) (n v : Nat) : Dev × Status :=
  let b := s.slvBand n
  let khz := v % 2 ^ 24
  if s.rd (SLV_ASSIGN_BAND n) ≠ 0 ∧ s.narrow b then (s, .ok)
  else if !s.inWindow b khz then (s.set SLV_EVENTS_CHAN_REFUSED, .chanOutside)
  else if s.on (SLV_STATE_IN_FRAME n) then ((s.slvDefer n (SLV_CHAN n) khz).set (SLV_CHAN_PENDING n), .ok)
  else
    let s := s.wr (SLV_CHAN_CHANNEL_KHZ n) khz
    if (s.sleeve n).research then
      let s := s.slvQuit n
      (s.slvState n (s.slvRest n), .ok)
    else (s, .ok)

/-- R115: the deferred writes of a sleeve that is not inside a frame take effect together. -/
def Dev.deferredApply (s : Dev) (n : Nat) : Dev :=
  if s.on (SLV_STATE_IN_FRAME n) then s
  else
    let s := s.slvApply n
    if s.rd (SLV_STATE_STATE n) = 1 ∨ s.rd (SLV_STATE_STATE n) = 2 then s.slvState n (s.slvRest n) else s

/-- R117: SLV_CTRL is written; ENABLE 0 waits inside a frame, the other fields take effect. In rejoin search an assignment with
SLOT_ARMED is armed continuously (rule R231). -/
def Dev.ctrlWrite (s : Dev) (n v : Nat) : Dev :=
  if s.on (SLV_STATE_IN_FRAME n) ∧ v % 2 = 0 ∧ s.on (SLV_CTRL_ENABLE n) then
    (s.setReg (SLV_CTRL n) (BitVec.ofNat 32 (v % 16 / 2 * 2 + 1))).slvDefer n (SLV_CTRL n) (v % 16)
  else
    let s := s.setSleeve n { s.sleeve n with waiting := (s.sleeve n).waiting.filter fun p => p.1 != SLV_CTRL n }
    let s := s.setReg (SLV_CTRL n) (BitVec.ofNat 32 (v % 16))
    let s := if s.rd SE_STATUS_STATE = 2 ∧ s.on (SLV_CTRL_SLOT_ARMED n) ∧ s.rd (SLV_ASSIGN_BAND n) ≠ 0 then
        s.set (SLV_ROUTE_ARMED n) else s
    if s.on (SLV_STATE_IN_FRAME n) ∨ (s.sleeve n).research ∧ s.slvWants n then s
    else let s := s.slvQuit n; s.slvState n (s.slvRest n)

/-- R213: the slot engine arms an assignment for a link. -/
def Dev.arm (s : Dev) (n k : Nat) : Dev :=
  let s := (s.wr (SLV_ROUTE_ARM_LE n) k).set (SLV_ROUTE_ARMED n)
  if s.rd (SLV_STATE_STATE n) = 1 then s.slvState n (s.slvRest n) else s

/-- R117: the slot engine disarms an assignment; a frame in progress runs on. -/
def Dev.disarm (s : Dev) (n : Nat) : Dev :=
  let s := s.clr (SLV_ROUTE_ARMED n)
  let st := s.rd (SLV_STATE_STATE n)
  if (st = 2 ∨ st = 7) ∧ !s.slvWants n then
    (s.slvQuit n).slvState n 1
  else s

/-- R144: a sleeve fault is charged to the physical sleeve that carries the assignment. -/
def Dev.slvFault (s : Dev) (n : Nat) (buffer : Bool) : Dev :=
  if s.on (SLV_ASSIGN_UNSERVED n) then s
  else s.charge (0x20 + s.phys n) (if buffer then .bufferUncorr else .stateTimeout) 0

/-- R144: the restart in place of the sleeve that carries an assignment ends. -/
def Dev.slvRestarted (s : Dev) (n : Nat) : Dev :=
  let p := s.phys n
  if !s.bank.restarting.contains p then s
  else
    let s := { s with bank := { s.bank with restarting := s.bank.restarting.filter (· != p) } }
    let s := s.unitState (0x20 + p) (if s.bit SLV_SPARES_MASK p then 2 else 0)
    s.slvState n (s.slvRest n)

/-! ### Rotation (rule R147) -/

/-- The entry that physical spare `p` stands on takes a sleeve state. -/
def Dev.spareState (s : Dev) (p st : Nat) : Dev :=
  match s.carriedBy p with
  | some n =>
    let old := s.rd (SLV_STATE_STATE n)
    if s.on (SLV_ASSIGN_SPARE n) ∧ (old = 9 ∨ old = 10) then s.slvState n st else s
  | none => s

/-- R147: every physical spare starts its self-test, every ROT_PERIOD_S seconds. -/
def Dev.slvTest (s : Dev) : Dev :=
  if s.rd SLV_COMMON_ROT_PERIOD_S = 0 ∨ !s.waited .slvTest (us (1000000 * s.rd SLV_COMMON_ROT_PERIOD_S)) then s
  else
    let l := (List.range 32).filter fun p => s.bit SLV_SPARES_MASK p && !s.bit SLV_RETIRED_MASK p
    let s := ({ s with bank := { s.bank with testing := l } }).mark .slvTest
    s.each l fun s p => (s.spareState p 10).unitState (0x20 + p) 3

/-- Is an assignment of the kind of physical sleeve `p`, and in service? -/
def Dev.rotates (s : Dev) (p n : Nat) : Bool :=
  s.rd (SLV_ASSIGN_BAND n) != 0 && !s.on (SLV_ASSIGN_SPARE n) && !s.on (SLV_ASSIGN_UNSERVED n) &&
    (s.on (SLV_ASSIGN_WIDE_PHYS n) == decide (24 ≤ p))

/-- The next assignment of the round robin of `p`'s kind. -/
def Dev.nextRotation (s : Dev) (p : Nat) : Option Nat :=
  let from_ := if 24 ≤ p then s.bank.nextWide else s.bank.nextNarrow
  ((List.range 32).map fun i => (from_ + i) % 32).find? (s.rotates p)

/-- R147: a spare's self-test of 8 ms per mode ends; on a pass it searches beside the next assignment, on a fail it is charged. -/
def Dev.slvTested (s : Dev) (p : Nat) (pass : Bool) : Dev :=
  if !s.bank.testing.contains p ∨ !s.waited .slvTest (us (if 24 ≤ p then 24000 else 16000)) then s
  else
    let s := { s with bank := { s.bank with testing := s.bank.testing.filter (· != p) } }
    let s := (s.spareState p 9).unitState (0x20 + p) 2
    if pass then
      match s.nextRotation p with
      | some n =>
        { s.mark (.swap p) with bank := { s.bank with
            swap := s.bank.swap.filter (fun x => x.1 != p) ++ [(p, n)],
            nextNarrow := if 24 ≤ p then s.bank.nextNarrow else (n + 1) % 32,
            nextWide := if 24 ≤ p then (n + 1) % 32 else s.bank.nextWide } }
      | none => s
    else (s.set SLV_EVENTS_SELFTEST_FAIL).charge (0x20 + p) .selftestFail 0

/-- R147: the roles swap at a moment the carrying sleeve is not inside a frame. -/
def Dev.slvSwap (s : Dev) (p : Nat) : Dev :=
  match s.bank.swap.find? fun x => x.1 == p with
  | none => s
  | some x =>
    let n := x.2
    if s.on (SLV_STATE_IN_FRAME n) ∨ !s.rotates p n ∨ !s.bit SLV_SPARES_MASK p then s
    else
      let q := s.phys n
      let s := match s.carriedBy p with
        | some m => s.slvCarry m q
        | none => s
      let s := (s.slvCarry n p).putBit SLV_SPARES_MASK p false
      let s := ((s.putBit SLV_SPARES_MASK q true).unitState (0x20 + p) 0).unitState (0x20 + q) 2
      { s with bank := { s.bank with swap := s.bank.swap.filter (fun y => y.1 != p) } }.set SLV_EVENTS_ROTATED

/-- R147: no swap moment came within 10 s; the assignment is passed over. -/
def Dev.slvPass (s : Dev) (p : Nat) : Dev :=
  if !s.waited (.swap p) (us 10000000) then s
  else { s with bank := { s.bank with swap := s.bank.swap.filter (fun y => y.1 != p) } }

/-! ### Meanings -/

/-- PREAMBLE_DETECT, rule R118. -/
def execPreambleDetect (n : Fin 32) (branch : Fin 2) (ts : BitVec 48) : State → Host.Outcome State Fault Refusal :=
  onDev (·.detect n branch ts.toNat)
/-- DIVERSITY_DECISION, rule R120. -/
def execDiversityDecision (n : Fin 32) (snrA snrB : Int) : State → Host.Outcome State Fault Refusal :=
  onDev (·.diversity n snrA snrB)
/-- SYNC_MATCH, rule R121. -/
def execSyncMatch (n : Fin 32) (branch : Fin 2) (seen : SyncSeen) (ts : BitVec 48) (m : SyncMeas) :
    State → Host.Outcome State Fault Refusal := onDev (·.sync n branch seen ts.toNat m)
/-- SYNC_TIMEOUT, rule R129. -/
def execSyncTimeout (n : Fin 32) (ring : RingRead) : State → Host.Outcome State Fault Refusal := onDev (·.syncLate n ring)
/-- LINING_FIRE, rule R128. -/
def execLiningFire (n : Fin 32) (branch : Fin 2) (seen : SyncSeen) (before : Nat) (det ts : BitVec 48) (m : SyncMeas)
    (stronger : Nat) : State → Host.Outcome State Fault Refusal :=
  onDev (·.lining n branch seen before det.toNat ts.toNat m stronger)
/-- HEADER_DONE, rule R134. -/
def execHeaderDone (n : Fin 32) (phr : List Byte) (tail : Bool) (staged : List Byte) (ring : RingRead) :
    State → Host.Outcome State Fault Refusal := onDev (·.header n phr tail staged ring)
/-- RESEARCH_REACH_LIVE, rule R131. -/
def execResearchReachLive (n : Fin 32) : State → Host.Outcome State Fault Refusal := onDev (·.reachLive n)
/-- SLEEVE_FRAME_END, rule R137. -/
def execSleeveFrameEnd (n : Fin 32) (e : RxEnd) (psdu : List Byte) (m : EndMeas) :
    State → Host.Outcome State Fault Refusal := onDev (·.frameEnd n e psdu m)
/-- SLV_CHAN_WRITE, rule R114. -/
def execSlvChanWrite (ini : Ini) (n : Fin 32) (v : Word) : State → Host.Outcome State Fault Refusal :=
  onDev fun s => s.guarded ini (SLV_CHAN n) fun s => let r := s.chanWrite n v.toNat; (r.1, r.2, 0)
/-- SLV_DEFERRED_APPLY, rule R115. -/
def execSlvDeferredApply (n : Fin 32) : State → Host.Outcome State Fault Refusal := onDev (·.deferredApply n)
/-- REPORT_RING_SIZE_WRITE, rule R142. -/
def execReportRingSizeWrite (ini : Ini) (k : Fin 6) (v : Word) : State → Host.Outcome State Fault Refusal :=
  onDev (·.cmdAt ini (SLV_RQ_SIZE k) (·.rqSizeWrite k v.toNat))
/-- REPORT_RING_OFF, rule R142. -/
def execReportRingOff (k : Fin 6) : State → Host.Outcome State Fault Refusal := onDev (·.rqSettle k)
/-- SLEEVE_STATE_TIMEOUT, rule R144. -/
def execSleeveStateTimeout (n : Fin 32) (buffer : Bool) : State → Host.Outcome State Fault Refusal :=
  onDev (·.slvFault n buffer)
/-- SLEEVE_RESTART_DONE, rule R144. -/
def execSleeveRestartDone (n : Fin 32) : State → Host.Outcome State Fault Refusal := onDev (·.slvRestarted n)
/-- SLEEVE_SELFTEST_START, rule R147. -/
def execSleeveSelftestStart : State → Host.Outcome State Fault Refusal := onDev (·.slvTest)
/-- SLEEVE_SELFTEST_DONE, rule R147. -/
def execSleeveSelftestDone (p : Fin 32) (pass : Bool) : State → Host.Outcome State Fault Refusal :=
  onDev (·.slvTested p pass)
/-- SLEEVE_ROTATION_SWAP, rule R147. -/
def execSleeveRotationSwap (p : Fin 32) : State → Host.Outcome State Fault Refusal := onDev (·.slvSwap p)
/-- SLEEVE_ROTATION_TIMEOUT, rule R147. -/
def execSleeveRotationTimeout (p : Fin 32) : State → Host.Outcome State Fault Refusal := onDev (·.slvPass p)

end Sys2Proof.Machine
end

