-- ==== Sys2Proof/Machine/Grid.lean ====
section
/-!
DEFINITION. The slot grid, partner timing and the hem, slotframes, links and channels, and the dwell ledger (rules R196 to
R214 and R226 to R229).
-/

namespace Sys2Proof.Machine

/-! ### Registers of the template, as they act -/

/-- SLOT_LEN in counts. -/
def Dev.slotLen (s : Dev) : Nat := max 8000 (min 3200000 (s.rd SE_SLOT_LEN_LEN))
/-- TX_OFFSET in counts. -/
def Dev.txOffset (s : Dev) : Nat := us (s.rd SE_TEMPLATE0_TX_OFFSET_US)
/-- ACK_DELAY in counts. -/
def Dev.ackDelay (s : Dev) : Nat := us (max 100 (s.rd SE_TEMPLATE0_ACK_DELAY_US))
/-- ACK_GUARD in counts. -/
def Dev.ackGuard (s : Dev) : Nat := us (s.rd SE_TEMPLATE1_ACK_GUARD_US)
/-- ACK_MAX_US in counts. -/
def Dev.ackMax (s : Dev) : Nat := us (s.rd SE_TEMPLATE1_ACK_MAX_US)
/-- PREP_LEAD in counts. -/
def Dev.prepLead (s : Dev) : Nat := us (s.rd SE_LEAD0_PREP_LEAD_US)
/-- HOP_LEAD in counts. -/
def Dev.hopLead (s : Dev) : Nat := us (max 220 (s.rd SE_LEAD1_HOP_LEAD_US))
/-- 2^STEP_SHIFT of rule R224. -/
def Dev.catchDiv (s : Dev) : Nat := 2 ^ max 1 (s.rd SE_CATCHUP_STEP_SHIFT)

/-! ### Partner timing (rules R201 to R207) -/

/-- OFFSET of a partner. -/
def Dev.pOffset (s : Dev) (i : Nat) : Int := signed 32 (s.pf i 0x14 4)
/-- T_SYNC. -/
def Dev.pSync (s : Dev) (i : Nat) : Nat := s.pf i 0x18 6
/-- D in units of 1/256 of 1/64 ppm. -/
def Dev.pDrift (s : Dev) (i : Nat) : Int := signed 16 (s.pf i 0x1E 2) * 256 + (s.pf i 0x20 1 : Nat)
/-- SAMPLES. -/
def Dev.pSamples (s : Dev) (i : Nat) : Nat := s.pf i 0x21 1 % 4
/-- SYNC_ROLE is follow. -/
def Dev.pFollow (s : Dev) (i : Nat) : Bool := bits (s.pf i 0x21 1) 2 2 == 1
/-- MISSES. -/
def Dev.pMisses (s : Dev) (i : Nat) : Nat := s.pf i 0x22 1 % 32

/-- A quotient rounded to the nearest whole number, a half upwards. -/
def roundDiv (a b : Int) : Int := (2 * a + b) / (2 * b)

/-- pred_p(t) of rule R202. -/
def Dev.pred (s : Dev) (i t : Nat) : Int :=
  s.pOffset i + roundDiv (s.pDrift i * tsDiff t (s.pSync i)) (256 * 64000000)

/-- Is partner `i` the source in force? -/
def Dev.isSource (s : Dev) (i : Nat) : Bool := s.se.source == some i

/-! ### The grid (rules R197 and R198) -/

/-- The anchor's ASN. -/
def Dev.anchorAsn (s : Dev) : Nat := s.rd SE_ANCHOR_ASN_LO_VALUE + s.rd SE_ANCHOR_ASN_HI_VALUE % 256 * 2 ^ 32
/-- The anchor's time. -/
def Dev.anchorTime (s : Dev) : Nat := s.rd SE_ANCHOR_TIME_LO_VALUE + s.rd SE_ANCHOR_TIME_HI_VALUE * 2 ^ 32

/-- The anchor moves. -/
def Dev.setAnchor (s : Dev) (asn t : Nat) : Dev :=
  (((s.wr SE_ANCHOR_ASN_LO_VALUE asn).wr SE_ANCHOR_ASN_HI_VALUE (asn / 2 ^ 32 % 256)).wr SE_ANCHOR_TIME_LO_VALUE t).wr
    SE_ANCHOR_TIME_HI_VALUE (t / 2 ^ 32)

/-- G(n), the raw grid. -/
def Dev.gridRaw (s : Dev) (n : Nat) : Nat := tsAdd s.anchorTime (((n : Int) - s.anchorAsn) * s.slotLen)

/-- B(n), the boundary of slot n. -/
def Dev.gridAt (s : Dev) (n : Nat) : Nat :=
  let g := s.gridRaw n
  match s.se.source with
  | some p => tsAdd g (s.pred p g)
  | none => g

/-- c_p of rule R203 for slot n. -/
def Dev.correction (s : Dev) (p n : Nat) : Int :=
  if 4096 ≤ p ∨ s.isSource p then 0 else s.pred p (s.gridAt n)

/-- E_p(n): the expected first symbol of partner p in slot n. -/
def Dev.expected (s : Dev) (p n : Nat) : Nat := tsAdd (s.gridAt n) (s.txOffset + s.correction p n)

/-- The first symbol of a transmission to partner p in slot n: compensated for a partner this device follows. -/
def Dev.sendAt (s : Dev) (p n : Nat) : Nat :=
  if p < 4096 ∧ s.pFollow p then s.expected p n else tsAdd (s.gridAt n) s.txOffset

/-- M of Table 06-6. -/
def Dev.hemFactor (s : Dev) (p : Nat) : Nat := if s.isSource p then 2 ^ min 2 (s.pMisses p) else 1

/-- hem_p(t) of rule R207; any-partner links use CAP. -/
def Dev.hem (s : Dev) (p t : Nat) : Nat :=
  let cap := us (s.rd SE_HEM_CAP_US)
  let base := min (us (s.rd SE_HEM_BASE_US)) cap
  let h := if 4096 ≤ p then cap
    else if s.pSamples p < 2 then cap * s.hemFactor p
    else
      let dt := (tsDiff t (s.pSync p)).toNat
      min (base + ceilDiv (2 * (s.pDrift p).natAbs * dt) (256 * 64000000)) cap * s.hemFactor p
  min h s.txOffset

/-- The slot that a time of the present or last slot belongs to. -/
def Dev.slotOf (s : Dev) (t : Nat) : Nat := if tsLe s.se.bound t then s.se.asn else (s.se.asn + 2 ^ 40 - 1) % 2 ^ 40

/-- SE_STATUS follows the source, and CATCHUP the engines. -/
def Dev.seView (s : Dev) : Dev :=
  let s := match s.se.source with
    | some p => (s.wr SE_STATUS_SRC_MISSES (s.pMisses p)).put SE_STATUS_SOURCE_VALID (decide (s.pSamples p ≠ 0))
    | none => (s.wr SE_STATUS_SRC_MISSES 0).clr SE_STATUS_SOURCE_VALID
  s.put SE_STATUS_CATCHUP ((List.range 6).any fun k => decide ((s.eng k).adv ≠ 0))

/-- The update of rule R206 for a sync with partner p of error e at time t in slot n. -/
def Dev.ptSync (s : Dev) (p : Nat) (e : Int) (t n : Nat) : Dev :=
  let smp := s.pSamples p
  let dt := tsDiff t (s.pSync p)
  let new := s.pred p t + e
  let learn (s : Dev) : Dev := (s.pfw p 0x14 4 (unsigned 32 new)).pfw p 0x18 6 t
  let drift (s : Dev) (d : Int) : Dev :=
    let m : Int := (s.rd SE_DRIFT_MAX * 256 : Nat)
    let d := max (-m) (min m d)
    (s.pfw p 0x1E 2 (unsigned 16 (d / 256))).pfw p 0x20 1 (d % 256).toNat
  let old := s.pDrift p
  let s := if smp = 0 then (drift (learn s) old).pfBits p 0x21 0 2 1
    else if smp = 1 then
      (if dt < 64000000 then s else (drift (learn s) ((e * 64000000 * 256).tdiv dt)).pfBits p 0x21 0 2 2)
    else drift (learn s) (old + (e * 8000000 * 256).tdiv (max dt 64000000))
  let s := ((s.pfw p 0x22 1 0).pfw p 0x24 5 n).pfBits p 0x21 4 1 0
  let s := if s.isSource p then { s with se := { s.se with synced := true } } else s
  s.seView

/-! ### Links (rules R209 to R212) -/

/-- A link descriptor, with its slotframe and table index. -/
structure Link where
  sf : Nat
  index : Nat
  addr : Nat
  bytes : List Byte
deriving DecidableEq, Repr

def Link.offset (l : Link) : Nat := fieldAt l.bytes 0 2
def Link.chOff (l : Link) : Nat := fieldAt l.bytes 2 1
def Link.options (l : Link) : Nat := fieldAt l.bytes 3 1
def Link.tx (l : Link) : Bool := bitOf l.options 0
def Link.rx (l : Link) : Bool := bitOf l.options 1
def Link.shared (l : Link) : Bool := bitOf l.options 2
def Link.beacon (l : Link) : Bool := bitOf l.options 3
def Link.keepAlive (l : Link) : Bool := bitOf l.options 4
/-- Band of the link: 1 sub-GHz, 2 ISM. -/
def Link.band (l : Link) : Nat := bits l.options 6 2
def Link.partner (l : Link) : Nat := fieldAt l.bytes 4 2
def Link.le (l : Link) : Nat := fieldAt l.bytes 6 1 % 8
def Link.valid (l : Link) : Bool := bitOf (fieldAt l.bytes 7 1) 7
def Link.sleeves (l : Link) : Nat := fieldAt l.bytes 8 4
def Link.next (l : Link) : Nat := fieldAt l.bytes 0x0C 4

/-- LENGTH of slotframe k. -/
def Dev.sfLen (s : Dev) (k : Nat) : Nat := max 1 (s.rd (SE_SF_CFG_LENGTH k))

/-- The link of slotframe k at table index i. -/
def Dev.linkAt (s : Dev) (k i : Nat) : Link :=
  let a := s.rd (SE_SF_BASE_ADDR k) * 16 + 16 * i
  { sf := k, index := i, addr := a, bytes := s.peekBytes 0x0C a 16 }

/-- The valid links of slotframe k that keep the order of the table, and whether one broke it (rule R210). -/
def Dev.linkTable (s : Dev) (k : Nat) : List Link × Bool :=
  let r := (List.range (s.rd (SE_SF_COUNT_COUNT k))).foldl (fun (r : List Link × Nat × Nat × Bool) i =>
    let l := s.linkAt k i
    if !l.valid then r
    else if r.1 ≠ [] ∧ l.offset < r.2.1 then (r.1, r.2.1, r.2.2.1, true)
    else
      let n := if r.1 ≠ [] ∧ l.offset = r.2.1 then r.2.2.1 + 1 else 1
      if 16 < n then (r.1, r.2.1, r.2.2.1, true) else (l :: r.1, l.offset, n, r.2.2.2)) ([], 0, 0, false)
  (r.1.reverse, r.2.2.2)

/-- Hop length of band 1 or 2. -/
def Dev.hopLen (s : Dev) (band : Nat) : Nat :=
  min 128 (if band = 1 then s.rd SE_HOP_CFG_SG_LEN else s.rd SE_HOP_CFG_IS_LEN)

/-- The channel of a link in slot n (rule R212). -/
def Dev.linkChannel (s : Dev) (l : Link) (n : Nat) : Nat :=
  let i := (n + l.chOff) % max 1 (s.hopLen l.band)
  if l.band = 1 then s.rd (SE_HOP_SG_CHANNEL_KHZ i) else s.rd (SE_HOP_IS_CHANNEL_KHZ i)

/-- Is the link served: on a band with a hop table, and not of a removed partner? -/
def Dev.linkServed (s : Dev) (l : Link) : Bool :=
  (l.band == 1 || l.band == 2) && s.hopLen l.band != 0 && !(decide (l.partner < 4096) && s.pRemoved l.partner)

/-- The served links of slot n: those of every enabled slotframe at its offset, slotframe by slotframe. -/
def Dev.slotLinks (s : Dev) (n : Nat) : List Link :=
  ((List.range 8).filter fun k => s.on (SE_SF_CFG_ENABLE k)).flatMap fun k =>
    (s.linkTable k).1.filter fun l => l.offset == n % s.sfLen k && s.linkServed l

/-- The slot engine reads the link tables of the enabled slotframes (rules R24, R28 and R29). -/
def Dev.touchTables (s : Dev) : Dev :=
  s.touch 0x0C (((List.range 8).filter fun k => s.on (SE_SF_CFG_ENABLE k)).map fun k =>
    (s.rd (SE_SF_BASE_ADDR k) * 16, 16 * s.rd (SE_SF_COUNT_COUNT k)))

/-- The events of the links of slot n: TABLE_ORDER and NO_HOP. -/
def Dev.linkEvents (s : Dev) (n : Nat) : Dev :=
  s.each ((List.range 8).filter fun k => s.on (SE_SF_CFG_ENABLE k)) fun s k =>
    let t := s.linkTable k
    let s := if t.2 then s.set SE_EVENTS_TABLE_ORDER else s
    if t.1.any fun l => l.offset == n % s.sfLen k && (l.band == 1 || l.band == 2) && s.hopLen l.band == 0 then
      s.set SE_EVENTS_NO_HOP
    else s

/-- The queue a TX link serves: its partner's, or its own where it is a broadcast link (rule R220). -/
def Link.queue (l : Link) : Nat := if l.partner < 4096 then l.partner else l.addr

/-- The physical engine a link belongs to: that of its partner's range, or the link's LE. -/
def Dev.linkLe (s : Dev) (l : Link) : Option Nat :=
  if l.partner < 4096 then s.leOfPartner l.partner else some (s.lePhys (if 6 ≤ l.le then 0 else l.le))

/-! ### The dwell ledger (rules R226 to R229) -/

/-- Channel accounts that the dwell rules before rule `r` define. -/
def Ledger.base (g : Ledger) (r : Nat) : Nat :=
  ((g.rules.take r).map fun x => if x.kind = 1 then x.high / 65536 else 0).sum

/-- The account of a rule that a channel centre falls under. -/
def LRule.account (x : LRule) (base r khz : Nat) : Option Nat :=
  if x.kind = 1 then
    let sp := x.high % 65536
    let n := x.high / 65536
    if n ≠ 0 ∧ 2 * x.low ≤ 2 * khz + sp ∧ 2 * khz ≤ 2 * (x.low + (n - 1) * sp) + sp then
      some (base + min (n - 1) ((2 * (khz - x.low) + sp) / (2 * sp)))
    else none
  else if x.low ≤ khz ∧ khz ≤ x.high then some (256 + r)
  else none

/-- The rules of a band that a channel falls under: rule number, rule and account. -/
def Ledger.covers (g : Ledger) (band khz : Nat) : List (Nat × LRule × Nat) :=
  (List.range g.rules.length).filterMap fun r =>
    match g.rules[r]? with
    | some x => if x.kind ≠ 0 ∧ x.band = band then (x.account (g.base r) r khz).map fun a => (r, x, a) else none
    | none => none

/-- Bucket length of a rule's window in counts. -/
def LRule.bucket (x : LRule) : Nat := max 1 (x.limits / 65536 % 65536) * 50000

/-- The start of the present bucket of a rule. -/
def Dev.bucketNow (s : Dev) (x : LRule) : Nat := s.now / x.bucket * x.bucket

/-- Is a bucket that started at `t` one of the present 16? -/
def Dev.bucketIn (s : Dev) (x : LRule) (t : Nat) : Bool := decide (s.age t < 16 * x.bucket)

/-- The buckets of an account. -/
def Ledger.buckets (g : Ledger) (a : Nat) : List (Nat × Nat) := mapGet (fun _ => []) g.use a

/-- The use of an account, all 16 buckets. -/
def Dev.ledgerUse (s : Dev) (x : LRule) (a : Nat) : Nat :=
  (((s.se.led.buckets a).filter fun b => s.bucketIn x b.1).map (·.2)).sum

/-- The limit of a rule in us. -/
def LRule.limit (x : LRule) : Nat :=
  if x.kind = 1 then x.limits % 65536 * 1000
  else if x.kind = 2 then x.limits / 65536 % 65536 * 10 * (x.limits % 65536)
  else 0xFFFFFFFF

/-- Does a rule refuse a start of `t` us on its account (rule R227)? -/
def Dev.ruleRefuses (s : Dev) (x : LRule) (a t : Nat) : Bool :=
  if x.kind = 3 then decide (x.limits / 65536 % 65536 * 1000 < t) else decide (x.limit < s.ledgerUse x a + t)

/-- Why the ledger refuses: a cap, a budget or an uncovered channel, or a longest transmission. -/
inductive LedgerNo where
  | none
  | budget
  | longest
deriving DecidableEq, Repr

/-- The check of a start command on a band (1 or 2) and channel, `t` its airtime in us (rule R227). -/
def Dev.ledgerCheck (s : Dev) (band khz t : Nat) : LedgerNo :=
  let l := s.se.led.covers band khz
  if !s.se.led.present then .budget
  else if l.any fun x => x.2.1.kind == 3 && s.ruleRefuses x.2.1 x.2.2 t then .longest
  else if l.any fun x => x.2.1.kind != 3 && s.ruleRefuses x.2.1 x.2.2 t then .budget
  else if s.se.led.refuse ∧ l = [] then .budget
  else .none

/-- What the listen-before-talk rules demand of the start command (rule R228). -/
def Dev.ledgerLbt (s : Dev) (band khz : Nat) : Lbt :=
  let l := (s.se.led.covers band khz).filter fun x => x.2.1.kind == 3
  { minCca := (l.map fun x => x.2.1.limits % 256 * 8).foldl max 0,
    maxThr := l.foldl (fun m x =>
      let t := signed 8 (x.2.1.limits / 256 % 256)
      match m with
      | some v => some (min v t)
      | none => some t) none,
    on := l != [] }

/-- A bucket of an account changes by `f`; buckets out of the window are dropped. -/
def Dev.ledgerPut (s : Dev) (a b : Nat) (keep : Nat × Nat → Bool) (f : Nat → Nat) : Dev :=
  let l := (s.se.led.buckets a).filter keep
  let v := f ((l.find? fun x => x.1 == b).elim 0 (·.2))
  let l := (l.filter fun x => x.1 != b) ++ [(b, v)]
  { s with se := { s.se with led := { s.se.led with use := mapPut (fun _ => []) s.se.led.use a l } } }

/-- The airtime of an issued command is charged to every dwell and duty account it falls under (rule R229). -/
def Dev.ledgerCharge (s : Dev) (band khz t : Nat) : Dev × List (Nat × Nat × Nat) :=
  ((s.se.led.covers band khz).filter fun x => x.2.1.kind != 3).foldl (fun r x =>
    let b := r.1.bucketNow x.2.1
    (r.1.ledgerPut x.2.2 b (fun y => r.1.bucketIn x.2.1 y.1) (· + t), r.2 ++ [(x.2.2, b, t)])) (s, [])

/-- A charge is corrected to the airtime that left. -/
def Dev.ledgerCorrect (s : Dev) (charges : List (Nat × Nat × Nat)) (t : Nat) : Dev :=
  s.each charges fun s c =>
    if (s.se.led.buckets c.1).any fun x => x.1 == c.2.1 then
      s.ledgerPut c.1 c.2.1 (fun _ => true) fun v => v - c.2.2 + t
    else s

/-- The rule that an account number of SE_LEDGER_SEL belongs to. -/
def Ledger.ruleOf (g : Ledger) (a : Nat) : Option LRule :=
  if 256 ≤ a then g.rules[a - 256]?
  else
    (List.range g.rules.length).findSome? fun r =>
      match g.rules[r]? with
      | some x => if x.kind = 1 ∧ g.base r ≤ a ∧ a < g.base r + x.high / 65536 then some x else none
      | none => none

/-- Buckets that left their window are dropped. -/
def Dev.ledgerPrune (s : Dev) : Dev :=
  let use := s.se.led.use.map fun a => (a.1, match s.se.led.ruleOf a.1 with
    | some x => a.2.filter fun b => s.bucketIn x b.1
    | none => a.2)
  { s with se := { s.se with led := { s.se.led with use := use } } }

/-- SE_LEDGER_USED and SE_LEDGER_LIMIT of the selected account; what they show of an account no rule defines, and of a dwell
rule selected by number, is open. -/
def Dev.ledgerView (s : Dev) : Nat × Nat :=
  let a := s.rd SE_LEDGER_SEL_INDEX
  match s.se.led.ruleOf a with
  | some x =>
    if x.kind = 0 ∨ (256 ≤ a ∧ x.kind = 1) then (s.freeVal 32, s.freeVal 32)
    else (min 0xFFFFFFFF (s.ledgerUse x a), min 0xFFFFFFFF x.limit)
  | none => (s.freeVal 32, s.freeVal 32)

end Sys2Proof.Machine
end

