-- ==== Sys2Proof/Machine/Slots.lean ====
section
/-!
DEFINITION. The slot engine: starting, boundaries, preparation, start commands, completions, missed exchanges and arms
(rules R196 to R233).
-/

namespace Sys2Proof.Machine

/-- The slot engine takes a record. -/
def Dev.onSe (s : Dev) (f : SlotEng → SlotEng) : Dev := { s with se := f s.se }

/-- Is the slot engine running, its domain powered? -/
def Dev.seRuns (s : Dev) : Bool := s.up 5 && s.on SE_CTRL_RUN

/-! ### Start and stop (rule R197) -/

/-- The first slot whose boundary lies at least PREP_LEAD + 100 us ahead. -/
def Dev.firstSlot (s : Dev) : Nat :=
  let t := tsAdd s.now (s.prepLead + us 100 : Nat)
  let ahead : Int := match s.se.source with
    | some p => s.pred p t
    | none => 0
  let d := tsDiff t s.anchorTime - ahead
  let n := ((s.anchorAsn : Int) + (d + s.slotLen - 1) / s.slotLen).toNat
  let n := if tsLe t (s.gridAt n) then n else n + 1
  if 0 < n ∧ tsLe t (s.gridAt (n - 1)) then n - 1 else n

/-- The next slot after n at an offset of a slotframe. -/
def nextSlot (n len off : Nat) : Nat := n + 1 + (off + len - (n + 1) % len) % len

/-- The earlier of two times. -/
def earlier (a : Option Nat) (b : Nat) : Option Nat :=
  match a with
  | some x => if tsLe x b then some x else some b
  | none => some b

/-- The next narrow hop that a reception on a link needs in slot n (rule R213). -/
def Dev.hopTime (s : Dev) (l : Link) (n : Nat) : Nat :=
  let e := s.expected l.partner n
  let w := tsAdd e (-(s.hem l.partner e : Int))
  let t := tsAdd (s.sendAt l.partner n) (-(us 40 : Int))
  tsAdd (if tsLe w t then w else t) (-(s.hopLead : Int))

/-- The earliest of the next work from slot n on: a preparation of a later slot, a narrow hop still to come, an aging wrap (rule
R233). -/
def Dev.nextWork (s : Dev) (n : Nat) : Option Nat :=
  let on := (List.range 8).filter fun k => s.on (SE_SF_CFG_ENABLE k)
  let links := on.flatMap fun k => (s.linkTable k).1.filter fun l => s.linkServed l && decide (l.offset < s.sfLen k)
  let r := links.foldl (fun r l =>
    let m := nextSlot n (s.sfLen l.sf) l.offset
    let adv := match s.linkLe l with
      | some k => (s.eng k).adv
      | none => 0
    let r := earlier r (tsAdd (s.gridAt m) (-((s.prepLead + adv : Nat) : Int)))
    if s.narrow (l.band - 1) then
      let r := if n % s.sfLen l.sf = l.offset ∧ !tsLe (s.hopTime l n) s.now then earlier r (s.hopTime l n) else r
      earlier r (s.hopTime l m)
    else r) none
  let a := s.rd SE_AGING_AGE_SF
  if on.contains a then earlier r (s.gridAt (nextSlot n (s.sfLen a) 0)) else r

/-- SE_NEXT_WORK is published; with no work ahead it keeps its value. -/
def Dev.publishWork (s : Dev) : Dev :=
  match s.nextWork s.se.asn with
  | some t => (s.wr SE_NEXT_WORK_LO_TIME t).wr SE_NEXT_WORK_HI_TIME (t / 2 ^ 32)
  | none => s

/-- A write to SE_CTRL. -/
def Dev.seCtrl (s : Dev) (v : Nat) : Dev :=
  let on := s.on SE_CTRL_RUN
  if v % 2 = 1 ∧ !on then
    let n := (s.firstSlot + 2 ^ 40 - 1) % 2 ^ 40
    let s := ((s.set SE_CTRL_RUN).wr SE_STATUS_STATE 1).onSe fun x => { x with asn := n, started := false }
    (s.onSe fun x => { x with bound := s.gridAt n }).publishWork
  else if v % 2 = 0 ∧ on then ((s.clr SE_CTRL_RUN).wr SE_STATUS_STATE 0).onSe fun x => { x with started := false }
  else s

/-! ### Boundaries (rules R198 to R200, R209, R230 and R233) -/

/-- Does a partner qualify as a source (rule R200)? -/
def Dev.sourceOk (s : Dev) (p : Nat) : Bool := s.pValid p && !s.pRemoved p && s.served p

/-- The source is folded into the anchor at slot n, boundary b. -/
def Dev.fold (s : Dev) (n b : Nat) : Dev :=
  let s := s.onSe fun x => { x with synced := false }
  match s.se.source with
  | some p => ((s.setAnchor n b).pfw p 0x14 4 0).pfw p 0x18 6 b
  | none => s

/-- A partner event of the slot engine names its partner. -/
def Dev.seEvent (s : Dev) (f : Fld) (p : Nat) : Dev := (s.set f).wr SE_EVENT_PARTNER_PARTNER p

/-- The alternate a lost parent is replaced by: ALT, heard within ALT_WINDOW slots, lowest rank, then lowest index. -/
def Dev.alternate (s : Dev) : Option Nat :=
  let ok (i : Nat) : Bool := bitOf (s.pf i 0x21 1) 5 && s.sourceOk i && !s.isSource i &&
    decide (s.se.asn ≤ s.pf i 0x24 5 + s.rd SE_MISS_ALT_WINDOW)
  (List.range 4096).foldl (fun best i =>
    if !ok i then best
    else match best with
      | some b => if s.pf i 0x23 1 < s.pf b 0x23 1 then some i else best
      | none => some i) none

/-- SE_SOURCE is written with a source; its old value stands by until the next boundary decides (rule R200). -/
def Dev.sourceAsk (s : Dev) (q : Option Nat) : Dev :=
  let old := if s.se.srcWrite.isSome then s.se.srcOld else s.reg SE_SOURCE
  let s := match q with
    | some p => (s.clr SE_SOURCE_NONE).wr SE_SOURCE_PARTNER p
    | none => s
  s.onSe fun x => { x with srcWrite := some q, srcOld := old }

/-- The parent is lost: an alternate becomes the written source, or rejoin search begins (Table 06-6 and rule R231). -/
def Dev.parentLost (s : Dev) : Dev :=
  let s := s.seEvent SE_EVENTS_PARENT_LOST (s.se.source.getD 0)
  match s.alternate with
  | some q => s.sourceAsk (some q)
  | none =>
    let s := (s.set SE_EVENTS_REJOIN).wr SE_STATUS_STATE 2
    s.each (List.range 32) fun s n =>
      if s.on (SLV_CTRL_SLOT_ARMED n) ∧ s.rd (SLV_ASSIGN_BAND n) ≠ 0 then s.arm n (s.rd (SLV_ROUTE_ARM_LE n)) else s

/-- A write to SE_SOURCE: it takes effect at the next boundary. -/
def Dev.sourceWrite (s : Dev) (v : Nat) : Dev :=
  let s := s.sourceAsk (if bitOf v 31 then none else some (v % 4096))
  (s.wr SE_SOURCE_NONE (v / 2 ^ 31)).wr SE_SOURCE_PARTNER v

/-- The source in force comes from `q` on, the old one folded first; rejoin search, and its continuous arms, end (rule R231). -/
def Dev.sourceSet (s : Dev) (q : Option Nat) (n b : Nat) : Dev :=
  let s := s.fold n b
  let s := if s.se.source = q then s else s.set SE_EVENTS_SOURCE_CHANGED
  let rejoin := s.rd SE_STATUS_STATE == 2
  let s := (s.onSe fun x => { x with source := q }).wr SE_STATUS_STATE 1
  if !rejoin then s
  else s.each (List.range 32) fun s n =>
    if s.on (SLV_CTRL_SLOT_ARMED n) ∧ !(s.se.arms.any fun a => a.1 == n) then s.disarm n else s

/-- SOURCE_CHANGE: a written source takes effect or is refused at the boundary of slot n. -/
def Dev.sourceChange (s : Dev) (n b : Nat) : Dev :=
  match s.se.srcWrite with
  | none => s
  | some w =>
    let s := s.onSe fun x => { x with srcWrite := none }
    match w with
    | none => s.sourceSet none n b
    | some q =>
      if s.sourceOk q then s.sourceSet (some q) n b
      else
        let s := s.setReg SE_SOURCE s.se.srcOld
        s.seEvent SE_EVENTS_SOURCE_REFUSED q

/-- The slotframe of a slotframe register. -/
def sfOf (a : Nat) : Nat := (a - 0x40100100) / 0x10

/-- Deferred slotframe writes whose slotframe is at offset 0 in slot n take effect (rule R209). -/
def Dev.sfApply (s : Dev) (n : Nat) : Dev :=
  let due := s.se.sfWait.filter fun w => !s.on (SE_SF_CFG_ENABLE (sfOf w.1)) || n % s.sfLen (sfOf w.1) == 0
  let rest := s.se.sfWait.filter fun w => !due.contains w
  let s := s.each due fun s w => (s.setReg w.1 (BitVec.ofNat 32 w.2)).clr (SE_SF_PEND_PENDING (sfOf w.1))
  s.onSe fun x => { x with sfWait := rest }

/-- R198: the boundary of the next slot. -/
def Dev.boundary (s : Dev) : Dev :=
  if !s.seRuns then s
  else
    let s := s.touchTables
    let n := (s.se.asn + 1) % 2 ^ 40
    let b := s.gridAt n
    let lost := s.rd SE_STATUS_STATE == 1 && s.se.source.any fun p => !s.sourceOk p
    let s := if lost then s.parentLost else s
    let s := if s.se.synced then s.fold n b else s
    let s := s.sourceChange n b
    let s := s.sfApply n
    let s := s.onSe fun x => { x with asn := n, bound := s.gridAt n, started := true }
    (((s.linkEvents n).seView).ledgerPrune).publishWork

/-! ### Preparation (rules R217 to R219, R222 and R224) -/

/-- Is physical link engine `k` at work? -/
def Dev.leRuns (s : Dev) (k : Nat) : Bool :=
  s.on (LE_STATE_RUNNING k) && s.rd (LE_STATE_ROLE k) == 1 && !s.hartHalted (2 + k)

/-- BACKOFF_ASN of a partner holds back classes 0 to 2 but for CONTROL entries; a shared link with SHARED_WAIT left carries
class 3 alone. -/
def Dev.mayGo (s : Dev) (l : Link) (n e : Nat) : Bool :=
  let p := l.partner
  let c := s.qClass e
  let backed := decide (p < 4096) && decide (n < s.pf p 0x29 5) && decide (c < 3) && !s.qControl e
  let waits := decide (p < 4096) && l.shared && s.pf p 0x2F 1 != 0 && decide (c < 3)
  !backed && !waits

/-- Does a frame of `air` counts fit a slot (rule R217)? -/
def Dev.fits (s : Dev) (air : Nat) (ack : Bool) : Bool :=
  decide (s.txOffset + air + (if ack then s.ackDelay + s.ackGuard + s.ackMax else 0) ≤ s.slotLen)

/-- The entry a preparation plans on a link: an enhanced beacon with its SLOT sub-element or an empty keep-alive of the engine's own,
or the first entry of the queue that may go, none while one is in flight. -/
def Dev.prepEntry (s : Dev) (k n : Nat) (l : Link) (p : PrepPlan) : Dev × Option Nat :=
  let q := s.qList l.queue
  let own (s : Dev) (ftype flags : Nat) (subs : List (List Byte)) (tail : Bool) : Dev × Option Nat :=
    match p.own with
    | some o => (s.frameWrite k l.partner o.at_ o.tx o.mhr ftype flags subs (if tail then o.tail else []), some o.at_.entryAt)
    | none => (s, none)
  if l.beacon then own s 0 0 [slotElem n s.slotLen] true
  else if q.any s.qInFlight then (s, none)
  else match q.find? fun e => s.mayGo l n e with
    | some e => (s, some e)
    | none => if l.keepAlive ∧ q = [] ∧ l.partner < 4096 then own s 1 4 [] false else (s, none)

/-- A descriptor written anew, its length, buffer, partner and LE as they stand. -/
def TxPlan.renew (t : TxPlan) (d : List Byte) : List Byte :=
  let l := t.octets 0 (dBuf d) 0 (dPartner d) (dLe d)
  putAt l 6 (leBytes 2 (dPsdu d - dFcsLen d + dFcsLen l))

/-- Step 2 of rule R218: the frame of a descriptor is submitted to a cipher engine where it is secured, under the pocket that the
receiver will use (rule R247); the answer is the request's address. -/
def Dev.encipher (s : Dev) (dk : List Byte) (k : Nat) (d : List Byte) (q : CeAsk) (upset : Bool) : Dev × Option Nat :=
  match seenIn (s.peekBytes (2 + k) (dBuf d) (dPsdu d - dFcsLen d)) with
  | none => (s, none)
  | some v =>
    match v.aux with
    | none => (s, none)
    | some a =>
      let own := if dPartner d < 4096 then s.pf (dPartner d) 0x0C 1 else q.pocket.toNat
      let pocket := if a.mode = 0 then own else (a.key.getLastD 0).toNat
      let at_ := q.addr.toNat / 64 * 64
      ((s.put8 (2 + k) at_ (v.request a true false pocket (dBuf d) (leBytes 8 q.self.toNat) q.ref.toNat)).ceSubmit dk (2 + k) at_ upset,
        some at_)

/-- Is the frame of the entry at `e` still to be enciphered? One whose start was tried is enciphered already; of one that was LATE
the plan says so (assumption log 58). -/
def Dev.qPlain (s : Dev) (e : Nat) : Bool :=
  s.qTries e == 0 && (s.peek 0x0C (e + 0x0A) 1 == 0 || s.peek 0x0C (e + 0x0A) 1 == Status.late.code)

/-- The steps of rule R218 for one TX link. -/
def Dev.prepLink (s : Dev) (dk : List Byte) (k n : Nat) (p : PrepPlan) (upset : Bool) : Dev × List PrepItem :=
  let l := s.linkAt p.sf p.link.toNat
  let s := ((s.touch (2 + k) [(l.addr, 16)]).touchPartner (2 + k) l.partner).touchQueue k l.queue
  if !l.tx ∨ !(s.slotLinks n).contains l ∨ s.linkLe l ≠ some k then (s, [])
  else
    let r := s.prepEntry k n l p
    let s := if l.partner < 4096 ∧ l.shared ∧ s.pf l.partner 0x2F 1 ≠ 0 then
        r.1.pfw l.partner 0x2F 1 (s.pf l.partner 0x2F 1 - 1) else r.1
    match r.2 with
    | none => (s, [])
    | some e =>
      let a := s.qDesc e
      let d := s.peekBytes (2 + k) a 32
      let d := putAt ((p.desc.map (·.renew d)).getD d) 0x0C (leBytes 4 (s.linkChannel l n))
      let s := s.put8 (2 + k) a d
      if !s.fits (s.airtime (l.band - 1) d) (s.qAckReq e) then (s.entryDone k e .tooLong, [])
      else
        let r := match p.req with
          | some q => if s.qPlain e then s.encipher dk k d q upset else (s, none)
          | none => (s, none)
        (r.1, [{ link := l.addr, entry := e, req := r.2, ts := r.1.sendAt l.partner n }])

/-- PREP_EVENT: engine `k`, once it is ready, prepares slot n. -/
def Dev.prep (s : Dev) (dk : List Byte) (k n : Nat) (plans : List PrepPlan) (upset : Bool) : Dev :=
  if !s.seRuns ∨ !s.leRuns k ∨ !(s.eng k).ready ∨ !((s.slotLinks n).any fun l => s.linkLe l == some k) then s
  else
    let plans := if s.rd SE_STATUS_STATE = 2 then [] else plans
    let r := plans.foldl (fun (r : Dev × List PrepItem) p =>
      let q := r.1.prepLink dk k n p upset
      (q.1, r.2 ++ q.2)) (s, [])
    let e := r.1.eng k
    r.1.setEng k { e with preps := e.preps ++ [{ asn := n, bound := r.1.gridAt n, items := r.2 }] }

/-- An entry was not ready by t_s - 100 us of its slot (rule R219). -/
def Dev.entryLate (s : Dev) (k e : Nat) : Dev := (s.qw k e 0x0A 1 Status.late.code).bump SE_CNT_LATE_COUNT

/-- Is the cipher request of an item done with OK? -/
def Dev.itemReady (s : Dev) (x : PrepItem) : Bool :=
  match x.req with
  | some a => s.peek 0x0C (a + 4) 1 == Status.ok.code
  | none => true

/-- LE_LAG and CATCHUP follow the advance of engine `k`. -/
def Dev.setAdv (s : Dev) (k a : Nat) : Dev := ((s.setEng k { s.eng k with adv := a }).advView k).seView

/-- R224: engine `k` completes its oldest preparation; entries are handed over, or late. -/
def Dev.prepDone (s : Dev) (k : Nat) : Dev :=
  match (s.eng k).preps with
  | [] => s
  | p :: rest =>
    if !s.leRuns k then s
    else
      let s := s.setEng k { s.eng k with preps := rest }
      let s := s.each p.items fun s x =>
        if tsLe s.now (tsAdd x.ts (-(us 100 : Int))) ∧ s.itemReady x then s.qw k x.link 0x0C 4 x.entry
        else s.entryLate k x.entry
      let due := tsAdd p.bound ((s.txOffset : Int) - us 100)
      let step := s.prepLead / s.catchDiv
      let a := (s.eng k).adv
      if !tsLe s.now due then (s.setAdv k (min (a + step) (s.slotLen / 2))).bump (LE_CNT_LATE_COUNT k)
      else if 0 < a ∧ tsLe (tsAdd s.now a) due then s.setAdv k (a - step)
      else s

/-! ### The start command (rules R214, R218 and R226 to R229) -/

/-- Airtime of counts in us, a part of one counting as one. -/
def airUs (counts : Nat) : Nat := (counts + 7) / 8

/-- LEDGER_REFUSED. -/
def Dev.ledgerRefused (s : Dev) : Dev := (s.bump SE_CNT_LEDGER_COUNT).set SE_EVENTS_LEDGER_REFUSED

/-- The slot engine checks the ledger and issues a start command for the descriptor at `d`; the answer tells why not. A
refusal of the path that could not be reported gives its status. -/
def Dev.seStart (s : Dev) (k : Nat) (x : Issued) : Dev × LedgerNo × Status :=
  let b := s.peekBytes 0x0C x.desc 32
  let t := airUs (s.airtime x.path b)
  match s.ledgerCheck (x.path + 1) (dChannel b) t with
  | .none =>
    let reported := s.cqFree x.path (s.lePhys (dLe b % 8))
    let c := s.ledgerCharge (x.path + 1) (dChannel b) t
    let r := c.1.txStart x.path k x.desc x.ts (s.ledgerLbt (x.path + 1) (dChannel b))
    if r.2 ≠ .ok ∧ !reported then (r.1.ledgerCorrect c.2 0, .none, r.2)
    else
      let s := r.1.onSe fun y => { y with issued := y.issued ++ [{ x with charges := c.2 }] }
      (if r.2 = .ok then s.onSe fun y => { y with sent := (y.sent.filter fun z => z.1 != x.path) ++ [(x.path, x.asn)] } else s,
        .none, .ok)
  | no => (s.ledgerRefused, no, .ledgerRefused)

/-- Does another TX link of the band with a planned frame come before this one (rule R214)? -/
def Dev.outranked (s : Dev) (l : Link) (n : Nat) : Bool :=
  (s.slotLinks n).any fun m => m.tx && m.band == l.band && m.next != 0 &&
    (decide (m.sf < l.sf) || (m.sf == l.sf && decide (m.index < l.index)))

/-- R218: at t_s - 100 us NEXT_ENTRY of a link is read and cleared, and the start command issued. -/
def Dev.fetchEntry (s : Dev) (sf i : Nat) : Dev :=
  let n := s.se.asn
  let l := s.linkAt sf i
  if !s.seRuns ∨ !l.tx ∨ !(s.slotLinks n).contains l then s
  else
    let e := l.next
    let s := (s.touch 0x0C [(l.addr, 16)]).put8 0x0C (l.addr + 0x0C) (leBytes 4 0)
    match s.linkLe l with
    | none => s
    | some k =>
      if e = 0 then
        let g := s.eng k
        let late := g.preps.flatMap fun p => if p.asn = n then p.items.filter fun x => x.link == l.addr else []
        let s := s.setEng k { g with preps := g.preps.map fun p =>
          if p.asn = n then { p with items := p.items.filter fun x => x.link != l.addr } else p }
        s.each late fun s x => s.entryLate k x.entry
      else if s.hartHalted (2 + k) then s.entryLate k e
      else if s.rd SE_STATUS_STATE = 2 ∨ s.se.sent.contains (l.band - 1, n) ∨ s.outranked l n then s
      else
        let x : Issued := { path := l.band - 1, le := k, link := l.addr, entry := e, desc := s.qDesc e, partner := l.partner,
                            asn := n, ts := s.sendAt l.partner n, ackReq := s.qAckReq e, shared := l.shared, charges := [] }
        let s := s.qMark k e true
        match s.seStart k x with
        | (s, .none, .ok) => s
        | (s, .none, st) => (s.qMark k e false).qw k e 0x0A 1 st.code
        | (s, .budget, st) => (s.qMark k e false).qw k e 0x0A 1 st.code
        | (s, .longest, _) => s.entryDone k e .tooLong

/-! ### Completions (rules R222, R223 and R229) -/

/-- MAX_BE and MIN_BE as they act (Table 06-30). -/
def Dev.maxBe (s : Dev) : Nat := min 8 (s.rd SE_ACCESS_MAX_BE)
def Dev.minBe (s : Dev) : Nat := min (s.rd SE_ACCESS_MIN_BE) s.maxBe

/-- A NO_ACK or CHANNEL_BUSY on a shared link raises BE and draws SHARED_WAIT. -/
def Dev.sharedFail (s : Dev) (p : Nat) : Dev :=
  if 4096 ≤ p then s
  else
    let be := min (s.pf p 0x2E 1 % 16 + 1) s.maxBe
    let r := s.hwDraw
    (r.1.pfw p 0x2E 1 be).pfw p 0x2F 1 (r.2 % 2 ^ be)

/-- A success on a shared link. -/
def Dev.sharedOk (s : Dev) (p : Nat) : Dev := if 4096 ≤ p then s else s.pfw p 0x2E 1 s.minBe

/-- A frame that asked for an acknowledgement got none in its window (Table 06-5). -/
def Dev.noAck (s : Dev) (k e p : Nat) (shared : Bool) : Dev :=
  let s := if shared then s.sharedFail p else s
  let t := min 255 (s.qTries e + 1)
  let s := (s.qw k e 8 1 t).qw k e 0x0A 1 Status.noAck.code
  if max 1 (s.rd SE_ACCESS_MAX_TRIES) ≤ t then s.entryDone k e .noAck else s.qMark k e false

/-- The entry of an attempt that ended with a status (Table 06-5); any other result ends a row of CHANNEL_BUSY (Table 06-4). -/
def Dev.attempt (s : Dev) (x : Issued) (st : Nat) (tsStart tsEnd chan : Nat) : Dev :=
  let k := x.le
  let e := x.entry
  let keep (s : Dev) : Dev := (s.qMark k e false).qw k e 0x0A 1 st
  let s := if st = Status.channelBusy.code then s else s.qw k e 9 1 0
  if st = Status.ok.code ∨ st = Status.vswrFoldback.code then
    if x.ackReq then
      s.onSe fun y => { y with acks := y.acks ++ [{ le := k, entry := e, partner := x.partner, shared := x.shared, ts := tsStart,
                                                    asn := x.asn, link := x.link, tsEnd := tsEnd, chan := chan }] }
    else ((if x.shared then s.sharedOk x.partner else s).qw k e 8 1 (min 255 (s.qTries e + 1))).entryDone k e .ok
  else if st = Status.channelBusy.code then
    let s := if x.shared then s.sharedFail x.partner else s
    let c := min 255 (s.qCca e + 1)
    let s := keep (s.qw k e 9 1 c)
    if max 1 (s.rd SE_ACCESS_MAX_CCA) ≤ c then s.entryDone k e .channelBusy else s
  else if st = Status.tooLong.code then s.entryDone k e .tooLong
  else if st = Status.badDescriptor.code then s.entryDone k e .badDescriptor
  else if st = Status.outsideWindow.code then s.entryDone k e .outsideWindow
  else if st = Status.uncorrectable.code then s.entryDone k e .uncorrectable
  else if st = Status.routeDenied.code then s.entryDone k e .routeDenied
  else if st = Status.unmapped.code then s.entryDone k e .unmapped
  else keep s

/-- R223: engine `k` reads the next report of its completion ring on path `p`. -/
def Dev.txProcess (s : Dev) (p k : Nat) : Dev :=
  let n := s.rd (TXP_CQ_SIZE_ENTRIES p k)
  let r := s.rd (TXP_CQ_RD_RD p k)
  if n = 0 ∨ s.rd (TXP_CQ_WR_WR p k) = r ∨ !s.leRuns k then s
  else
    let m := s.rdMem (2 + k) (s.rd (TXP_CQ_BASE_ADDR p k) * 32 + r * 32) 32
    let s := m.1.wr (TXP_CQ_RD_RD p k) ((r + 1) % n)
    let b := m.2.2
    match s.se.issued.find? fun x => x.path == p && x.desc == fieldAt b 0x1C 4 with
    | none => s
    | some x =>
      let st := fieldAt b 0 1
      let t0 := fieldAt b 8 8
      let t1 := fieldAt b 0x10 8
      let s := s.onSe fun y => { y with issued := y.issued.filter fun z => z != x }
      let s := s.ledgerCorrect x.charges (if t1 = 0 then 0 else airUs (tsDiff t1 t0).toNat)
      if x.entry = 0 then s else s.attempt x st t0 t1 (dChannel (s.peekBytes 0x0C x.desc 32))

/-- The middle of the acknowledgement window of a frame, from its own TS_END (rule R215). -/
def Dev.ackAt (s : Dev) (a : AckWait) : Nat := tsAdd a.tsEnd (s.ackDelay : Nat)

/-- R215: the acknowledgement window of engine `k`'s oldest frame closes without an acknowledgement. -/
def Dev.ackEnd (s : Dev) (k : Nat) : Dev :=
  match s.se.acks.find? fun a => a.le == k with
  | none => s
  | some a =>
    if !tsLe (tsAdd (s.ackAt a) (s.ackGuard : Nat)) s.now then s
    else (s.onSe fun y => { y with acks := y.acks.filter fun z => z != a }).noAck k a.entry a.partner a.shared

/-- An acknowledgement from partner `p` has been accepted: its frame, and the device with the entry completed. -/
def Dev.acked (s : Dev) (p : Nat) : Dev × Option AckWait :=
  match s.se.acks.find? fun a => a.partner == p with
  | none => (s, none)
  | some a =>
    let s := s.onSe fun y => { y with acks := y.acks.filter fun z => z != a }
    let s := if a.shared then s.sharedOk p else s
    ((s.qw a.le a.entry 8 1 (min 255 (s.qTries a.entry + 1))).entryDone a.le a.entry .ok, some a)

/-! ### Aging (rule R221) -/

/-- LIMIT of a class. -/
def Dev.ageLimit (s : Dev) (c : Nat) : Nat :=
  if c = 0 then s.rd SE_AGING_LIMIT0 else if c = 1 then s.rd SE_AGING_LIMIT1 else s.rd SE_AGING_LIMIT2

/-- One entry ages by a slotframe. -/
def Dev.ageEntry (s : Dev) (k e : Nat) : Dev :=
  let a := min 255 (s.qAge e + 1)
  let c := s.qClass e
  if c < 3 ∧ s.ageLimit c < a then (s.qw k e 6 1 (s.qFlags e + 1)).qw k e 7 1 0 else s.qw k e 7 1 a

/-- Every entry of a queue ages; promoted ones take their place, entries in flight stay in front. -/
def Dev.ageQueue (s : Dev) (k i : Nat) : Dev :=
  let l := s.qList i
  if l = [] then s
  else
    let s := s.touchQueue k i
    let s := s.each l fun s e => s.ageEntry k e
    let m := l.filter s.qInFlight ++
      ([3, 2, 1, 0] : List Nat).flatMap fun c => l.filter fun e => !s.qInFlight e && s.qClass e == c
    if m = l then s else s.qStore k i m

/-- Slotframe AGE_SF passes offset 0. -/
def Dev.aging (s : Dev) : Dev :=
  if !s.seRuns then s
  else s.each ((List.range 6).filter s.leRuns) fun s k =>
    let first := s.rd (LE_RANGE_FIRST k)
    let s := s.each ((List.range (s.rd (LE_RANGE_COUNT k))).map (first + ·)) fun s i =>
      if s.pValid i then s.ageQueue k i else s
    s.each (s.bqsOf k) fun s a => s.ageQueue k a

/-! ### Missed exchanges (rules R230 and R232) -/

/-- QUIET_AFTER and REMOVE_AFTER as they act. -/
def missLimit (v : Nat) : Nat := max 1 (min 31 v)

/-- A partner is removed (rule R232): REMOVED is the slot engine's to write here (Table 07-1). -/
def Dev.partnerRemove (s : Dev) (p : Nat) : Dev :=
  let f := s.pf p 0x0D 1
  ((s.put8 0x0C (partnerAddr p + 0x0D) (leBytes 1 (f ||| 2))).queueEmpty p .partnerRemoved).seEvent SE_EVENTS_CHILD_REMOVED p

/-- An expected exchange with partner `p` ends without a sync. -/
def Dev.miss (s : Dev) (p : Nat) : Dev :=
  if !s.seRuns ∨ !s.pValid p then s
  else
    let s := s.touchPartner 0x0C p
    let m := min 31 (s.pMisses p + 1)
    let s := s.pfw p 0x22 1 m
    if s.isSource p then
      let s := ((s.bump SE_CNT_MISS_COUNT).set SE_EVENTS_MISS).seView
      if m = 3 then s.parentLost else s
    else
      let s := if missLimit (s.rd SE_MISS_QUIET_AFTER) ≤ m ∧ !bitOf (s.pf p 0x21 1) 4 then
          (s.pfBits p 0x21 4 1 1).seEvent SE_EVENTS_CHILD_QUIET p else s
      if missLimit (s.rd SE_MISS_REMOVE_AFTER) ≤ m ∧ !s.pRemoved p then s.partnerRemove p else s

/-! ### Arms (rules R208, R213 to R215 and R231) -/

/-- Is a window wholly inside the blank of a transmission of path `p` (rule R214)? -/
def Dev.blankCovers (s : Dev) (p w0 w1 : Nat) : Bool :=
  (s.path p).cmds.any fun c =>
    tsLe (tsAdd c.ts (-(us 32 : Int))) w0 && tsLe w1 (tsAdd c.ts (s.airtime p c.bytes + us 20 : Nat))

/-- The lowest-numbered assignment named in `mask` that can serve a channel of a band (rule R213), and whether its channel
is to be written. -/
def Dev.armPick (s : Dev) (mask band khz : Nat) : Option (Nat × Bool) :=
  let named := (List.range 32).filter fun n => bitOf mask n && s.rd (SLV_ASSIGN_BAND n) == band
  match named.find? fun n => s.rd (SLV_CHAN_CHANNEL_KHZ n) == khz with
  | some n => some (n, false)
  | none =>
    (named.find? fun n => s.on (SLV_CTRL_SLOT_ARMED n) && !s.on (SLV_STATE_IN_FRAME n) && !(s.se.arms.any fun a => a.1 == n)).map
      (·, true)

/-- The detection span of an assignment's mode in counts (rule R208). -/
def Dev.spanOf (s : Dev) (n : Nat) : Nat :=
  spanCounts (s.rd (SLV_ASSIGN_MODE n)) (s.rd (SLV_FSK_RATE n)) (s.rd (SLV_SYNC_CFG_PRE_DETECT n))

/-- An assignment is armed on a channel for an engine until its detection span after `until_`, or NO_SLEEVE counted. -/
def Dev.armOn (s : Dev) (mask band khz k until_ : Nat) : Dev :=
  match s.armPick mask band khz with
  | some (n, write) =>
    let s := (if write then (s.chanWrite n khz).1 else s).arm n k
    let off := tsAdd until_ (s.spanOf n : Nat)
    s.onSe fun x => { x with arms := (x.arms.filter fun a => a.1 != n) ++ [(n, off)] }
  | none => s.bump SE_CNT_NO_SLEEVE_COUNT

/-- The logical engine whose range a link belongs to, the one an arm names. -/
def Dev.armLe (s : Dev) (l : Link) : Nat :=
  if l.partner < 4096 then ((s.leOfPartner l.partner).map s.rangeOf).getD 0 else (if 6 ≤ l.le then 0 else l.le)

/-- SLEEVE_ARM: from E - hem on, or t_ack - ACK_GUARD (rules R208 and R215). -/
def Dev.sleeveArm (s : Dev) (w : ArmFor) : Dev :=
  if !s.seRuns then s
  else match w with
    | .link sf i =>
      let n := s.se.asn
      let l := s.linkAt sf i.toNat
      if !l.rx ∨ !(s.slotLinks n).contains l ∨ l.next ≠ 0 ∨ (s.se.issued.any fun x => x.link == l.addr && x.asn == n) then s
      else
        let e := s.expected l.partner n
        let h := s.hem l.partner e
        let w := tsAdd e (-(h : Int))
        let s := (s.touch 0x0C [(l.addr, 16)]).touchPartner 0x0C l.partner
        if !tsLe w s.now then s
        else if s.blankCovers (l.band - 1) w (tsAdd e h) then s.bump SE_CNT_BLANK_SKIP_COUNT
        else s.armOn l.sleeves l.band (s.linkChannel l n) (s.armLe l) (tsAdd e h)
    | .ack k =>
      match s.se.acks.find? fun a => a.le == k.val with
      | none => s
      | some a =>
        let b := s.peekBytes 0x0C a.link 16
        if !tsLe (tsAdd (s.ackAt a) (-(s.ackGuard : Int))) s.now then s
        else s.armOn (fieldAt b 8 4) (bits (fieldAt b 3 1) 6 2) a.chan (s.rangeOf k) (tsAdd (s.ackAt a) (s.ackGuard : Nat))

/-- SLEEVE_DISARM, not before E + hem + S; during rejoin search an assignment with SLOT_ARMED stays armed (rules R208 and R231). -/
def Dev.sleeveDisarm (s : Dev) (n : Nat) : Dev :=
  if s.se.arms.any fun a => a.1 == n && !tsLe a.2 s.now then s
  else
    let s := s.onSe fun x => { x with arms := x.arms.filter fun a => a.1 != n }
    if s.rd SE_STATUS_STATE = 2 ∧ s.on (SLV_CTRL_SLOT_ARMED n) then s else s.disarm n

/-! ### Narrow hops and calibration gaps (rules R103 to R105 and R213) -/

/-- Does the slot engine issue a narrow hop to a channel now: a served link of this slot or the next on that channel, HOP_LEAD before
its window or its start, that the window does not hold already (rule R213)? -/
def Dev.hopWanted (s : Dev) (b khz : Nat) : Bool :=
  s.seRuns && s.narrow b && (s.band b).target != khz &&
    [s.se.asn, (s.se.asn + 1) % 2 ^ 40].any fun n =>
      (s.slotLinks n).any fun l => l.band == b + 1 && s.linkChannel l n == khz && tsLe (s.hopTime l n) s.now

/-- R74: RFx_NARROW is written; the slot engine writes it where rule R213 has it hop. -/
def Dev.hopBy (s : Dev) (ini b khz : Nat) : Dev := if ini = 0x0C ∧ !s.hopWanted b khz then s else s.narrowHop b khz

/-- What band `b` is to transmit (first) and to receive, each from a time to a time: commands its path holds, entries planned, RX links
of this slot and the next, acknowledgements awaited. -/
def Dev.bandWork (s : Dev) (b : Nat) : List (Nat × Nat) × List (Nat × Nat) :=
  let held := (s.path b).cmds.map fun c => (c.ts, tsAdd c.ts (s.airtime b c.bytes : Nat))
  let at_ (l : Nat) : Nat := bits (fieldAt (s.peekBytes 0x0C l 16) 3 1) 6 2
  let plans := ((List.range 6).flatMap fun k => (s.eng k).preps.flatMap fun p => p.items.filterMap fun x =>
    if at_ x.link = b + 1 then some (x.ts, x.ts) else none)
  let links := [s.se.asn, (s.se.asn + 1) % 2 ^ 40].flatMap fun n => (s.slotLinks n).filterMap fun l =>
    if l.band = b + 1 then some (n, l) else none
  let planned := links.filterMap fun x =>
    let t := s.sendAt x.2.partner x.1
    if x.2.tx ∧ x.2.next ≠ 0 then some (t, t) else none
  let rx := links.filterMap fun x =>
    let e := s.expected x.2.partner x.1
    let h := s.hem x.2.partner e
    if x.2.rx then some (tsAdd e (-(h : Int)), tsAdd e (h : Nat)) else none
  let acks := s.se.acks.filterMap fun a =>
    if at_ a.link = b + 1 then some (tsAdd (s.ackAt a) (-(s.ackGuard : Int)), tsAdd (s.ackAt a) (s.ackGuard : Nat)) else none
  if s.seRuns then (held ++ plans ++ planned, rx ++ acks) else (held, [])

/-- The length of a calibration item in counts (Table 03-4). -/
def calCounts (item : Nat) : Nat :=
  us (match item with
    | 3 => 2000
    | 4 => 4000
    | 7 => 18000
    | _ => 3000)

/-- Does some of these intervals have a part between now and `len` counts from now? -/
def Dev.within (s : Dev) (l : List (Nat × Nat)) (len : Nat) : Bool :=
  l.any fun t => tsLe s.now t.2 && tsLe t.1 (tsAdd s.now (len : Nat))

/-- R103 and R104: does the gap of an item exist? A chain item needs its chain free of frames and, where the band's other chain is not
on and in service, a slot gap; a band item needs a slot gap. -/
def Dev.calGap (s : Dev) (b item : Nat) : Bool :=
  let w := s.bandWork b
  let idle := (s.rd (RF_STATE_STATE b) == 4 || s.rd (RF_STATE_STATE b) == 8) && s.rd (RF_STATE_CAL_ITEM b) == 0
  let slotGap := !s.within (w.1 ++ w.2) (calCounts item + us 52) && !(s.se.arms.any fun a => s.rd (SLV_ASSIGN_BAND a.1) == b + 1)
  idle &&
    if item = 1 ∨ item = 2 then
      !(List.range 32).any (s.inFrameOn b (item - 1)) && !s.within w.1 (calCounts item + us 32) &&
        (s.chainOn b (2 - item) || slotGap)
    else slotGap

/-- R105: a pending item starts when its gap exists. -/
def Dev.calStart (s : Dev) (b item : Nat) : Dev := if s.calPending b item ∧ s.calGap b item then s.calBegin b item else s

/-! ### Meanings -/

/-- NARROW_HOP, rules R74 and R213. -/
def execNarrowHop (ini : Ini) (b : Fin 2) (khz : BitVec 24) : State → Host.Outcome State Fault Refusal :=
  onDev (·.cmdAt ini (RF_NARROW b) (·.hopBy ini b khz.toNat))
/-- CAL_ITEM_START, rule R105. -/
def execCalItemStart (b : Fin 2) (item : Fin 8) : State → Host.Outcome State Fault Refusal := onDev (·.calStart b item)
/-- SE_RUN, rule R197. -/
def execSeRun (ini : Ini) (v : Word) : State → Host.Outcome State Fault Refusal :=
  onDev fun s => s.cmdAt ini SE_CTRL (·.seCtrl v.toNat)
/-- SLOT_BOUNDARY, rule R198. -/
def execSlotBoundary : State → Host.Outcome State Fault Refusal := onDev (·.boundary)
/-- PREP_EVENT, rule R218. -/
def execPrepEvent (k : Fin 6) (asn : BitVec 40) (plans : List PrepPlan) (upset : Bool) :
    State → Host.Outcome State Fault Refusal := onDevKey fun dk s => s.prep dk k asn.toNat plans upset
/-- PREP_DONE, rule R224. -/
def execPrepDone (k : Fin 6) : State → Host.Outcome State Fault Refusal := onDev (·.prepDone k)
/-- NEXT_ENTRY_FETCH, rule R218. -/
def execNextEntryFetch (sf : Fin 8) (i : BitVec 11) : State → Host.Outcome State Fault Refusal :=
  onDev (·.fetchEntry sf i.toNat)
/-- TX_COMPLETION_PROCESS, rule R223. -/
def execTxCompletionProcess (p : Fin 2) (k : Fin 6) : State → Host.Outcome State Fault Refusal := onDev (·.txProcess p k)
/-- ACK_WINDOW_END, rule R215. -/
def execAckWindowEnd (k : Fin 6) : State → Host.Outcome State Fault Refusal := onDev (·.ackEnd k)
/-- AGING_WRAP, rule R221. -/
def execAgingWrap : State → Host.Outcome State Fault Refusal := onDev (·.aging)
/-- EXPECTED_EXCHANGE_MISS, rule R230. -/
def execExpectedExchangeMiss (p : BitVec 12) : State → Host.Outcome State Fault Refusal := onDev (·.miss p.toNat)
/-- SLEEVE_ARM, rule R213. -/
def execSleeveArm (w : ArmFor) : State → Host.Outcome State Fault Refusal := onDev (·.sleeveArm w)
/-- SLEEVE_DISARM, rule R117. -/
def execSleeveDisarm (n : Fin 32) : State → Host.Outcome State Fault Refusal := onDev (·.sleeveDisarm n)

end Sys2Proof.Machine
end

