-- ==== Sys2Proof/Machine/Engines.lean ====
section
/-!
DEFINITION. The link engines: ticks, restarts, spares and rotation (rules R46, R225 and R234 to R237).
-/

namespace Sys2Proof.Machine

/-- Flash from bus address `src` on is copied into storage at `dst`, `n` units. -/
def Dev.loadCode (s : Dev) (src dst n : Nat) : Dev :=
  s.each (List.range n) fun s i =>
    let a := src + 8 * i
    s.setUnitAt (dst + 8 * i) (s.unitAt (s.place (.flash ((a - 0x10000000) / 0x400000)) a)).passed

/-- The SRAM of engine `k` is loaded from the LE_CODE sections that name it (rule R46). -/
def Dev.leLoad (s : Dev) (k : Nat) : Dev :=
  let s := s.each (s.img.leCode.filter fun c => bitOf c.mask k) fun s c => s.loadCode c.off (leBase k) ((c.len + 7) / 8)
  s.setEng k { s.eng k with code := true }

/-- An engine is ready: a spare released under rule R234 with the code that stands in its SRAM; any other, one that restarts in place
among them, with its code loaded first (rules R46 and R236). -/
def Dev.leReady (s : Dev) (k : Nat) : Dev :=
  if s.rd (LE_STATE_ROLE k) ≠ 1 ∨ (s.eng k).ready ∨ !s.up 5 then s
  else
    let s := { s with mnt := { s.mnt with pending := s.mnt.pending.filter (· != 2 + k) } }
    let s := if s.on (LE_STATE_RUNNING k) then s else ((s.leLoad k).hartReset (2 + k)).set (LE_STATE_RUNNING k)
    ((s.setEng k { s.eng k with ready := true, last := s.now }).unitState (2 + k) (if s.isLasting (2 + k) then 6 else 0)).svcEval

/-- R225: a tick of engine `k` falls due and starts where the arithmetic lets it. -/
def Dev.leTick (s : Dev) (k : Nat) : Dev :=
  let p := tickTimes (s.rd (LE_TICK_TICK_US k)) 100 (s.rd SE_CATCHUP_STEP_SHIFT)
  if !s.leRuns k then s
  else match tickStart s.now p.1 p.2 (s.eng k).due (s.eng k).tickMin with
    | none => s
    | some (lag, due, low) =>
      let s := (s.setEng k { s.eng k with due := some due, tickMin := low, last := s.now }).wr (LE_LAG_TICK_LAG_US k) (min 0xFFFF (lag / 8))
      s.put (LE_STATE_CATCHUP k) ((s.eng k).adv != 0 || lag != 0)

/-- R237: the spare engine starts its self-test. -/
def Dev.leTest (s : Dev) : Dev :=
  match s.leSpare with
  | some j =>
    if s.on LE_ROT_PERIOD_S ∧ !s.on (LE_STATE_SELFTEST j) ∧ s.up 5 ∧ s.waited .leTest (us (1000000 * s.rd LE_ROT_PERIOD_S)) then
      ((s.set (LE_STATE_SELFTEST j)).unitState (2 + j) 3).mark .leTest
    else s
  | none => s

/-- R237: the spare's self-test of 20 ms ends. -/
def Dev.leTested (s : Dev) (pass : Bool) : Dev :=
  match s.leSpare with
  | some j =>
    if !s.on (LE_STATE_SELFTEST j) ∨ !s.waited .leTest (us 20000) then s
    else
      let s := (s.clr (LE_STATE_SELFTEST j)).unitState (2 + j) 2
      if pass then s.onSe fun x => { x with rotate := true }
      else (s.set LE_EVENTS_SELFTEST_FAIL).charge (2 + j) .selftestFail 0
  | none => s

/-- The next active engine of the round robin. -/
def Dev.leNext (s : Dev) : Option Nat :=
  ((List.range 6).map fun i => (s.se.nextLe + i) % 6).find? fun k => s.rd (LE_STATE_ROLE k) == 1 && s.on (LE_STATE_RUNNING k)

/-- Is engine `k` idle, with no preparation pending: no report in its hands, no acknowledgement awaited (rule R237)? -/
def Dev.leIdle (s : Dev) (k : Nat) : Bool :=
  (s.eng k).preps == [] && (s.eng k).rx == [] && !(s.se.acks.any fun a => a.le == k)

/-- R237: the spare swaps with the next active engine while that one has no preparation pending; the relieved engine becomes
the spare. -/
def Dev.leRotate (s : Dev) : Dev :=
  match s.leSpare, s.leNext with
  | some j, some k =>
    if !s.se.rotate ∨ !s.leIdle k ∨ !s.up 5 then s
    else
      let s := (s.clr (LE_STATE_RUNNING k)).leSwitch k j true
      let s := (s.wr (LE_STATE_ROLE k) 2).unitState (2 + k) 2
      (s.set LE_EVENTS_ROTATED).onSe fun x => { x with rotate := false, nextLe := (k + 1) % 6 }
  | _, _ => s

/-! ### Meanings -/

/-- LE_TICK, rule R225. -/
def execLeTick (k : Fin 6) : State → Host.Outcome State Fault Refusal := onDev (·.leTick k)
/-- LE_SPARE_READY, rule R234. -/
def execLeSpareReady (k : Fin 6) : State → Host.Outcome State Fault Refusal := onDev (·.leReady k)
/-- LE_RESTART_DONE, rule R236. -/
def execLeRestartDone (k : Fin 6) : State → Host.Outcome State Fault Refusal := onDev (·.leReady k)
/-- LE_SELFTEST_START, rule R237. -/
def execLeSelftestStart : State → Host.Outcome State Fault Refusal := onDev (·.leTest)
/-- LE_SELFTEST_DONE, rule R237. -/
def execLeSelftestDone (pass : Bool) : State → Host.Outcome State Fault Refusal := onDev (·.leTested pass)
/-- LE_ROTATION_SWAP, rule R237. -/
def execLeRotationSwap : State → Host.Outcome State Fault Refusal := onDev (·.leRotate)

end Sys2Proof.Machine
end

