-- ==== Sys2Proof/Machine/Partners.lean ====
section
/-!
DEFINITION. The partner table control: the key index and the PT_CMD commands (rules R239 to R245).
-/

namespace Sys2Proof.Machine

/-! ### The key index (rule R240) -/

/-- A key of the index: its slot, its octets and its entry. -/
abbrev KeySlot := Nat × List Byte × Nat

/-- The first free slot of a key among its eight. -/
def keySlot (l : List KeySlot) (key : List Byte) : Option Nat :=
  ((List.range 8).map fun i => (keyHash key + i) % 8192).find? fun j => !l.any fun e => e.1 == j

/-- Keys are added for entry `i`; none where one finds no slot. -/
def keysAdd (l : List KeySlot) (i : Nat) : List (List Byte) → Option (List KeySlot)
  | [] => some l
  | k :: r =>
    match keySlot l k with
    | some j => keysAdd (l ++ [(j, k, i)]) i r
    | none => none

/-- The index without the keys of entry `i`. -/
def keysDrop (l : List KeySlot) (i : Nat) : List KeySlot := l.filter fun e => e.2.2 != i

/-- The index takes a list of keys, and PT_STATUS follows. -/
def Dev.setKeys (s : Dev) (l : List KeySlot) : Dev := (s.onMl fun m => { m with keys := l }).wr PT_STATUS_KEYS_USED l.length

/-! ### Commands (rule R242) -/

/-- The keys of the command's arguments. -/
def Dev.ptKeys (s : Dev) : List (List Byte) :=
  (if s.on PT_ATTR0_KEY_EXT then [leBytes 4 (s.rd PT_EXT_LO_ADDR) ++ leBytes 4 (s.rd PT_EXT_HI_ADDR)] else []) ++
    (if s.on PT_ATTR0_KEY_SHORT then [leBytes 2 (s.rd PT_SHORT_SHORT) ++ leBytes 2 (s.rd PT_SHORT_PAN_ID)] else [])

/-- A command ends with a result. -/
def Dev.ptEnd (s : Dev) (st : Status) : Dev :=
  ((s.st PT_CMD_RESULT st).clr PT_CMD_PENDING).set PT_EVENTS_CMD_DONE

/-- A write of OP: ignored while a command runs; refused where no active engine serves the entry. -/
def Dev.ptOp (s : Dev) (op : Nat) (f : Nat → Dev → Dev) : Dev :=
  let i := s.rd PT_INDEX_INDEX
  if s.on PT_CMD_PENDING then s.set PT_EVENTS_CMD_IGNORED
  else if op ≠ 5 ∧ !s.served i then s.ptEnd .notReady
  else f i (if op = 5 then s else s.touchPartner (s.ownerOf i) i)

/-- The fields that ADD and UPDATE write from the arguments, FLAGS apart. -/
def Dev.ptWrite (s : Dev) (i : Nat) : Dev :=
  let s := (s.pfw i 0 4 (s.rd PT_EXT_LO_ADDR)).pfw i 4 4 (s.rd PT_EXT_HI_ADDR)
  let s := (s.pfw i 8 2 (s.rd PT_SHORT_SHORT)).pfw i 0x0A 2 (s.rd PT_SHORT_PAN_ID)
  let s := (s.pfw i 0x0C 1 (s.rd PT_ATTR0_POCKET)).pfw i 0x3A 1 (s.rd PT_ATTR1_GROUP_POCKET)
  let s := (s.pfw i 0x38 2 (max 16 (min 2000 (s.rd PT_ATTR1_FRAG_DATA)))).pfBits i 0x3B 1 1 (s.rd PT_ATTR1_GROUP_EN)
  let s := (s.pfBits i 0x21 2 2 (s.rd PT_ATTR0_SYNC_ROLE)).pfBits i 0x21 5 1 (s.rd PT_ATTR0_ALT)
  (s.pfw i 0x23 1 (s.rd PT_ATTR0_ALT_RANK)).pfBits i 0x0D 6 2 (s.rd PT_ATTR0_KEY_EXT + 2 * s.rd PT_ATTR0_KEY_SHORT)

/-- Is a key of the arguments indexed for another entry than `i`? -/
def Dev.ptConflict (s : Dev) (i : Nat) : Bool :=
  s.ptKeys.any fun k => s.ml.keys.any fun e => e.2.1 == k && e.2.2 != i

/-- The entry is scrubbed. -/
def Dev.ptScrub (s : Dev) (i : Nat) : Dev := s.put8 (s.ownerOf i) (partnerAddr i) (List.replicate 64 0)

/-- ADD. -/
def Dev.ptAdd (s : Dev) : Dev :=
  s.ptOp 1 fun i s =>
    if s.pValid i then s.ptEnd .busy
    else if s.ptConflict i then s.ptEnd .keyConflict
    else match keysAdd (keysDrop s.ml.keys i) i s.ptKeys with
      | none => s.ptEnd .lookupFull
      | some l =>
        let s := ((s.ptScrub i).ptWrite i).pfBits i 0x0D 0 1 1
        ((s.setKeys l).wr PT_STATUS_VALID_COUNT (s.rd PT_STATUS_VALID_COUNT + 1)).ptEnd .ok

/-- UPDATE: of several refusals the lowest code is reported (chapter 00, "Status codes"). -/
def Dev.ptUpdate (s : Dev) : Dev :=
  s.ptOp 2 fun i s =>
    if s.ptConflict i then s.ptEnd .keyConflict
    else match keysAdd (keysDrop s.ml.keys i) i s.ptKeys with
      | none => s.ptEnd .lookupFull
      | some l => if !s.pValid i then s.ptEnd .noPartner else ((s.ptWrite i).setKeys l).ptEnd .ok

/-- The cipher requests outstanding for partner `i`: of a received frame, and of entries in preparation. -/
def Dev.ptRequests (s : Dev) (i : Nat) : List Nat :=
  let of (k : Nat) : List Nat :=
    ((s.eng k).rx.filterMap fun w => if w.partner = i then w.req else none) ++
      (s.eng k).preps.flatMap fun p => p.items.filterMap fun x => if s.qPartner x.entry = i then x.req else none
  (List.range 6).flatMap of

/-- DELETE goes on once no request of the partner is outstanding: outputs scrubbed, the MIC of a preparation among them, keys
removed, entry scrubbed (rule R243). -/
def Dev.ptDeleteGo (s : Dev) (i : Nat) : Dev :=
  if (s.ptRequests i).any fun a => s.sec.queue.any fun q => q.addr == a then
    (s.onMl fun m => { m with ptOp := some (3, i) }).set PT_CMD_PENDING
  else
    let s := s.each (List.range 6) fun s k =>
      let g := s.eng k
      let s := s.each (g.rx.filter fun w => w.partner == i) fun s w => s.descScrub k w.desc
      let gone := g.preps.flatMap fun p => p.items.filterMap fun x => if s.qPartner x.entry = i then x.req else none
      let s := s.each gone fun s a =>
        let b := s.peekBytes (2 + k) a 64
        (s.put8 (2 + k) (fieldAt b 0x14 4) (List.replicate (fieldAt b 0x0E 2) 0)).put8 (2 + k) (fieldAt b 0x18 4)
          (List.replicate (micLen (fieldAt b 3 1 % 8)) 0)
      s.setEng k { g with
        rx := g.rx.filter fun w => w.partner != i,
        preps := g.preps.map fun p => { p with items := p.items.filter fun x => s.qPartner x.entry != i } }
    let s := (s.setKeys (keysDrop s.ml.keys i)).ptScrub i
    let s := s.onMl fun m => { m with ptOp := none }
    (s.wr PT_STATUS_VALID_COUNT (s.rd PT_STATUS_VALID_COUNT - 1)).ptEnd .ok

/-- DELETE. -/
def Dev.ptDelete (s : Dev) : Dev :=
  s.ptOp 3 fun i s => if !s.pValid i then s.ptEnd .noPartner else (s.queueEmpty i .partnerRemoved).ptDeleteGo i

/-- A pending DELETE is taken up when a cipher request has ended. -/
def Dev.ptResume (s : Dev) : Dev :=
  match s.ml.ptOp with
  | some (_, i) => s.ptDeleteGo i
  | none => s

/-- REENTER. -/
def Dev.ptReenter (s : Dev) : Dev :=
  s.ptOp 4 fun i s =>
    if !s.pValid i then s.ptEnd .noPartner
    else (((s.pfBits i 0x0D 1 1 0).pfBits i 0x21 4 1 0).pfw i 0x22 1 0).ptEnd .ok

/-- LOOKUP. -/
def Dev.ptLookupCmd (s : Dev) : Dev :=
  s.ptOp 5 fun _ s =>
    match s.ptKeys with
    | [k] =>
      match s.ptLookup k with
      | (s, some i) => (s.wr PT_INDEX_INDEX i).ptEnd .ok
      | (s, none) => s.ptEnd .noPartner
    | _ => s.ptEnd .noPartner

/-- A write to PT_CMD. -/
def Dev.ptCmd (s : Dev) (v : Nat) : Dev :=
  match v % 8 with
  | 1 => s.ptAdd
  | 2 => s.ptUpdate
  | 3 => s.ptDelete
  | 4 => s.ptReenter
  | 5 => s.ptLookupCmd
  | _ => s

/-- The keys of the valid entry `i` as it stands in memory. -/
def Dev.storedKeys (s : Dev) (i : Nat) : List (List Byte) :=
  let f := s.pf i 0x0D 1
  (if bitOf f 6 then [leBytes 8 (s.pf i 0 8)] else []) ++ (if bitOf f 7 then [leBytes 2 (s.pf i 8 2) ++ leBytes 2 (s.pf i 0x0A 2)] else [])

/-- R245: the index is rebuilt from the valid entries, in order; a key that finds no slot is left out. -/
def Dev.ptRebuild (s : Dev) : Dev :=
  if !s.ml.rebuilding ∨ !s.up 5 then s
  else
    let valid := (List.range 4096).filter s.pValid
    let s := s.touch 0x0C [(partnerAddr 0, 4096 * 64)]
    let l := valid.foldl (fun l i => (s.storedKeys i).foldl (fun l k => (keysAdd l i [k]).getD l) l) []
    let s := (s.setKeys l).onMl fun m => { m with rebuilding := false }
    (s.wr PT_STATUS_VALID_COUNT valid.length).set PT_EVENTS_INDEX_REBUILT

/-! ### Meanings -/

/-- PT_ADD, rule R242. -/
def execPtAdd (ini : Ini) : State → Host.Outcome State Fault Refusal := onDev fun s => s.cmdAt ini PT_CMD (·.ptAdd)
/-- PT_UPDATE, rule R242. -/
def execPtUpdate (ini : Ini) : State → Host.Outcome State Fault Refusal := onDev fun s => s.cmdAt ini PT_CMD (·.ptUpdate)
/-- PT_DELETE, rule R243. -/
def execPtDelete (ini : Ini) : State → Host.Outcome State Fault Refusal := onDev fun s => s.cmdAt ini PT_CMD (·.ptDelete)
/-- PT_REENTER, rule R242. -/
def execPtReenter (ini : Ini) : State → Host.Outcome State Fault Refusal := onDev fun s => s.cmdAt ini PT_CMD (·.ptReenter)
/-- PT_LOOKUP, rule R242. -/
def execPtLookup (ini : Ini) : State → Host.Outcome State Fault Refusal := onDev fun s => s.cmdAt ini PT_CMD (·.ptLookupCmd)
/-- KEY_INDEX_REBUILD, rule R245. -/
def execKeyIndexRebuild : State → Host.Outcome State Fault Refusal := onDev (·.ptRebuild)

end Sys2Proof.Machine
end

