-- ==== Sys2Proof/Machine/Messages.lean ====
section
/-!
DEFINITION. Accepting frames, and the message layer: reassembly, the duplicate window, delivery, streaming, submissions and
transactions (rules R246 to R281).
-/

namespace Sys2Proof.Machine

/-! ### A frame in its buffer (rules R159 to R166) -/

/-- Fields of a receive report (Table 04-5a). -/
def repMode (s : Dev) (rep : List Byte) : Nat := s.rd (SLV_ASSIGN_MODE (fieldAt rep 2 1))
def repDesc (rep : List Byte) : Nat := fieldAt rep 0x10 2
def repTs (rep : List Byte) : Nat := fieldAt rep 8 8

/-- FCS octets of a reported frame. -/
def repFcs (s : Dev) (rep : List Byte) : Nat :=
  match repMode s rep with
  | 0 => if phrBit (rep.drop 0x28) 3 then 2 else 4
  | 1 => 2
  | _ => 4

/-- PHY_A as Table 05-8 lays it out, for the frame of a report. -/
def repPhy (s : Dev) (rep : List Byte) : Nat :=
  if repMode s rep = 0 then fieldAt rep 0x18 1 + (if bitOf (fieldAt rep 1 1) 5 then 16 else 0) else fieldAt rep 0x18 1

/-- The octets of a reported frame, FCS apart, as its link engine reads them. -/
def Dev.frame (s : Dev) (rep : List Byte) : List Byte :=
  s.peekBytes 0x0C (s.bufAddr (repDesc rep)) (fieldAt rep 6 2 - repFcs s rep)

/-- The frame of a report, or none where rule R160 drops it. -/
def Dev.seen (s : Dev) (rep : List Byte) : Option Seen := seenIn (s.frame rep)

/-! ### Delivery (rules R271 and R272, Table 07-11) -/

/-- What a delivery record says beside the message. -/
structure Deliver where
  type : Nat
  status : Status
  first : Nat
  frags : Nat
  part : Nat
  length : Nat
  partner : Nat
  release : Nat
  newOrigin : Bool
  asn : Nat              -- slot of the completing fragment
deriving DecidableEq, Repr

/-- The 32 bytes of a delivery record for a message whose data the record does not carry. -/
def deliveryRecord (m : Msg) (d : Deliver) : List Byte :=
  leBytes 1 d.type ++ leBytes 1 d.status.code ++
  leBytes 1 (m.kind + 16 * (m.flags / 16 % 4) + 64 * (m.flags / 4 % 2) + (if d.newOrigin then 128 else 0)) ++
  leBytes 1 m.hops ++ leBytes 2 m.origin ++ leBytes 2 m.dest ++ leBytes 2 m.txn ++ leBytes 2 d.length ++ leBytes 2 d.first ++
  leBytes 1 d.frags ++ leBytes 1 d.part ++ leBytes 2 d.partner ++ leBytes 2 0 ++ leBytes 5 d.asn ++ leBytes 5 d.release ++ leBytes 2 0

/-- A record goes to a consumer's ring; dropped, with DQ_FULL, for consumer 3 or a full ring. -/
def Dev.deliver (s : Dev) (consumer : Nat) (m : Msg) (d : Deliver) : Dev × Bool :=
  if consumer < 3 ∧ s.mlFree consumer then (s.mlPut consumer (deliveryRecord m d), true)
  else ((s.bump ML_CNT_DQ_FULL_COUNT).set ML_EVENTS_DQ_FULL, false)

/-- The descriptors of a message are linked through the descriptor table, in fragment order (rule R255 and Table 07-9). -/
def Dev.chain (s : Dev) (l : List Part) : Dev :=
  s.each (l.zip ((l.drop 1).map (·.desc) ++ [0xFFFF])) fun s p =>
    let x := p.1
    s.put8 0x0C (s.rd ML_DT_BASE_ADDR * 8 + 8 * x.desc)
      (leBytes 2 p.2 ++ leBytes 2 x.off ++ leBytes 2 x.len ++ leBytes 1 x.index ++ [0])

/-- A chain is handed to a consumer: the descriptors that one delivery record names (rule R273). -/
def Dev.handOver (s : Dev) (l : List Part) : Dev :=
  s.each (l.zip ((l.drop 1).map (some ·.desc) ++ [none])) fun s p =>
    s.setDesc p.1.desc { s.desc p.1.desc with holder := .delivered, head := decide (l.head? = some p.1), next := p.2 }

/-- Has descriptor `i` been handed to a consumer? -/
def Dev.handed (s : Dev) (i : Nat) : Bool := decide ((s.desc i).holder = .delivered)

/-- The descriptors of a message that no consumer holds are freed. -/
def Dev.freeParts (s : Dev) (l : List Part) : Dev := s.descsFree ((l.map (·.desc)).filter fun i => !s.handed i)

/-- A linked message or notice with its descriptors goes to a consumer; they are freed where it cannot. -/
def Dev.deliverChain (s : Dev) (consumer : Nat) (m : Msg) (d : Deliver) (l : List Part) : Dev × Bool :=
  let r := s.deliver consumer m { d with first := (l.head?).elim 0xFFFF (·.desc), frags := l.length }
  if r.2 then (r.1.handOver l, true) else (r.1.freeParts l, false)

/-- A record without descriptors. -/
def Deliver.init (type : Nat) (st : Status) (m : Msg) (partner asn : Nat) : Deliver :=
  { type := type, status := st, first := 0xFFFF, frags := 0, part := 0, length := m.data.length, partner := partner, release := 0,
    newOrigin := false, asn := asn }

/-- A RAW_FRAME goes to a consumer: the whole PSDU of its descriptor. -/
def Dev.deliverRaw (s : Dev) (consumer partner asn : Nat) (rep : List Byte) : Dev :=
  let m : Msg := { kind := 0, flags := 0, txn := 0, origin := 0, dest := 0, hops := 0, data := [] }
  let n := fieldAt rep 6 2
  let l : List Part := [{ index := 0, desc := repDesc rep, off := 0, len := n, verdict := none }]
  ((s.chain l).deliverChain consumer m { Deliver.init 5 .ok m partner asn with length := n } l).1

/-- The consumer of a kind for this node (rule R271): that of the submitter for kind 2. -/
def Dev.consumerOf (s : Dev) (kind : Nat) (sub : Nat) : Nat :=
  if kind = 0 then s.rd ML_DELIVER_DATA else if kind = 1 then s.rd ML_DELIVER_REQUEST
  else if kind = 5 then s.rd ML_DELIVER_ROUTE else sub

/-! ### Messages the layer itself sends (rules R261 and R265) -/

/-- A kind 3 or kind 4 to the origin of a message, in class 3. Without a route or a place to build it, it is not sent. -/
def Dev.mlAnswer (s : Dev) (dst txn kind : Nat) (data : List Byte) (plans : List FragPlan) : Dev × List FragPlan :=
  let m : Msg := { kind := kind, flags := 0x30, txn := txn, origin := s.rd ML_SELF_ADDR, dest := dst,
                   hops := s.rd ML_CFG_DEF_HOPS, data := data }
  let s := s.touchRoute dst
  match s.hop dst, plans with
  | .via p, x :: rest => (s.msgSend m p [x] .layer 1, rest)
  | _, _ => (s, plans)

/-! ### The duplicate window (rules R261 and R262) -/

/-- What the window says of a transaction; `skipped` where no test is made (rules R262 and R263). -/
inductive Window where
  | new
  | duplicate
  | tooOld
  | newOrigin
  | skipped
deriving DecidableEq, Repr

/-- The test of transaction t from an origin. -/
def Dev.window (s : Dev) (origin t : Nat) : Window :=
  match s.rtFind origin with
  | none => .newOrigin
  | some e =>
    if bitOf (s.peek 0x0C (e + 4) 1) 1 then .skipped
    else if !bitOf (s.peek 0x0C (e + 5) 1) 0 then .new
    else
      let d := (s.peek 0x0C (e + 6) 2 + 65536 - t) % 65536
      if 32768 ≤ d then .new
      else if d < 64 then (if bitOf (s.peek 0x0C (e + 8) 8) d then .duplicate else .new)
      else .tooOld

/-- Transaction t of an origin is marked at completion. -/
def Dev.windowMark (s : Dev) (origin t : Nat) : Dev :=
  match s.rtFind origin with
  | none => s
  | some e =>
    let put (s : Dev) (top map : Nat) : Dev :=
      s.put8 0x0C (e + 5) (leBytes 1 1 ++ leBytes 2 top ++ leBytes 8 map)
    if bitOf (s.peek 0x0C (e + 4) 1) 1 then s
    else if !bitOf (s.peek 0x0C (e + 5) 1) 0 then put s t 1
    else
      let top := s.peek 0x0C (e + 6) 2
      let map := s.peek 0x0C (e + 8) 8
      let d := (top + 65536 - t) % 65536
      if 32768 ≤ d then put s t (if 64 ≤ 65536 - d then 1 else map * 2 ^ (65536 - d) + 1)
      else if d < 64 ∧ !bitOf map d then put s top (map + 2 ^ d)
      else s

/-! ### A complete message (rules R258, R259, R263 to R266) -/

/-- Is a mesh address this node's own? -/
def Dev.isSelf (s : Dev) (a : Nat) : Bool := a == s.rd ML_SELF_ADDR && a != 0xFFFE

/-- A message that has arrived: its header, its last-hop partner, its parts in order, the slot of the fragment that completed it, and
whether its origin has no route entry. -/
structure Arrived where
  msg : Msg
  partner : Nat
  parts : List Part
  asn : Nat
  newOrigin : Bool
  streamed : Bool
deriving DecidableEq, Repr

/-- The message's record goes to its consumer: a MESSAGE with its chain, or the STREAM_END of a streamed one, whose parts that the host
does not hold are freed (rules R271 and R275). -/
def Dev.deliverMsg (s : Dev) (c : Nat) (a : Arrived) (d : Deliver) : Dev × Bool :=
  if a.streamed then
    let r := s.deliver c a.msg { d with type := 3 }
    (r.1.freeParts a.parts, r.2)
  else s.deliverChain c a.msg d a.parts

/-- A kind 4 stands in for a delivery whose ring is full: the message is neither marked nor kept. -/
def Dev.busyAnswer (s : Dev) (a : Arrived) (plans : List FragPlan) : Dev × List FragPlan :=
  let s := ((s.bump ML_CNT_DQ_FULL_COUNT).set ML_EVENTS_DQ_FULL).freeParts a.parts
  s.mlAnswer a.msg.origin a.msg.txn 4 (leBytes 2 (min 0xFFFF (4 * s.rd ML_LIMITS_HINT_SLOTS))) plans

/-- A message of kind 0, 1 or 5 is delivered to its consumer; the answer says also whether the window marked it new. -/
def Dev.deliverHere (s : Dev) (a : Arrived) (plans : List FragPlan) : Dev × List FragPlan × Bool :=
  let m := a.msg
  let c := s.consumerOf m.kind 0
  let ack := m.kind == 0 && bitOf m.flags 0
  if (ack || m.kind == 1) && c != 3 && !s.mlFree c then
    let r := s.busyAnswer a plans
    (r.1, r.2, false)
  else
    let marked := s.window m.origin m.txn == .new
    let spread := m.kind == 1 && bitOf m.flags 3
    let r := if spread then s.hwDraw else (s, 0)
    let rel := if spread then s.se.asn + r.2 % max 1 (fieldAt m.data 0 2) else 0
    let s := r.1.windowMark m.origin m.txn
    let s := if a.newOrigin then s.set ML_EVENTS_NEW_ORIGIN else s
    let r := s.deliverMsg c a { Deliver.init 0 .ok m a.partner a.asn with release := rel, newOrigin := a.newOrigin }
    let q := if ack ∧ r.2 then r.1.mlAnswer m.origin m.txn 3 [] plans else (r.1, plans)
    (q.1, q.2, marked)

/-- The open transaction that a message of kind 2, 3 or 4 matches: the same id, and its ORIGIN the destination (rule R263). -/
def Dev.txnFor (s : Dev) (m : Msg) : Option Txn := s.ml.txns.find? fun t => t.id == m.txn && (t.dest == m.origin || t.dest == 0xFFFF)

/-- A message of kind 2, 3 or 4 for this node meets its open transaction (rules R263 and R264, Table 07-8). A request to every node
stays open until its timeout. -/
def Dev.answerHere (s : Dev) (a : Arrived) : Dev :=
  let m := a.msg
  match s.txnFor m with
  | none => (s.freeParts a.parts).bump ML_CNT_UNMATCHED_COUNT
  | some t =>
    let all := decide (t.dest = 0xFFFF ∧ t.msg.kind = 1)
    if m.kind = 2 then
      let r := s.deliverMsg t.sub a (Deliver.init 0 .ok m a.partner a.asn)
      if !r.2 ∨ t.msg.kind ≠ 1 then r.1
      else if all then r.1.txnSet { t with answered := true }
      else r.1.txnDone t .ok
    else
      let s := s.freeParts a.parts
      if m.kind = 3 then (if t.msg.kind = 0 then s.txnDone t .ok else s)
      else if all then s
      else if t.retries = 0 then s.txnDone t .busy
      else s.txnSet { t with busy := true, since := none, resendAt := some (s.se.asn + fieldAt m.data 0 2) }

/-- The rebroadcast of a broadcast message that the window has marked new (step 2 of rule R258). -/
def Dev.rebroadcast (s : Dev) (a : Arrived) (plans : List FragPlan) : Dev :=
  let m := { a.msg with hops := a.msg.hops - 1 }
  let n := s.fragCount m 0xFFFF
  if s.on ML_CFG_REBROADCAST ∧ 0 < a.msg.hops ∧ n ≤ plans.length ∧ n ≤ 255 then s.msgSend m 0xFFFF plans .layer 1 else s

/-- A message that goes on to another node (steps 3 to 6 of rule R258). -/
def Dev.passOn (s : Dev) (a : Arrived) (plans : List FragPlan) : Dev :=
  let m := a.msg
  if m.hops = 0 then (s.freeParts a.parts).bump ML_CNT_HOP_LIMIT_COUNT
  else
    let s := s.touchRoute m.dest
    match s.hop m.dest with
    | .via p =>
      if p = a.partner then ((s.freeParts a.parts).bump ML_CNT_LOOP_COUNT).set ML_EVENTS_LOOP
      else
        let f := { m with hops := m.hops - 1 }
        let s := s.bump ML_CNT_FWD_COUNT
        if s.fragCount f p ≤ plans.length ∧ s.fragCount f p ≤ 255 then
          let s := s.each a.parts fun s x => s.setDesc x.desc { s.desc x.desc with holder := .forward }
          s.msgSend f p plans (.forward (a.parts.map (·.desc)) false) 1
        else (s.freeParts a.parts).bump ML_CNT_FWD_FAIL_COUNT
    | _ =>
      let s := (s.bump ML_CNT_NO_ROUTE_COUNT).set ML_EVENTS_NO_ROUTE
      (s.deliverChain (s.rd ML_DELIVER_ROUTE) m (Deliver.init 4 .noRoute m a.partner a.asn) a.parts).1

/-- MESSAGE_COMPLETE: the fragments are linked in index order (rule R255), and the message takes its way (rule R258). -/
def Dev.messageDone (s : Dev) (a : Arrived) (plans : List FragPlan) : Dev :=
  let m := a.msg
  let s := s.chain a.parts
  if !s.isSelf m.dest ∧ m.dest ≠ 0xFFFF then s.passOn a plans
  else if m.kind = 2 ∨ m.kind = 3 ∨ m.kind = 4 then s.answerHere a
  else
    let r := s.deliverHere a plans
    if m.dest = 0xFFFF ∧ !s.isSelf m.dest ∧ r.2.2 then r.1.rebroadcast a r.2.1 else r.1

/-! ### Fragments (rules R252 to R255, R261 and R274) -/

/-- A fragment as its header names it. -/
structure Fragment where
  msg : Msg              -- its data is the fragment's own
  index : Nat
  count : Nat
  total : Nat
  more : Bool
  off : Nat              -- of the data in the buffer
deriving DecidableEq, Repr

/-- The total lengths of a kind (Table 07-4). -/
def totalOk (kind n : Nat) : Bool :=
  match kind with
  | 2 => decide (n ≤ 4096)
  | 3 => n == 0
  | 4 => n == 2
  | _ => decide (1 ≤ n) && decide (n ≤ 4096)

/-- The fragment in the payload of a data frame from a partner, or none where rule R252 drops it. -/
def Dev.fragmentOf (s : Dev) (p base : Nat) (l : List Byte) : Option Fragment :=
  let meshed := fieldAt l 0 1 / 16 == 0xE
  let h := if meshed then l.drop 6 else l
  let o0 := fieldAt h 0 1
  let fl := fieldAt h 1 1
  let kind := o0 % 16
  let idx := fieldAt h 4 1
  let cnt := fieldAt h 5 1
  let tot := fieldAt h 6 2
  let data := h.drop 8
  if h.length < 8 ∨ o0 / 16 ≠ 1 ∨ 6 ≤ kind ∨ 64 ≤ fl ∨ cnt = 0 ∨ cnt ≤ idx ∨ !totalOk kind tot ∨ (bitOf fl 3 ∧ kind ≠ 1) ∨
      (meshed ∧ fieldAt l 1 1 ≠ 0) then none
  else
    some { msg := { kind := kind, flags := fl - fl / 2 % 2 * 2, txn := fieldAt h 2 2,
                    origin := if meshed then fieldAt l 2 2 else s.pf p 8 2,
                    dest := if meshed then fieldAt l 4 2 else s.rd ML_SELF_ADDR,
                    hops := if meshed then fieldAt l 0 1 % 16 else 0, data := data },
           index := idx, count := cnt, total := tot, more := bitOf fl 1, off := base + (if meshed then 14 else 8) }

/-- Is a fragment for this node? -/
def Dev.forHere (s : Dev) (m : Msg) : Bool := s.isSelf m.dest || m.dest == 0xFFFF

/-- The context of a fragment. -/
def Dev.ctxOf (s : Dev) (p : Nat) (m : Msg) : Option RaCtx :=
  s.ml.ctxs.find? fun c => c.partner == p && c.origin == m.origin && c.kind == m.kind && c.txn == m.txn

/-- Contexts as they act (Table 07-19). -/
def Dev.ctxLimit (s : Dev) : Nat := max 1 (min 256 (s.rd ML_RA_CFG_CONTEXTS))

/-- The context in place `i` of the context area is stored. -/
def Dev.ctxStore (s : Dev) (i : Nat) : Dev := s.areaWrite (s.rd ML_RA_BASE_ADDR * 64 + 64 * i) 64

/-- A context opens. -/
def Dev.ctxOpen (s : Dev) (c : RaCtx) : Dev := (s.onMl fun m => { m with ctxs := m.ctxs ++ [c] }).ctxStore c.slot

/-- A context is replaced by another record of it. -/
def Dev.ctxSet (s : Dev) (c d : RaCtx) : Dev :=
  (s.onMl fun m => { m with ctxs := m.ctxs.map fun x => if x = c then d else x }).ctxStore c.slot

/-- A context is no longer in use. -/
def Dev.ctxDrop (s : Dev) (c : RaCtx) : Dev := (s.onMl fun m => { m with ctxs := m.ctxs.filter fun x => x != c }).ctxStore c.slot

/-- The window test a fragment of this node goes through. -/
def Dev.fragWindow (s : Dev) (m : Msg) : Window :=
  if s.forHere m ∧ (m.kind = 0 ∨ m.kind = 1 ∨ m.kind = 5) then s.window m.origin m.txn else .skipped

/-- Does a fragment need a context that is not open? -/
def Dev.needsCtx (s : Dev) (p : Nat) (f : Fragment) : Bool :=
  decide (1 < f.count) && (s.ctxOf p f.msg).isNone && s.fragWindow f.msg != .duplicate && s.fragWindow f.msg != .tooOld

/-- The message of a context without its data. -/
def RaCtx.msg (c : RaCtx) (data : List Byte) : Msg :=
  { kind := c.kind, flags := c.flags, txn := c.txn, origin := c.origin, dest := c.dest, hops := c.hops, data := data }

/-- The data of the parts of a message, in order. -/
def Dev.partsData (s : Dev) (l : List Part) : List Byte := l.flatMap fun x => s.peekBytes 0x0C (s.bufAddr x.desc + x.off) x.len

/-- A STREAM_PART, STREAM_VERDICT or STREAM_END record of a streamed context for the frame of slot `asn`; does it reach the host? -/
def Dev.streamRecord (s : Dev) (c : RaCtx) (type : Nat) (st : Status) (x : Option Part) (asn : Nat) : Dev × Bool :=
  let m := c.msg []
  s.deliver 2 m { Deliver.init type st m c.partner asn with
    length := c.total, first := if type = 1 then (x.map (·.desc)).getD 0xFFFF else 0xFFFF, frags := if type = 1 then 1 else 0,
    part := (x.map (·.index)).getD 0, newOrigin := c.newOrigin }

/-- A part of a streamed context is written out as STREAM_PART, its descriptor handed to the host with the record. -/
def Dev.streamPart (s : Dev) (c : RaCtx) (x : Part) (asn : Nat) : Dev :=
  let r := (s.chain [x]).streamRecord c 1 .notReady (some x) asn
  if r.2 then r.1.handOver [x] else r.1

/-- Parts that verified while they were held, before streaming began, are written out with their verdicts (rule R274). -/
def Dev.streamHeld (s : Dev) (c : RaCtx) (l : List Part) (asn : Nat) : Dev :=
  s.each l fun s x => ((s.streamPart c x asn).streamRecord c 2 .ok (some x) asn).1

/-- A context closes before its message is complete: every descriptor it holds is freed, and a streamed one ends, with AUTH_FAIL where
a rejected part has not been replaced (rules R255 and R275). -/
def Dev.ctxClose (s : Dev) (c : RaCtx) : Dev :=
  let s := (s.ctxDrop c).freeParts (c.parts.filter fun x => x.verdict == some true)
  if c.streamed then
    (s.streamRecord c 3 (if c.parts.any fun x => x.verdict == some false then .authFail else .reassemblyTimeout) none s.se.asn).1
  else s

/-- Is a fragment length wrong for its context, or for a message of one fragment (rule R255)? -/
def badLength (c : RaCtx) (f : Fragment) (len : Nat) : Bool :=
  f.count != c.count || f.total != c.total || f.more != decide (f.index + 1 < f.count) ||
    (if f.more then c.frag.any fun x => x != len
     else c.frag.any fun x => len + (c.count - 1) * x != c.total)

/-- Does the last part of a context, already there, disagree with a fragment size now taught? -/
def badLast (c : RaCtx) (size : Nat) : Bool :=
  c.parts.any fun x => x.index + 1 == c.count && x.len + (c.count - 1) * size != c.total

/-- Do the conditions of streaming hold for the first fragment of a message (rule R274)? -/
def Dev.streams (s : Dev) (f : Fragment) : Bool :=
  f.index == 0 && bitOf f.msg.flags 2 && s.forHere f.msg &&
    s.consumerOf f.msg.kind (((s.txnFor f.msg).map (·.sub)).getD 3) == 2 && s.on ML_STREAM_ENABLE &&
    decide (s.rd ML_STREAM_MIN_LEN ≤ f.total)

/-- The parts of a context in index order. -/
def orderParts (n : Nat) (l : List Part) : List Part := (List.range n).filterMap fun i => l.find? fun x => x.index == i

/-- The context that the first accepted fragment of a message opens. -/
def RaCtx.open_ (p : Nat) (f : Fragment) (now slot : Nat) (newOrigin : Bool) : RaCtx :=
  { slot := slot, partner := p, origin := f.msg.origin, dest := f.msg.dest, hops := f.msg.hops, kind := f.msg.kind,
    flags := f.msg.flags, txn := f.msg.txn, count := f.count, total := f.total, frag := none, opened := now, parts := [],
    streamed := false, newOrigin := newOrigin }

/-- A verified part of slot `asn` has joined its context; the message may be complete with it. -/
def Dev.ctxAdd (s : Dev) (c : RaCtx) (asn : Nat) (plans : List FragPlan) : Dev :=
  let l := orderParts c.count c.parts
  if l.length < c.count ∨ (c.parts.any fun x => x.verdict != some true) then s
  else
    (s.ctxDrop c).messageDone { msg := c.msg (s.partsData l), partner := c.partner, parts := l, asn := asn, newOrigin := c.newOrigin,
                                streamed := c.streamed } plans

/-- FRAGMENT_RECEIVE: an accepted fragment in descriptor `d`, of slot `asn` (rules R255, R261 and R274). `early` tells that its
STREAM_PART has been written before the verdict. -/
def Dev.fragment (s : Dev) (p d : Nat) (f : Fragment) (early : Bool) (asn : Nat) (plans : List FragPlan) : Dev :=
  let m := f.msg
  let s := s.touchRoute m.origin
  let len := m.data.length
  let w := s.fragWindow m
  let x : Part := { index := f.index, desc := d, off := f.off, len := len, verdict := some true }
  match w with
  | .tooOld => (s.descRelease d).bump ML_CNT_TOO_OLD_COUNT
  | .duplicate =>
    let s := (s.descRelease d).bump ML_CNT_FRAG_DUP_COUNT
    if f.index ≠ 0 then s
    else
      let s := s.bump ML_CNT_MSG_DUP_COUNT
      if m.kind = 0 ∧ bitOf m.flags 0 then (s.mlAnswer m.origin m.txn 3 [] plans).1
      else if m.kind = 1 then
        (s.deliver (s.rd ML_DELIVER_REQUEST) m { Deliver.init 4 .duplicate m p asn with length := f.total }).1
      else s
  | _ =>
    let s := if s.handed d then s else s.setDesc d { s.desc d with holder := .context }
    if f.count = 1 then
      if len ≠ f.total ∨ f.more then (s.descRelease d).bump ML_CNT_FORMAT_DROP_COUNT
      else if s.streams f then
        let c : RaCtx := { RaCtx.open_ p f s.now 0 (w == .newOrigin) with parts := [x], streamed := true }
        (s.streamHeld c [x] asn).messageDone
          { msg := m, partner := p, parts := [x], asn := asn, newOrigin := w == .newOrigin, streamed := true } plans
      else s.messageDone
        { msg := m, partner := p, parts := [x], asn := asn, newOrigin := w == .newOrigin, streamed := false } plans
    else
      let old := s.ctxOf p m
      let c := old.getD (RaCtx.open_ p f s.now (freeSlot (s.ml.ctxs.map (·.slot))) (w == .newOrigin))
      let s := if old.isSome then s else s.ctxOpen c
      if !early ∧ (c.parts.any fun y => y.index == f.index && y.verdict != some false) then
        (s.descRelease d).bump ML_CNT_FRAG_DUP_COUNT
      else if badLength c f len ∨ (f.more ∧ badLast c len) then
        ((if s.handed d then s else s.descRelease d).ctxClose { c with parts := c.parts.filter fun y => y.desc != d }).bump
          ML_CNT_FORMAT_DROP_COUNT
      else
        let streamed := c.streamed || s.streams f
        let c2 := { c with streamed := streamed, frag := if f.more then some len else c.frag,
                           parts := (c.parts.filter fun y => y.index != f.index) ++ [x] }
        let s := s.ctxSet c c2
        let s := if streamed ∧ !c.streamed then s.streamHeld c2 c.parts asn else s
        let s := if streamed ∧ !early then s.streamPart c2 x asn else s
        let s := if streamed then (s.streamRecord c2 2 .ok (some x) asn).1 else s
        s.ctxAdd c2 asn plans

/-! ### Reports (rules R246 to R248) -/

/-- A frame is dropped before any verdict: its descriptor is freed. -/
def Dev.rxGone (s : Dev) (rep : List Byte) (c : Fld) : Dev := (s.poolFree (repDesc rep)).bump c

/-- The pocket and counter space of a secured frame (rule R247): the pocket, and whether it counts in the group's space. -/
def Dev.rxSpace (s : Dev) (p : Nat) (a : Aux) : Option (Nat × Bool) :=
  let own := s.pf p 0x0C 1 % 64
  let idx := if a.mode = 0 then own else (a.key.getLastD 0).toNat
  if 64 ≤ idx then none
  else if idx = own then some (idx, false)
  else if idx = s.pf p 0x3A 1 % 64 ∧ bitOf (s.pf p 0x3B 1) 1 then some (idx, true)
  else none

/-- The class of a secured frame (Table 07-3): some true a duplicate, some false new, none stale. -/
def Dev.rxClass (s : Dev) (p : Nat) (g : Bool) (m : Mac) (fc : Nat) : Option Bool :=
  let valid := if g then bitOf (s.pf p 0x3B 1) 0 else bitOf (s.pf p 0x0D 1) 4
  let top := if g then s.pf p 0x3C 4 else s.pf p 0x10 4
  if !valid ∨ top < fc then some false
  else if fc = top ∧ (m.seqSup ∨ m.seq = s.pf p 0x0E 1) then some true
  else none

/-- A frame's verdict is awaited by engine `k`. -/
def Dev.rxWait (s : Dev) (k : Nat) (w : RxWait) : Dev := s.setEng k { s.eng k with rx := (s.eng k).rx ++ [w] }

/-- The cipher request of a received frame is submitted by engine `k` under a pocket; while a streamed context of the partner is open,
streamed output is asked for (rules R163, R247, R274 and R300). -/
def Dev.decipher (s : Dev) (dk : List Byte) (k p : Nat) (v : Seen) (a : Aux) (pocket at_ : Nat) (rep : List Byte) (upset : Bool) : Dev :=
  let stream := s.ml.ctxs.any fun c => c.partner == p && c.streamed
  let b := v.request a false stream pocket (s.bufAddr (repDesc rep)) (leBytes 8 (s.pf p 0 8)) 0
  (s.put8 (2 + k) at_ b).ceSubmit dk (2 + k) at_ upset

/-- The classification of a frame from the valid partner `p`; `req` is where engine `k` keeps the cipher request's descriptor. -/
def Dev.rxSort (s : Dev) (dk : List Byte) (k p : Nat) (rep : List Byte) (req : Nat) (upset : Bool) : Dev :=
  match s.seen rep with
  | none => s.rxGone rep ML_CNT_FORMAT_DROP_COUNT
  | some v =>
    let w : RxWait := { partner := p, dup := false, desc := repDesc rep, report := rep, req := none, group := false, fc := none,
                        asn := s.slotOf (repTs rep), early := false }
    match v.aux with
    | none =>
      if !s.allows (s.pf p 0x0C 1 % 64) 5 then s.rxGone rep ML_CNT_SEC_DROP_COUNT
      else
        s.rxWait k { w with dup := !v.mac.seqSup && bitOf (s.pf p 0x0D 1) 5 && v.mac.seq == s.pf p 0x0E 1 }
    | some a =>
      match s.rxSpace p a with
      | none => s.rxGone rep ML_CNT_SEC_DROP_COUNT
      | some (pocket, g) =>
        match s.rxClass p g v.mac a.fc with
        | none => s.rxGone rep ML_CNT_STALE_COUNT
        | some dup =>
          let at_ := req / 64 * 64
          (s.decipher dk k p v a pocket at_ rep upset).rxWait k { w with dup := dup, req := some at_, group := g, fc := some a.fc }

/-- RX_REPORT_PROCESS: engine `k` takes the next report of its ring. One with a status other than OK holds no descriptor and is
counted by the engine (assumption log 29); a frame that rule R160 drops is dropped whoever sent it. -/
def Dev.rxReport (s : Dev) (dk : List Byte) (k req : Nat) (upset : Bool) : Dev :=
  let n := s.rd (SLV_RQ_SIZE_ENTRIES k)
  let r := s.rd (SLV_RQ_RD_RD k)
  if n = 0 ∨ s.rd (SLV_RQ_WR_WR k) = r ∨ !s.leRuns k then s
  else
    let m := s.rdMem (2 + k) (s.rd (SLV_RQ_BASE_ADDR k) * 64 + r * 64) 64
    let rep := m.2.2
    let p := fieldAt rep 0x12 2
    if (s.eng k).rx.any fun w => w.partner == p then s
    else
      let s := m.1.wr (SLV_RQ_RD_RD k) ((r + 1) % n)
      if fieldAt rep 0 1 ≠ Status.ok.code then s.setEng k { s.eng k with badReports := (s.eng k).badReports + 1 }
      else
        let s := s.touch (2 + k) [(s.bufAddr (repDesc rep), fieldAt rep 6 2)]
        if !s.pValid p then
          (if s.rd ML_CFG_UNKNOWN = 3 ∨ (s.seen rep).isNone then s.rxGone rep ML_CNT_FORMAT_DROP_COUNT
           else s.deliverRaw (s.rd ML_CFG_UNKNOWN) 0xFFFF (s.slotOf (repTs rep)) rep)
        else (s.touchPartner (2 + k) p).rxSort dk k p rep req upset

/-! ### Verdicts (rules R204, R205, R215, R216, R249, R250, R269 and R270) -/

/-- Does a frame of partner p arrive on an RX link of slot n (rule R204)? -/
def Dev.onLink (s : Dev) (p n : Nat) : Bool :=
  (s.slotLinks n).any fun l => l.rx && (l.partner == p || l.partner == 0xFFFF)

/-- The timing error e of a received frame: what was measured less what was expected, c_p taken off. -/
def Dev.rxError (s : Dev) (w : RxWait) (preamble : Nat) : Int :=
  let n := fieldAt w.report 2 1
  let r := refOffset (repMode s w.report) (repPhy s w.report) preamble (syncLen (s.rd (SLV_SYNC_CFG_LEN n)))
  tsDiff (repTs w.report) (tsAdd (s.gridAt w.asn) (s.txOffset + r : Nat)) - s.correction w.partner w.asn

/-- The sync that an accepted frame gives. -/
def Dev.rxSync (s : Dev) (w : RxWait) (preamble : Nat) : Dev :=
  if s.seRuns ∧ s.onLink w.partner w.asn then s.ptSync w.partner (s.rxError w preamble) (repTs w.report) w.asn else s

/-- What an accepted acknowledgement does: its frame completes, its TIME_CORR gives a sync or is rejected, its BUSY holds
the partner's classes back. -/
def Dev.ackTaken (s : Dev) (w : RxWait) (v : Seen) : Dev :=
  let p := w.partner
  let sub := match tilnurek s.img.oui v.ies with
    | some l => subElems 64 l
    | none => []
  let r := s.acked p
  let s := r.1
  let s := match r.2, timeCorr sub with
    | some a, some k =>
      if !(s.isSource p || s.pFollow p) then s
      else if s.hem p (s.expected p a.asn) < k.natAbs then s.bump SE_CNT_SYNC_REJECT_COUNT
      else s.ptSync p (-k) a.ts a.asn
    | _, _ => s
  match subFind 3 sub with
  | some b =>
    let until_ := w.asn + fieldAt b 2 2
    if bitOf (fieldAt b 0 1) 0 ∧ s.pf p 0x29 5 < until_ then s.pfw p 0x29 5 until_ else s
  | none => s

/-- The BUSY sub-element of every acknowledgement while FREE is below BUSY_TH (rule R269). -/
def Dev.busyElem (s : Dev) : List (List Byte) :=
  let free := s.rd ML_POOL_STATUS_FREE
  let th := s.rd ML_POOL_RES_BUSY_TH
  if free < th then
    [subElem 3 (leBytes 1 (1 + (if free ≤ s.poolNeed then 2 else 0)) ++ leBytes 1 (min 255 (free / 8)) ++
      leBytes 2 (min 0xFFFF (s.rd ML_LIMITS_HINT_SLOTS * (((th - free) * 4 + th - 1) / th))))]
  else []

/-- The sequence number of an acknowledgement: that of the frame it answers, where the frame has one (assumption log 28). -/
def ackSeq (m : Mac) (h : MhrPlan) : Nat := if m.seqSup then h.seq.toNat else m.seq

/-- ACK_HANDOVER: the acknowledgement of a verified frame, with its TIME_CORR and BUSY, starts at t_ack, or comes too late (rules R215,
R216 and R269). -/
def Dev.ackSend (s : Dev) (k : Nat) (w : RxWait) (m : Mac) (e : Int) (ack : Option AckPlan) : Dev :=
  let mode := repMode s w.report
  let t := tsAdd (repTs w.report) (nearDiv (bodyTicks mode (repPhy s w.report) (fieldAt w.report 4 2)) 300 + s.ackDelay : Nat)
  match ack with
  | none => s.bump SE_CNT_ACK_LATE_COUNT
  | some a =>
    if !tsLe s.now (tsAdd t (-(us 100 : Int))) ∨ !s.leRuns k then s.bump SE_CNT_ACK_LATE_COUNT
    else if !s.seRuns then s
    else
      let l := a.mhr.octets s.img.oui 2 false (ackSeq m a.mhr) (timeCorrBytes e :: s.busyElem) (decide (a.mhr.mic < a.tail.length)) ++ a.tail
      let d := a.tx.octets l.length a.at_.bufAt (fieldAt w.report 0x14 4) w.partner (s.rangeOf k)
      let s := (s.put8 (2 + k) a.at_.bufAt l).put8 (2 + k) a.at_.descAt d
      (s.seStart k { path := s.rd (SLV_ASSIGN_BAND (fieldAt w.report 2 1)) - 1, le := k, link := 0, entry := 0,
                     desc := a.at_.descAt, partner := w.partner, asn := w.asn, ts := t, ackReq := false, shared := false,
                     charges := [] }).1

/-- LAST_AERIAL and AERIAL_KNOWN from a report. -/
def Dev.aerialHeard (s : Dev) (w : RxWait) : Dev := s.pfBits w.partner 0x0D 2 2 (1 + 2 * (fieldAt w.report 1 1 % 2))

/-- The entry's counters after an accepted frame. -/
def Dev.entryHeard (s : Dev) (w : RxWait) (m : Mac) : Dev :=
  let p := w.partner
  let s := match w.fc with
    | some c => if w.group then (s.pfw p 0x3C 4 c).pfBits p 0x3B 0 1 1 else (s.pfw p 0x10 4 c).pfBits p 0x0D 4 1 1
    | none => s
  (if m.seqSup then s else (s.pfw p 0x0E 1 m.seq).pfBits p 0x0D 5 1 1).aerialHeard w

/-- The MAC payload of a frame, its payload IEs skipped: offset and octets; none where rule R160 drops the frame for them. -/
def Dev.macPayload (s : Dev) (w : RxWait) (v : Seen) : Option (Nat × List Byte) :=
  (v.payload (s.frame w.report)).map fun p => (p.1, s.peekBytes 0x0C (s.bufAddr w.desc + p.1) p.2)

/-- Does a payload begin with a message header or a mesh prefix (rule R250)? -/
def isMessage (l : List Byte) : Bool := decide (l ≠ []) && (fieldAt l 0 1 / 16 == 1 || fieldAt l 0 1 / 16 == 0xE)

/-- R250: an accepted frame is handled by its type; `l` is its MAC payload. -/
def Dev.passFrame (s : Dev) (w : RxWait) (v : Seen) (l : List Byte) (f : Option Fragment) (plans : List FragPlan) : Dev :=
  let raw (s : Dev) : Dev := s.deliverRaw (s.rd ML_CFG_MAC) w.partner w.asn w.report
  match v.mac.ftype with
  | 2 => (s.ackTaken w v).poolFree w.desc
  | 0 => if s.on ML_CFG_BEACON_RAW then raw s else s.poolFree w.desc
  | 3 => raw s
  | _ =>
    if !isMessage l then raw s
    else match f with
      | some f => s.fragment w.partner w.desc f w.early w.asn plans
      | none => (s.descRelease w.desc).bump ML_CNT_FORMAT_DROP_COUNT

/-- The fragment a data frame carries in its MAC payload. -/
def Dev.carried (s : Dev) (w : RxWait) (v : Seen) : Option Fragment :=
  match s.macPayload w v with
  | some (o, l) => if v.mac.ftype = 1 ∧ isMessage l then s.fragmentOf w.partner o l else none
  | none => none

/-- A rejected frame: its buffer is scrubbed and freed; a streamed part gets its verdict (rules R249 and R275). -/
def Dev.rxReject (s : Dev) (k : Nat) (w : RxWait) : Dev :=
  let s := (s.bump ML_CNT_AUTH_FAIL_COUNT).set ML_EVENTS_AUTH_FAIL
  if w.early then
    match s.ml.ctxs.find? fun c => c.parts.any fun x => x.desc == w.desc with
    | some c =>
      let x := c.parts.find? fun x => x.desc == w.desc
      let c2 := { c with parts := c.parts.map fun y => if y.desc = w.desc then { y with verdict := some false } else y }
      let s := ((s.ctxSet c c2).streamRecord c2 2 .authFail x w.asn).1
      if s.handed w.desc then s else s.descScrub k w.desc
    | none => if s.handed w.desc then s else s.descScrub k w.desc
  else s.descScrub k w.desc

/-- R249: engine `k` acts on the verdict of partner `p`'s frame. -/
def Dev.verdict (s : Dev) (k p preamble : Nat) (ack : Option AckPlan) (plans : List FragPlan) : Dev :=
  match (s.eng k).rx.find? fun w => w.partner == p with
  | none => s
  | some w =>
    let busy := w.req.any fun a => s.sec.queue.any fun q => q.addr == a
    if busy ∨ !s.leRuns k then s
    else
      let s := s.setEng k { s.eng k with rx := (s.eng k).rx.filter fun x => x != w }
      let st := w.req.elim 0 fun a => s.peek 0x0C (a + 4) 1
      match s.seen w.report with
      | none => s.rxGone w.report ML_CNT_FORMAT_DROP_COUNT
      | some v =>
        if st = Status.authFail.code then s.rxReject k w
        else if st ≠ Status.ok.code then (s.descScrub k w.desc).bump ML_CNT_SEC_DROP_COUNT
        else
          let e := s.rxError w preamble
          let f := s.carried w v
          let l := (s.macPayload w v).map (·.2)
          let answer (s : Dev) : Dev := if v.mac.ar ∧ w.req.isSome ∧ v.mac.ftype ≠ 2 then s.ackSend k w v.mac e ack else s
          let sync (s : Dev) : Dev := if v.mac.ftype = 2 then s else s.rxSync w preamble
          if l.isNone then s.rxGone w.report ML_CNT_FORMAT_DROP_COUNT
          else if w.dup then
            (((answer (sync (s.aerialHeard w))).descScrub k w.desc).bump ML_CNT_DUP_COUNT)
          else if f.any fun f => s.needsCtx p f && decide (s.ctxLimit ≤ s.ml.ctxs.length) then
            ((s.descScrub k w.desc).bump ML_CNT_RA_FULL_COUNT).set ML_EVENTS_RA_FULL
          else (answer (sync (s.entryHeard w v.mac))).passFrame w v (l.getD []) f plans

/-- R274: the plaintext of a frame that waits for its verdict is in its buffer; a fragment of a streamed context is written
out as STREAM_PART. -/
def Dev.plaintext (s : Dev) (addr : Nat) : Dev :=
  s.each (List.range 6) fun s k =>
    match (s.eng k).rx.find? fun w => w.req == some addr && !w.early && !w.dup with
    | none => s
    | some w =>
      match s.seen w.report with
      | none => s
      | some v =>
        match s.carried w v with
        | none => s
        | some f =>
          match s.ctxOf w.partner f.msg with
          | none => s
          | some c =>
            let len := f.msg.data.length
            if !c.streamed ∨ (c.parts.any fun y => y.index == f.index && y.verdict != some false) ∨ badLength c f len then s
            else
              let x : Part := { index := f.index, desc := w.desc, off := f.off, len := len, verdict := none }
              let c2 := { c with parts := (c.parts.filter fun y => y.index != f.index) ++ [x] }
              let s := (s.ctxSet c c2).streamPart c2 x w.asn
              s.setEng k { s.eng k with rx := (s.eng k).rx.map fun y => if y = w then { w with early := true } else y }

/-- REASSEMBLY_TIMEOUT (rule R255): not before the context's time is up. -/
def Dev.raTimeout (s : Dev) (p origin kind txn : Nat) : Dev :=
  match s.ml.ctxs.find? fun c => c.partner == p && c.origin == origin && c.kind == kind && c.txn == txn with
  | none => s
  | some c =>
    if tsDiff s.now c.opened < ((max 1 (s.rd ML_RA_CFG_TIMEOUT_100MS) * 800000 : Nat) : Int) then s
    else ((s.ctxClose c).bump ML_CNT_RA_TIMEOUT_COUNT).set ML_EVENTS_RA_TIMEOUT

/-! ### Submissions (rules R260, R266, R276 and R277) -/

/-- The next transaction id is taken; the register moves on past ids that are open. -/
def Dev.txnTake (s : Dev) : Dev × Nat :=
  let id := s.rd ML_TXN_NEXT_NEXT
  let open_ (i : Nat) : Bool := s.ml.txns.any fun t => t.id == i
  let next := ((List.range 257).map fun i => (id + 1 + i) % 65536).find? fun i => !open_ i
  (s.wr ML_TXN_NEXT_NEXT (next.getD ((id + 1) % 65536)), id)

/-- Is a submission descriptor invalid (rule R277)? -/
def badSubmit (b : List Byte) : Bool :=
  let kind := fieldAt b 0 1 % 16
  let len := fieldAt b 6 2
  let a := fieldAt b 8 4
  !(kind == 0 || kind == 1 || kind == 2 || kind == 5) || decide (2 ≤ fieldAt b 1 1) || (kind != 2 && fieldAt b 4 2 != 0) ||
    fieldAt b 0x15 3 != 0 || fieldAt b 0x1A 6 != 0 || (fieldAt b 1 1 == 1 && kind != 1) || (len == 0 && kind != 2) ||
    (len != 0 && (decide (a < 0x20000000) || decide (0x20200000 < a + min len 4096)))

/-- RD of a submission ring moves on. -/
def Dev.subNext (s : Dev) (j : Nat) : Dev :=
  let n := s.rd (ML_RING_SIZE_ENTRIES j)
  s.wr (ML_RING_RD_RD j) (if n = 0 then 0 else (s.rd (ML_RING_RD_RD j) + 1) % n)

/-- A checked submission is sent towards its next hop, its transaction opened where Table 07-8 asks for one. -/
def Dev.subSend (s : Dev) (sub : Nat) (b : List Byte) (m : Msg) (hop : Nat) (plans : List FragPlan) : Dev :=
  let tag := fieldAt b 0x0C 2
  let opened := (m.kind == 0 && bitOf m.flags 0) || m.kind == 1
  let t := if fieldAt b 0x18 2 = 0 then max 1 (s.rd ML_TXN_CFG_TIMEOUT_100MS) else fieldAt b 0x18 2
  let r := if fieldAt b 0x0F 1 = 0xFF then s.rd ML_TXN_CFG_RETRIES else fieldAt b 0x0F 1
  let s := if opened then
      s.txnOpen { slot := 0, id := m.txn, dest := m.dest, sub := sub, tag := tag, msg := m, tries := 1, retries := r,
                  timeout := t * 800000, since := none, answered := false, busy := false, resendAt := none }
    else s
  s.msgSend m hop plans (.submit sub tag opened) 1

/-- SUBMISSION: the next descriptor of a submission ring is read, unless it must be held (rules R266 and R276). -/
def Dev.submission (s : Dev) (sub : Nat) (plans : List FragPlan) : Dev :=
  let j := 3 + sub
  let rd := s.rd (ML_RING_RD_RD j)
  if !s.on ML_CFG_ENABLE ∨ !s.up 5 ∨ s.rd (ML_RING_SIZE_ENTRIES j) = 0 ∨ s.rd (ML_RING_WR_WR j) = rd then s
  else
    let l := s.rdMem 0x0C (s.rd (ML_RING_BASE_ADDR j) * 32 + rd * 32) 32
    let b := l.2.2
    let kind := fieldAt b 0 1 % 16
    let dest := fieldAt b 2 2
    let len := fieldAt b 6 2
    let tag := fieldAt b 0x0C 2
    let refuse (s : Dev) (st : Status) : Dev := (s.subNext j).mlComplete sub st 0 tag (fieldAt b 4 2) dest
    if l.2.1 ≠ .ok then refuse l.1 l.2.1
    else if badSubmit b then refuse l.1 .badSubmit
    else if 4096 < len then refuse l.1 .tooLong
    else if s.se.asn < fieldAt b 0x10 5 then s
    else if ((kind = 0 ∧ bitOf (fieldAt b 0 1) 6) ∨ kind = 1) ∧ 256 ≤ s.ml.txns.length then s
    else
      let next := if dest = 0xFFFF then Hop.via 0xFFFF else s.hop dest
      let l := (l.1.touchRoute dest, l.2)
      match next with
      | .none => refuse l.1 .noRoute
      | .removed => refuse l.1 .partnerRemoved
      | .via h =>
        let fl := (if bitOf (fieldAt b 0 1) 6 then 1 else 0) + (if bitOf (fieldAt b 0 1) 7 then 4 else 0) +
          8 * (fieldAt b 1 1 % 2) + 16 * (fieldAt b 0 1 / 16 % 4)
        let hops := if fieldAt b 0x0E 1 = 0 then s.rd ML_CFG_DEF_HOPS else min 15 (fieldAt b 0x0E 1)
        let d := if len = 0 then (l.1, Status.ok, []) else l.1.rdMem 0x0C (fieldAt b 8 4) len
        let m : Msg := { kind := kind, flags := fl, txn := fieldAt b 4 2, origin := s.rd ML_SELF_ADDR, dest := dest, hops := hops,
                         data := d.2.2 }
        if d.2.1 ≠ .ok then refuse d.1 d.2.1
        else if 255 < s.fragCount m h then refuse d.1 .tooLong
        else if plans.length < s.fragCount m h then s
        else
          let s := d.1.subNext j
          if kind = 2 then s.subSend sub b m h plans
          else
            let t := s.txnTake
            t.1.subSend sub b { m with txn := t.2 } h plans

/-- A message is sent again under the same id (rule R264). -/
def Dev.txnAgain (s : Dev) (t : Txn) (plans : List FragPlan) : Dev :=
  let next := if t.dest = 0xFFFF then Hop.via 0xFFFF else s.hop t.dest
  match next with
  | .none => s.txnDone t .noRoute
  | .removed => s.txnDone t .partnerRemoved
  | .via h =>
    if plans.length < s.fragCount t.msg h then s
    else
      let s := s.txnSet { t with tries := t.tries + 1, retries := t.retries - 1, since := none, resendAt := none }
      s.msgSend t.msg h plans (.submit t.sub t.tag true) (t.tries + 1)

/-- TXN_TIMEOUT: not before the transaction's timeout has passed since its last fragment completed. -/
def Dev.txnTimeout (s : Dev) (id : Nat) (plans : List FragPlan) : Dev :=
  match s.txnOf id with
  | none => s
  | some t =>
    if t.since.all fun n => decide (tsDiff s.now n < (t.timeout : Int)) then s
    else if t.dest = 0xFFFF ∧ t.msg.kind = 1 then s.txnDone t (if t.answered then .ok else .noAck)
    else if t.retries = 0 then s.txnDone t (if t.busy then .busy else .noAck)
    else s.txnAgain t plans

/-- TXN_RESEND: the back-off of a kind 4 has passed. -/
def Dev.txnResend (s : Dev) (id : Nat) (plans : List FragPlan) : Dev :=
  match s.txnOf id with
  | none => s
  | some t => if t.resendAt.any fun n => decide (n ≤ s.se.asn) then s.txnAgain t plans else s

/-! ### Freeing and enabling (rules R273, R279 and R281) -/

/-- The descriptors of a chain from `i` on, at most `n`. -/
def Dev.chainFrom (s : Dev) : Nat → Nat → List Nat
  | 0, _ => []
  | n + 1, i => i :: (match (s.desc i).next with
    | some j => Dev.chainFrom s n j
    | none => [])

/-- A write to ML_DESC_FREE. -/
def Dev.descFree (s : Dev) (v : Nat) : Dev :=
  let i := v % 2048
  if (s.desc i).holder = .delivered ∧ (s.desc i).head then s.descsFree (s.chainFrom 256 i) else s.set ML_EVENTS_BAD_FREE

/-- The message layer starts afresh: every descriptor free, no context, no open transaction, rings empty (rule R279). -/
def Dev.mlFresh (s : Dev) : Dev :=
  let s := { s with pool := [] }
  let s := (s.wr ML_POOL_STATUS_FREE (min 2048 (s.rd ML_POOL_CFG_COUNT))).wr ML_POOL_STATUS_CONTROL_HELD 0
  let s := s.each (List.range 6) fun s k => s.wr (ML_POOL_QUOTA_HELD k) 0
  let s := s.each (List.range 9) fun s j => (s.wr (ML_RING_WR_WR j) 0).wr (ML_RING_RD_RD j) 0
  s.onMl fun m => { m with ctxs := [], txns := [], sends := [], heldDone := [], busyWas := false, restart := false }

/-- A write to ML_CFG. -/
def Dev.mlCfg (s : Dev) (v : Nat) : Dev :=
  let was := s.on ML_CFG_ENABLE
  let s := s.setReg ML_CFG (BitVec.ofNat 32 (v % 2 ^ 15))
  if !was ∧ s.on ML_CFG_ENABLE ∧ s.ml.restart then s.mlFresh else s

/-! ### The idle step -/

/-- What a step does while no command waits: a reference cycle passes, and a pending DELETE whose cipher requests have ended, however
they ended, goes on (rule R243; assumption log 10). -/
def Dev.idle (s : Dev) : Dev := s.tick.ptResume

/-! ### Meanings -/

/-- RX_REPORT_PROCESS, rule R246. -/
def execRxReportProcess (k : Fin 6) (req : BitVec 32) (upset : Bool) :
    State → Host.Outcome State Fault Refusal := onDevKey fun dk s => s.rxReport dk k req.toNat upset
/-- RX_VERDICT, rule R249. -/
def execRxVerdict (k : Fin 6) (p : BitVec 12) (preamble : BitVec 10) (ack : Option AckPlan) (frags : List FragPlan) :
    State → Host.Outcome State Fault Refusal := onDev (·.verdict k p.toNat preamble.toNat ack frags)
/-- REASSEMBLY_TIMEOUT, rule R255. -/
def execReassemblyTimeout (p : BitVec 12) (origin : BitVec 16) (kind : Fin 16) (txn : BitVec 16) :
    State → Host.Outcome State Fault Refusal := onDev (·.raTimeout p.toNat origin.toNat kind txn.toNat)
/-- SUBMISSION, rule R276. -/
def execSubmission (sub : Fin 3) (frags : List FragPlan) : State → Host.Outcome State Fault Refusal :=
  onDev (·.submission sub frags)
/-- SUBMISSION_RELEASE, rule R276. -/
def execSubmissionRelease (sub : Fin 3) (frags : List FragPlan) : State → Host.Outcome State Fault Refusal :=
  onDev (·.submission sub frags)
/-- TXN_TIMEOUT, rule R264. -/
def execTxnTimeout (txn : BitVec 16) (frags : List FragPlan) : State → Host.Outcome State Fault Refusal :=
  onDev (·.txnTimeout txn.toNat frags)
/-- TXN_RESEND, rule R264. -/
def execTxnResend (txn : BitVec 16) (frags : List FragPlan) : State → Host.Outcome State Fault Refusal :=
  onDev (·.txnResend txn.toNat frags)
/-- ML_COMPLETION_RELEASE, rule R278. -/
def execMlCompletionRelease (sub : Fin 3) : State → Host.Outcome State Fault Refusal := onDev (·.mlRelease sub 1024)
/-- DESC_FREE, rule R273. -/
def execDescFree (ini : Ini) (v : Word) : State → Host.Outcome State Fault Refusal :=
  onDev fun s => s.cmdAt ini ML_DESC_FREE (·.descFree v.toNat)
/-- ML_ENABLE, rule R281. -/
def execMlEnable (ini : Ini) (v : Word) : State → Host.Outcome State Fault Refusal :=
  onDev fun s => s.cmdAt ini ML_CFG (·.mlCfg v.toNat)
/-- CE_STREAM_OUTPUT, rules R309 and R274. -/
def execCeStreamOutput (e : Fin 2) : State → Host.Outcome State Fault Refusal :=
  onDev fun s =>
    let a := (s.ceRunning e).elim 0 (·.addr)
    let t := s.ceStream e
    if (t.ceRunning e).any (·.streamed) then t.plaintext a else t
/-- CE_REQUEST_START, rules R305 and R243: a request may end at its start. -/
def execCeRequestStart (e : Fin 2) (upset : Bool) : State → Host.Outcome State Fault Refusal :=
  onDevKey fun dk s => (s.ceStart dk e upset).ptResume
/-- CE_ENGINE_FAULT, rules R324 and R243: with no engine left, every request ends. -/
def execCeEngineFault (e : Fin 2) : State → Host.Outcome State Fault Refusal := onDev fun s => (s.ceFault e).ptResume
/-- POCKET_ERASE_NOW, rules R292 and R243: the bound requests end. -/
def execPocketEraseNow (ini : Ini) : State → Host.Outcome State Fault Refusal :=
  onDevKey fun dk s => (s.cmdAt ini PCK_CMD fun s => s.pckOp ini 6 fun s => s.pckEraseNow dk).ptResume
/-- CE_REQUEST_DONE, rules R306 and R243. -/
def execCeRequestDone (e : Fin 2) : State → Host.Outcome State Fault Refusal := onDev fun s => (s.ceDone e).ptResume
/-- CE_ACCESS_FAIL, rules R511 and R243. -/
def execCeAccessFail (e : Fin 2) : State → Host.Outcome State Fault Refusal := onDev fun s => (s.ceAccessFail e).ptResume

end Sys2Proof.Machine
end

