-- ==== Sys2Proof/Machine/Image.lean ====
section
/-!
DEFINITION. The Denlyn structure image as octets: header, section list, the checks of the loader and the code that a refused
image reports (rules R40 to R53, R112, R226, R287, R394, R412, R427, R472, R506 and R509).
-/

namespace Sys2Proof.Machine

/-- One entry of the section list (Table 02-2). -/
structure Sect where
  type : Nat
  version : Nat
  flags : Nat
  off : Nat
  len : Nat
deriving DecidableEq, Repr

/-! ### Reading an image -/

/-- First bus address of a slot (rule R40): `false` is slot A. -/
def slotBase (b : Bool) : Nat := if b then 0x10400000 else 0x10000000

/-- The flash array of a slot. -/
def slotArr (b : Bool) : Nat := if b then 1 else 0

/-- The stored unit `off` bytes into a slot. -/
def Dev.slotUnit (s : Dev) (b : Bool) (off : Nat) : Unit8 := s.fetchUnit (.flash (slotArr b)) (slotBase b + off / 8 * 8)

/-- `n` units of a slot as octets, darned units corrected. -/
def Dev.slotUnits (s : Dev) (b : Bool) (off n : Nat) : List Byte :=
  (List.range n).flatMap fun i => leBytes 8 (s.slotUnit b (off + 8 * i)).delivered.toNat

/-- The header of a slot. -/
def Dev.slotHeader (s : Dev) (b : Bool) : List Byte := s.slotUnits b 0 8

/-- A little-endian field of an image. -/
def imgLen (h : List Byte) : Nat := fieldAt h 8 4
def imgSeq (h : List Byte) : Nat := fieldAt h 0x0C 4
def imgRole (h : List Byte) : Nat := fieldAt h 0x10 1
def imgCount (h : List Byte) : Nat := fieldAt h 0x11 1
def imgKey (h : List Byte) : Nat := fieldAt h 0x12 1
def imgTarget (h : List Byte) : Nat := fieldAt h 0x13 1
def imgFlags (h : List Byte) : Nat := fieldAt h 0x14 4
def imgP (h : List Byte) : Nat := fieldAt h 0x18 4
def imgQ (h : List Byte) : Nat := fieldAt h 0x1C 4

/-- Is every header field of IMG_BAD_HEADER valid (Table 02-1, rule R51)? -/
def headerOk (h : List Byte) : Bool :=
  fieldAt h 0 4 == 0x4E4C4E44 && fieldAt h 4 2 == 1 && fieldAt h 6 2 == 64 &&
    decide (128 ≤ imgLen h) && decide (imgLen h ≤ 522240) && imgLen h % 8 == 0 &&
    decide (1 ≤ imgSeq h) && decide (imgSeq h ≤ 0xFFFFFFFE) && decide (imgRole h ≤ 2) &&
    decide (1 ≤ imgCount h) && decide (imgCount h ≤ 32) && decide (imgKey h ≤ 1) && decide (imgTarget h ≤ 2)

/-- The units of the image of a slot, by the length its header gives; a valid header gives at most 522,240 bytes. -/
def Dev.imgUnits (s : Dev) (b : Bool) : Nat := min 65280 (imgLen (s.slotHeader b) / 8)

/-- The image of a slot whose header is valid, whole. -/
def Dev.slotImage (s : Dev) (b : Bool) : List Byte := s.slotUnits b 0 (s.imgUnits b)

/-- Does a slot hold a unit within its image that is UNCORRECTABLE? -/
def Dev.slotBroken (s : Dev) (b : Bool) : Bool :=
  (List.range (s.imgUnits b)).any fun i => (s.slotUnit b (8 * i)).outcome == 3

/-- Entry `i` of the section list. -/
def sectAt (img : List Byte) (i : Nat) : Sect :=
  let o := 64 + 16 * i
  { type := fieldAt img o 1, version := fieldAt img (o + 1) 1, flags := fieldAt img (o + 2) 2, off := fieldAt img (o + 4) 4,
    len := fieldAt img (o + 8) 4 }

/-- The section list. -/
def sects (img : List Byte) : List Sect := (List.range (imgCount img)).map (sectAt img)

/-- Is the section of a type and version of this edition (rule R43)? -/
def Sect.known (x : Sect) : Bool := decide (1 ≤ x.type) && decide (x.type ≤ 0x11) && x.version == 1

/-- The section of a known type. -/
def sect (img : List Byte) (t : Nat) : Option Sect := (sects img).find? fun x => x.known && x.type == t

/-- Does the image carry a section of type `t`? -/
def hasSect (img : List Byte) (t : Nat) : Bool := (sect img t).isSome

/-- `n` bytes at `off` of section `t` as a number; 0 where the section is absent. -/
def sf (img : List Byte) (t off n : Nat) : Nat :=
  match sect img t with
  | some x => fieldAt img (x.off + off) n
  | none => 0

/-- The length of section `t`. -/
def slen (img : List Byte) (t : Nat) : Nat := ((sect img t).map (·.len)).getD 0

/-! ### What the sections say -/

/-- CHAIN_MODE of chain `c` of band `b` (Table 02-4). -/
def imgChain (img : List Byte) (b c : Nat) : Nat := sf img 1 (8 + 2 * b + c) 1

/-- Is any chain on? -/
def imgAir (img : List Byte) : Bool := (List.range 4).any fun i => imgChain img (i / 2) (i % 2) != 0

/-- A band's window centre in kHz. -/
def imgCentre (img : List Byte) (b : Nat) : Nat := sf img 1 (4 * b) 4

/-- Sleeve `n` of the SLEEVE section: BAND, MODE, AERIAL, FLAGS and CHANNEL. -/
def imgSlv (img : List Byte) (n i : Nat) : Nat := if i = 4 then sf img 1 (0x10 + 8 * n) 4 else sf img 1 (0x0C + 8 * n + i) 1

/-- LE_ROLE, FIRST and COUNT of engine `n` (Table 02-5). -/
def imgRoleLe (img : List Byte) (n : Nat) : Nat := sf img 2 (2 + n) 1
def imgFirst (img : List Byte) (n : Nat) : Nat := sf img 2 (8 + 4 * n) 2
def imgRange (img : List Byte) (n : Nat) : Nat := sf img 2 (0x0A + 4 * n) 2
def imgPairQ (img : List Byte) : Nat := sf img 2 0 1
def imgCe1 (img : List Byte) : Nat := sf img 2 1 1

/-- Link engines of a role. -/
def imgEngines (img : List Byte) (role : Nat) : List Nat := (List.range 6).filter fun n => imgRoleLe img n == role

/-- The LE_CODE sections. -/
def imgCode (img : List Byte) : List Sect := (sects img).filter fun x => x.known && x.type == 3

/-- The target mask of an LE_CODE section. -/
def codeMask (img : List Byte) (x : Sect) : Nat := fieldAt img x.off 1

/-- How many LE_CODE sections name engine `n`. -/
def codeCount (img : List Byte) (n : Nat) : Nat := ((imgCode img).filter fun x => bitOf (codeMask img x) n).length

/-- The voltage code of an I/O bank, and the pad entries: index, function code and flags (Table 02-6). -/
def imgBank (img : List Byte) (b : Nat) : Nat := sf img 6 b 1
def imgPads (img : List Byte) : List (Nat × Nat × Nat) :=
  (List.range ((slen img 6 - 8) / 4)).map fun i => (sf img 6 (8 + 4 * i) 1, sf img 6 (9 + 4 * i) 1, sf img 6 (10 + 4 * i) 1)

/-- The bank of a pad index (Table 14-14). -/
def padBank (i : Nat) : Option Nat :=
  if (decide (30 ≤ i) && decide (i ≤ 32)) || (decide (105 ≤ i) && decide (i ≤ 116)) then some 6
  else if 35 ≤ i ∧ i ≤ 46 then some 7
  else if 52 ≤ i ∧ i ≤ 64 then some 0
  else if 68 ≤ i ∧ i ≤ 88 then some 1
  else if 89 ≤ i ∧ i ≤ 104 then some 5
  else if (decide (117 ≤ i) && decide (i ≤ 124)) || (decide (128 ≤ i) && decide (i ≤ 143)) then some 2
  else if 144 ≤ i ∧ i ≤ 167 then some 3
  else if 168 ≤ i ∧ i ≤ 179 then some 4
  else none

/-- The GPIO line of a pad index. -/
def padGpio (i : Nat) : Option Nat :=
  if 35 ≤ i ∧ i ≤ 46 then some (i - 15)
  else if 57 ≤ i ∧ i ≤ 64 then some (i - 57)
  else if 105 ≤ i ∧ i ≤ 116 then some (i - 97)
  else none

/-- Is a function code allowed on a pad (Table 14-15)? -/
def padCode (i code : Nat) : Bool :=
  code == 0 || (code == 0xFE && !(decide (52 ≤ i) && decide (i ≤ 56))) ||
    ((padGpio i).isSome && (code == 1 || (decide (0x10 ≤ code) && decide (code ≤ 0x2F))))

/-- Is wired link `l` configured (rule R509)? -/
def imgWired (img : List Byte) (l : Nat) : Bool :=
  imgBank img 5 != 0xFF && !(imgPads img).any fun p => p.1 == 93 + 6 * l && p.2.1 == 0xFE

/-- Ledger entry `r`: KIND, BAND, LOW, HIGH and LIMITS (Table 06-7). -/
def imgRule (img : List Byte) (r : Nat) : LRule :=
  let o := 0x10 + 16 * r
  { kind := sf img 0x0B o 1, band := sf img 0x0B (o + 1) 1, low := sf img 0x0B (o + 4) 4, high := sf img 0x0B (o + 8) 4,
    limits := sf img 0x0B (o + 0x0C) 4 }

/-- SAVE_EXT entries: address and length in units. -/
def imgExt (img : List Byte) : List (Nat × Nat) :=
  (List.range (min (sf img 0x0A 0 1) ((slen img 0x0A - 8) / 8))).map fun i => (sf img 0x0A (8 + 8 * i) 4, sf img 0x0A (12 + 8 * i) 2)

/-- Bytes of the extension. -/
def imgExtBytes (img : List Byte) : Nat := ((imgExt img).map fun x => 8 * x.2).sum

/-- FAULT overrides: unit, threshold and window. -/
def imgFaults (img : List Byte) : List (Nat × Nat × Nat) :=
  (List.range (min (sf img 0x0C 3 1) ((slen img 0x0C - 8) / 4))).map fun i =>
    (sf img 0x0C (8 + 4 * i) 1, sf img 0x0C (9 + 4 * i) 1, sf img 0x0C (10 + 4 * i) 2)

/-- The default window and threshold of the FAULT section (rule R473). -/
def imgWindow (img : List Byte) : Nat := if hasSect img 0x0C then sf img 0x0C 0 2 else 600
def imgThreshold (img : List Byte) : Nat := if hasSect img 0x0C then sf img 0x0C 2 1 else 3

/-- The supply warning level. -/
def imgWarn (img : List Byte) : Nat := if hasSect img 0x0F then sf img 0x0F 0 2 else 3000

/-- ALLOW_JMP and the seal policy of PRESENCE. -/
def imgJmp (img : List Byte) : Bool := if hasSect img 0x0E then bitOf (sf img 0x0E 1 1) 0 else true
def imgSeal (img : List Byte) : Nat := sf img 0x0E 0 1

/-! ### The section list (rule R43) -/

/-- The exact or smallest length of a section type. -/
def lenOk (img : List Byte) (x : Sect) : Bool :=
  match x.type with
  | 1 => x.len == 268
  | 2 => x.len == 32
  | 3 => decide (8 ≤ x.len) && decide (x.len ≤ 65544)
  | 4 => decide (8 ≤ x.len) && decide (x.len ≤ 16392)
  | 5 => x.len == 256
  | 6 => decide (8 ≤ x.len) && x.len % 4 == 0
  | 7 => x.len == 32
  | 8 => x.len == 168
  | 9 => x.len == 64
  | 0x0A => x.len == 8 + 8 * fieldAt img x.off 1
  | 0x0B => x.len == 1024
  | 0x0C => x.len == 8 + 4 * fieldAt img (x.off + 3) 1
  | 0x0D => x.len == 16
  | 0x0E => x.len == 8
  | 0x0F => x.len == 8
  | 0x10 => x.len == 8
  | _ => true

/-- Do two sections overlap? -/
def Sect.meets (x y : Sect) : Bool :=
  decide (0 < x.len) && decide (0 < y.len) && decide (x.off < y.off + y.len) && decide (y.off < x.off + x.len)

/-- Does any two of a list satisfy `p`? -/
def anyTwo {α : Type} (p : α → α → Bool) : List α → Bool
  | [] => false
  | x :: r => r.any (p x) || anyTwo p r

/-- Is the section list valid: nothing unknown and critical, nothing twice, nothing outside, nothing missing? -/
def sectionsOk (img : List Byte) : Bool :=
  let l := sects img
  !(l.any fun x => !x.known && bitOf x.flags 0) &&
  !anyTwo (fun x y => x.type == y.type && x.type != 3) l &&
  l.all (fun x => x.off % 8 == 0 && decide (64 + 16 * imgCount img ≤ x.off) && decide (x.off + x.len ≤ imgLen img - 16)) &&
  !anyTwo Sect.meets l &&
  l.all (fun x => !x.known || lenOk img x) &&
  [1, 2, 5, 6, 7, 8, 0x0D, 0x10, 0x11].all (hasSect img) &&
  ((imgEngines img 1).isEmpty || hasSect img 3) &&
  (!imgAir img || hasSect img 0x0B)

/-! ### Conflicts -/

/-- Does a channel lie outside a band window? -/
def outsideBand (img : List Byte) (b ch : Nat) : Bool :=
  decide (ch + halfWindow b < imgCentre img b) || decide (imgCentre img b + halfWindow b < ch)

/-- Rules R44 and R112: the SLEEVE section. AERIAL 0 is accepted where only one chain of the band is on (assumption log 56). -/
def sleeveConflict (img : List Byte) : Bool :=
  let used := (List.range 32).filter fun n => imgSlv img n 0 != 0
  (List.range 4).any (fun i => decide (2 < imgChain img (i / 2) (i % 2))) ||
  [0, 1].any (fun b =>
    let a := imgChain img b 0
    let c := imgChain img b 1
    (a != 0 && c != 0 && a != c) ||
    ((a == 2 || c == 2) && decide (1 < (used.filter fun n => imgSlv img n 0 == b + 1 && !bitOf (imgSlv img n 3) 0).length)) ||
    ((a != 0 || c != 0) && (if b = 0 then decide (imgCentre img 0 < 423500) || decide (946500 < imgCentre img 0)
                            else imgCentre img 1 != 2441750))) ||
  (List.range 24).any (fun n => imgSlv img n 1 == 2) ||
  used.any (fun n =>
    let b := imgSlv img n 0 - 1
    let aer := imgSlv img n 2
    decide (2 < imgSlv img n 0) || decide (2 < imgSlv img n 1) || decide (2 < aer) ||
    (imgChain img b 0 == 0 && imgChain img b 1 == 0) ||
    (aer == 1 && imgChain img b 0 == 0) || (aer == 2 && imgChain img b 1 == 0) ||
    outsideBand img b (imgSlv img n 4) || (imgSlv img n 1 == 1 && b == 0))

/-- Rules R45 and R46: the ENGINES and LE_CODE sections, and the entries of the header. -/
def engineConflict (img : List Byte) : Bool :=
  let act := imgEngines img 1
  (List.range 6).any (fun n => decide (2 < imgRoleLe img n)) || decide (2 < imgPairQ img) || decide (1 < imgCe1 img) ||
  act.any (fun n => decide (1024 < imgRange img n) || decide (4096 < imgFirst img n + imgRange img n)) ||
  anyTwo (fun m n => decide (0 < imgRange img m) && decide (0 < imgRange img n) &&
    decide (imgFirst img m < imgFirst img n + imgRange img n) && decide (imgFirst img n < imgFirst img m + imgRange img m)) act ||
  (act.isEmpty && imgAir img) ||
  ((imgQ img == 0) == (imgPairQ img == 2)) ||
  (List.range 6).any (fun n => imgRoleLe img n != 0 && codeCount img n != 1) ||
  (match sect img 0x11 with
   | some x => decide (imgP img < x.off) || decide (x.off + x.len ≤ imgP img)
   | none => true)

/-- Rule R287: a policy word. -/
def policyConflict (w : Nat) : Bool :=
  w % 4 == 3 || (w % 4 == 0 && w != 0) || (bitOf w 4 && (bitOf w 2 || bitOf w 3)) || decide (2 ^ 27 ≤ w)

/-- Rules R412 and R506: the PADS section. -/
def padConflict (img : List Byte) : Bool :=
  let l := imgPads img
  imgBank img 0 == 0xFF || (List.range 8).any (fun b => decide (1 < imgBank img b) && imgBank img b != 0xFF) ||
  l.any (fun p => match padBank p.1 with
    | none => true
    | some b => !padCode p.1 p.2.1 || (imgBank img b == 0xFF && p.2.1 != 0xFE)) ||
  anyTwo (fun p q => p.1 == q.1 || (p.2.1 == q.2.1 && decide (0x10 ≤ p.2.1) && decide (p.2.1 ≤ 0x2F))) l

/-- Rule R394: a TIMERS entry. -/
def timerConflict (img : List Byte) : Bool :=
  hasSect img 9 && (List.range 16).any fun i =>
    let src := sf img 9 (4 * i) 1
    let dst := sf img 9 (4 * i + 2) 1
    let act := sf img 9 (4 * i + 3) 1
    (decide (7 < src) && src != 0xFF) || decide (7 < dst) || decide (8 < sf img 9 (4 * i + 1) 1) || decide (4 < act) ||
      (src == dst && (act == 1 || act == 3))

/-- Rule R226: the LEDGER section. -/
def ledgerConflict (img : List Byte) : Bool :=
  hasSect img 0x0B &&
    (let l := (List.range 63).map (imgRule img)
     decide (256 < ((l.filter fun x => x.kind == 1).map fun x => x.high / 65536).sum) ||
     l.any fun x => x.kind != 0 && (decide (3 < x.kind) || x.band == 0 || decide (2 < x.band) ||
       (x.kind != 1 && decide (x.high < x.low))))

/-- Rule R472: the FAULT section. -/
def faultConflict (img : List Byte) : Bool :=
  hasSect img 0x0C &&
    (imgThreshold img == 0 || decide (16 < imgThreshold img) || imgWindow img == 0 ||
     (imgFaults img).any (fun x => !isUnit x.1 || x.2.1 == 0 || decide (16 < x.2.1) || x.2.2 == 0) ||
     anyTwo (fun x y => x.1 == y.1) (imgFaults img))

/-- The service that the image itself configures, in the words of FLT_SVC_MIN. -/
def imgService (img : List Byte) : Nat × Nat × Nat :=
  let act := (imgEngines img 1).length
  let slv (b : Nat) := ((List.range 32).filter fun n => imgSlv img n 0 == b + 1 && !bitOf (imgSlv img n 3) 0).length
  let chains (b : Nat) := (if imgChain img b 0 != 0 then 1 else 0) + (if imgChain img b 1 != 0 then 1 else 0)
  let wired := (if imgWired img 0 then 1 else 0) + (if imgWired img 1 then 1 else 0)
  ((if imgPairQ img = 2 then 2 else 1) + 0x100 * act + 0x10000 * slv 0 + 0x1000000 * slv 1,
   chains 0 + 0x100 * chains 1 + 0x10000 * ((if chains 0 = 0 then 0 else 1) + (if chains 1 = 0 then 0 else 2)) + 0x1000000 * wired,
   min 4096 (1024 * act) + 0x10000 * (1 + imgCe1 img))

/-- The SERVICE section as the words of FLT_SVC_MIN (rule R483). -/
def imgMinimum (img : List Byte) : Nat × Nat × Nat := (sf img 0x0D 0 4, sf img 0x0D 4 4, sf img 0x0D 8 3)

/-- Rule R47, with the codes of MEMORY, PRESENCE and POWER and the windows of the SAVE_EXT and SERVICE sections. -/
def deviceConflict (img : List Byte) : Bool :=
  sf img 7 28 1 != 4 || (List.range 7).any (fun n => sf img 7 (4 * n) 1 == 4 || decide (5 < sf img 7 (4 * n) 1)) ||
  sf img 8 (8 * 9) 8 != 0 || sf img 8 (8 * 0x14) 8 != 0 ||
  decide (4096 < 1024 + imgExtBytes img) ||
  svcFailing (imgService img) (imgMinimum img) != 0 ||
  decide (2 < imgSeal img) ||
  decide (imgWarn img < 2400) || decide (4500 < imgWarn img) ||
  (List.range 64).any fun n => policyConflict (sf img 5 (4 * n) 4)

/-- Do section values contradict each other or the device (IMG_CONFLICT)? -/
def imgConflict (img : List Byte) : Bool :=
  sleeveConflict img || engineConflict img || padConflict img || timerConflict img || ledgerConflict img ||
    faultConflict img || deviceConflict img

/-! ### Verification -/

/-- The image key a slot number names, and whether it is revoked (rules R48 to R50). -/
def Fuses.imageKey (f : Fuses) (k : Nat) : List Byte := if k = 0 then f.key0 else f.key1
def Fuses.revoked (f : Fuses) (k : Nat) : Bool := if k = 0 then f.revoked0 else f.revoked1

/-- The CMAC of rule R48 over an image under the key its KEY_SLOT names, against the tag in its last 16 bytes. -/
def tagGood (f : Fuses) (img : List Byte) : Bool :=
  nums ((img.drop (imgLen img - 16)).take 16) == cmac (nums (f.imageKey (imgKey img))) (nums (img.take (imgLen img - 16)))

/-- The checks of rules R48 to R52 on the image of a slot, in the order of rule R52: OK, or the code of the first that
fails. -/
def Dev.imageCheck (s : Dev) (f : Fuses) (b : Bool) : Status :=
  if !headerOk (s.slotHeader b) then .imgBadHeader
  else
    let img := s.slotImage b
    if s.slotBroken b || !tagGood f img then .imgBadTag
    else if imgSeq img < f.floor then .imgRollback
    else if f.revoked (imgKey img) then .imgKeyRevoked
    else if imgTarget img ≠ 2 ∧ imgTarget img ≠ slotArr b then .imgWrongSlot
    else if !sectionsOk img then .imgBadSection
    else if imgConflict img then .imgConflict
    else .ok

/-- The CMAC of a slot's image has run, as requests of Sarnis over at most 4,096 bytes each up to one whose read fails
(rules R48, R304, R306 and R511, and the worked example of chapter 02). Which engine takes a part where both serve, and how
many operations a part that fails ran, is open. -/
def Dev.cmacParts (s : Dev) (b : Bool) : Dev :=
  let n := imgLen (s.slotHeader b) - 16
  if !headerOk (s.slotHeader b) then s
  else
    let bad := (List.range (s.imgUnits b)).find? fun i => (s.slotUnit b (8 * i)).outcome == 3
    let parts := match bad with
      | some i => min (i / 512 + 1) (ceilDiv n 4096)
      | none => ceilDiv n 4096
    let pick := s.freeVal 128
    let cut := s.drew.freeVal 8 + 1
    let s := (s.drew.drew).each (List.range parts) fun s i =>
      let ops := if bad.isSome ∧ i + 1 = parts then cut else 1 + ceilDiv (min 4096 (n - 4096 * i)) 16
      match [0, 1].filter s.ceServes with
      | [e] => s.ceCount e ops
      | _ :: _ => s.ceCount (if bitOf pick i then 1 else 0) ops
      | [] => s
    let s := (s.wr (CE_DONE_COUNT 9) (s.rd (CE_DONE_COUNT 9) + parts)).putBit CE_EVENTS_DONE_r (doneBit 9) true
    s.add CE_CNT_REQ_COUNT parts

/-! ### Status pages (Table 02-7) -/

/-- The first eight bytes of status page `p` of a slot, as stored. -/
def Dev.statusPage (s : Dev) (b : Bool) (p : Nat) : Unit8 := s.slotUnit b (0x70000 + 512 * p)

/-- ARMED or CONFIRMED: bytes 0 to 3 equal the slot's SEQUENCE and bytes 4 to 7 are 0. -/
def Dev.pageNames (s : Dev) (b : Bool) (p : Nat) : Bool :=
  (s.statusPage b p).outcome != 3 && (s.statusPage b p).delivered.toNat == imgSeq (s.slotHeader b)

/-- ATTEMPT: the first eight bytes are not all 0xFF, even when unreadable. -/
def Dev.pageTried (s : Dev) (b : Bool) (p : Nat) : Bool := (s.statusPage b p).data.toNat != 2 ^ 64 - 1

/-- Is the image of slot `b` confirmed? -/
def Dev.slotConfirmed (s : Dev) (b : Bool) : Bool := s.pageNames b 127

/-- Status page `p` of a slot is programmed with the slot's SEQUENCE and four zero bytes, and the flash controller reports a
program that ended well; the pulses it took are open (rules R41 and R352). -/
def Dev.pageProgram (s : Dev) (b : Bool) (p : Nat) : Dev :=
  let a := slotArr b
  let data := leBytes 8 (imgSeq (s.slotHeader b)) ++ List.replicate 504 0xFF
  let s := (s.putUnits (s.pageAt a 7 p) data (chkOf data)).rebuildPtr a 7
  let s := ((s.st (FLC_CMD_RESULT a) .ok).wr (FLC_CMD_LAST_OP a) 1).wr (FLC_CMD_PULSES a) (1 + s.freeVal 4)
  ((((s.clr (FLC_CMD_RETIRED a)).clr (FLC_CMD_WEAR_LAST a)).set (FLC_EVENTS_DONE a)).drew)

/-- The candidates of rule R52, best first. -/
def Dev.candidates (s : Dev) : List Bool :=
  let ok (b : Bool) : Bool :=
    headerOk (s.slotHeader b) && (s.pageNames b 124 || s.slotConfirmed b) && (s.slotConfirmed b || !s.pageTried b 126)
  let l := [false, true].filter ok
  if l = [false, true] ∧ imgSeq (s.slotHeader false) < imgSeq (s.slotHeader true) then [true, false] else l

/-- The slots that the selection of rule R52 verifies, up to the first that passes. -/
def Dev.tried52 (s : Dev) (f : Fuses) : List Bool → List Bool
  | [] => []
  | b :: r => if s.imageCheck f b = .ok then [b] else b :: s.tried52 f r

/-- The selection of rule R52 without its programming, and the code of rule R53. -/
def Dev.choose52 (s : Dev) (f : Fuses) : List Bool → Status → Option Bool × Status
  | [], last => (none, last)
  | b :: r, _ => if s.imageCheck f b = .ok then (some b, .ok) else s.choose52 f r (s.imageCheck f b)

end Sys2Proof.Machine
end

