-- ==== Sys2Proof/Machine/Domains.lean ====
section
/-!
DEFINITION. The power domains: what each loses when it goes off and how it comes up, and the reset of the device that keeps
the mantle (rules R31, R34, R35, R63, R183, R279, R326, R364, R395, R399, R410 and R469).
-/

namespace Sys2Proof.Machine

/-- The ST bits of the register at `a`. -/
def stMask (a : Nat) : Nat := ((regFind a).map (·.st)).getD 0

/-- Registers of a range take their reset values; ST fields stand, from the structure store (rule R421), and so does every
register that `keep` names. -/
def Dev.regsLost (s : Dev) (lo hi : Nat) (keep : Nat → Bool) : Dev :=
  s.each (s.regs.filter fun e => decide (lo ≤ e.1) && decide (e.1 ≤ hi) && !keep e.1) fun s e =>
    let m := BitVec.ofNat 32 (stMask e.1)
    s.setReg e.1 ((regReset e.1 &&& ~~~m) ||| (e.2 &&& m))

/-- No register is kept. -/
def keepNone (_ : Nat) : Bool := false

/-- Do `len` bytes at `a` reach into segment `n` of frame memory? -/
def inSeg (n a len : Nat) : Bool :=
  decide (0 < len) && decide (a < 0x20000000 + 0x40000 * (n + 1)) && decide (0x20000000 + 0x40000 * n < a + len)

/-- What the message layer loses with segment `n`, where its registers place it: with the pool everything, else the contexts or the
transactions whose area it held (rule R279). -/
def Dev.mlSeg (s : Dev) (n : Nat) : Dev :=
  if inSeg n (s.bufAddr 0) (s.bufSize * min 2048 (s.rd ML_POOL_CFG_COUNT)) then s.mlFresh
  else s.onMl fun m => { m with
    ctxs := if inSeg n (s.rd ML_RA_BASE_ADDR * 64) (64 * s.rd ML_RA_CFG_CONTEXTS) then [] else m.ctxs
    txns := if inSeg n (s.rd ML_TXN_BASE_ADDR * 32) 8192 then [] else m.txns }

/-! ### Off -/

/-- Segment `n` loses its contents: the remap with it, its spares free again (rules R338, R346 and R279). -/
def Dev.segOff (s : Dev) (n : Nat) : Dev :=
  let s := s.mlSeg n
  let s := { s with weave := { s.weave with
    lines := s.weave.lines.filter fun e => (e.1 - 0x20000000) / 0x40000 != n,
    retain := s.weave.retain.filter fun e => e.1 != n } }
  ((s.clr (WV_SEG_READY n)).clr (WV_SEG_EXHAUSTED n)).wr (WV_SEG_SPARES_LEFT n) 128

/-- PD2 off: registers, queue and random buffer are lost, the pocket store is retained (Table 11-3, rule R326). Where a reset cuts
a command short, the key of its journal record is lost with it, while a reservation and an erase are still recorded
(assumption log 58). -/
def Dev.secureOff (s : Dev) : Dev :=
  let s := s.regsLost 0x40060000 0x4007FFFF fun a => a == CE_ENG
  ((s.journalCut false).onSec fun x => { x with queue := [], cmd := none, ready := false, random := [], ops := [], rotate := none,
                                                drbgCount := 65536 }).setDisp 2 0

/-- A pair's domain off; its TCM is retained or lost. -/
def Dev.pairOff (s : Dev) (x : Nat) (retain : Bool) : Dev :=
  let s := (s.pairReset x).setPair x { (s.pairReset x).pair x with run := .off, standby := false }
  if retain then s.setDisp (3 + x) 2 else (s.setScrubbed x false).setDisp (3 + x) 0

/-- PD5 off: the slot engine, the link engines, their SRAM, the key index and the message layer's control are lost; what
lies in frame memory stands. Ranges, roles and LE_MAP stand for the loader to write back. -/
def Dev.linkOff (s : Dev) : Dev :=
  let s := s.regsLost 0x40100000 0x4017FFFF fun a =>
    a == LE_MAP || (List.range 6).any fun k => a == LE_RANGE k || a == LE_STATE k
  let s := s.each (List.range 6) fun s k =>
    let r := s.rd (LE_STATE_ROLE k)
    ((s.setReg (LE_STATE k) 0).wr (LE_STATE_ROLE k) r).setScrubbed (2 + k) false
  let eng := s.se.engines.map fun e => (e.1, { LinkEng.init with range := e.2.range })
  let s := { s with se := { SlotEng.init with led := { s.se.led with use := [] } } }
  let s := eng.foldl (fun s e => s.setEng e.1 e.2) s
  ({ s with ml := { s.ml with keys := [], rebuilding := true, ptOp := none, heldDone := [] } }).setDisp 5 0

/-- PD6 off but for the segments that retain their contents. -/
def Dev.frameOff (s : Dev) (retain : List Nat) : Dev :=
  let s := s.each ((List.range 8).filter fun n => !retain.contains n) fun s n => s.segOff n
  s.setDisp 6 (if retain = [] then 0 else 2)

/-- PD7 off: an operation that a reset cuts leaves its page or block torn (rule R362); registers, the tracker, DARNS and the
pointers restart; flash keeps its contents (rule R364). -/
def Dev.flashOff (s : Dev) : Dev :=
  let s := (s.tornFlash 0).tornFlash 1
  let s := s.regsLost 0x40050000 0x4005FFFF fun a => (List.range 8).any fun n => a == WV_SEG n
  let s := s.each [0, 1] fun s a => s.setArr a
    { FlashArr.init with blocks := (s.arr a).blocks.map fun b => (b.1, { b.2 with darns := 0, ptrOk := false, ptr := 0 }),
                         spares := (s.arr a).spares }
  ({ s with weave := { s.weave with track := [], due := none } }).setDisp 7 0

/-- PD8 or PD9 off: commands complete with NOT_READY, frames end with ABORTED (rules R150 and R183). -/
def Dev.radioOff (s : Dev) (b : Nat) : Dev :=
  let s := if ((s.path b).going).isSome then s.txCut b .notReady 0 else s
  let s := (s.txDrop b).endBand b .aborted
  let s := s.setBand b { Band.init with savedOk := (s.band b).savedOk, savedTemp := (s.band b).savedTemp,
                                        savedVco := (s.band b).savedVco, savedLo := (s.band b).savedLo,
                                        outOfService := (s.band b).outOfService, limpOff := (s.band b).limpOff }
  let s := (((s.bandState b 0).clr (RF_STATE_LOCKED b)).clr (RF_STATE_BLANK b)).wr (RF_STATE_CAL_ITEM b) 0
  let s := (s.wr ⟨RF_CAL_STATUS b, 0, 8⟩ 0).startCal (1 - b)
  let s := (s.wr (TXP_STATUS_STATE b) 0).setPath b { s.path b with turning := false }
  ((s.setDisp (8 + b) 0).restBand b).ringsNote b

/-- PD10 off: links, switch, table and buffer (rule R469). -/
def Dev.wiredOff (s : Dev) : Dev :=
  let s := s.regsLost 0x40180000 0x401EFFFF keepNone
  let links := s.io.links.map fun l => (l.1, { WLink.init with configured := l.2.configured })
  ({ s with io := { s.io with links := links, egress := [], fdb := [], mx := [], kept := [], seen := false, streak := 0 } }).setDisp 10 0

/-- Serial transfers are abandoned at a sleep commit: their results read NOT_READY, the FIFOs are empty (rule R468). -/
def Dev.serialStop (s : Dev) : Dev :=
  let s := s.each (List.range 8) fun s k =>
    if bitOf (s.rd (CSP_STATUS_M_BUSY k)) 0 then (s.st (CSP_M_STAT_RESULT k) .notReady).clr (CSP_STATUS_M_BUSY k) else s
  let s := s.each [0, 1] fun s i => if s.on (I2C_STAT_BUSY i) then (s.st (I2C_STAT_RESULT i) .notReady).clr (I2C_STAT_BUSY i) else s
  let s := s.each (List.range 4) fun s u =>
    (((s.wr (UART_STATUS_TX_LEVEL u) 0).wr (UART_STATUS_RX_LEVEL u) 0).set (UART_STATUS_TX_IDLE u)).clr (UART_STATUS_DE u)
  { s with io := { s.io with slv := [], uartRx := [], uartTx := [], i2cAct := [], cspAct := [], sent := [] } }

/-- The PD1 windows whose registers PD1 loses: not the structure registers, which Sarnis writes again from flash, not
presence and the fault block, whose state PD0 keeps (rules R421 and R475). -/
def coreWindows : List (Nat × Nat) :=
  [(0x40000000, 0x40007FFF), (0x40020000, 0x40027FFF), (0x40030000, 0x40047FFF), (0x40080000, 0x400FFFFF)]

/-- PD1 off, in HIBERNATE and at a reset. The slow-clock increment and source belong to the mantle, the remainder of a slew stands
in PD0 (rule R191), the physical spares and the retired set with the fault state (rule R475), and a temperature is no register of
PD1's own. -/
def Dev.coreOff (s : Dev) : Dev :=
  let slow := s.on TREF_STATUS_SLOW_ON_RC
  let slew := s.on TREF_STATUS_SLEWING
  let die := [s.rd (RF_CAL_TEMP_DIE_C 0), s.rd (RF_CAL_TEMP_DIE_C 1)]
  let s := s.each coreWindows fun s w => s.regsLost w.1 w.2 fun a =>
    a == SYS_PAIR_STATUS || a == TREF_SLOW_INC || a == TREF_PHASE_ADJ || a == SLV_SPARES || a == SLV_RETIRED ||
      (List.range 32).any fun n => a == SLV_ASSIGN n
  let s := (s.put TREF_STATUS_SLOW_ON_RC slow).put TREF_STATUS_SLEWING slew
  let s := (s.wr (RF_CAL_TEMP_DIE_C 0) (die[0]?.getD 0)).wr (RF_CAL_TEMP_DIE_C 1) (die[1]?.getD 0)
  let s := s.onTb fun t => { t with cap := 0, capFrac := 0, ppsOut := false }
  let s := { s with fab := { waiting := [], last := [] }, sleeves := [], bank := .init, paths := [], timers := [], chans := [],
                    rings := [], lineTog := [], mboxFrom := 0 }
  let s := { s with io := { s.io with slv := [], uartRx := [], uartTx := [], i2cAct := [], cspAct := [], sent := [], risen := 0,
                                      gap := false, events := 0 } }
  s.setDisp 1 0

/-! ### On -/

/-- A pair whose domain is on and whose TCM is scrubbed is released where its role calls for it: role P at P_ENTRY, a standby
or a partition as MODE_Q says (rules R369, R419 and R510). -/
def Dev.pairGo (s : Dev) (x : Nat) : Dev :=
  let r := s.roleOf x
  let q := s.rd SYS_PAIR_STATUS_MODE_Q
  if !s.up (3 + x) ∨ !mapGet (fun _ => false) s.weave.scrubbed x ∨ (s.pair x).run ≠ .off ∨ s.retired x ∨
      !s.on STR_STATUS_LOCKED ∨ (r = 1 ∧ q = 0) then s
  else
    let s := (s.pairReset x).pairRelease x 1 (r == 1 && q == 1) (s.entryOf r)
    (if s.isLasting x ∧ !(r == 1 && q == 1) then s.unitState x 6 else s).pairView

/-- The engines of a role start. -/
def Dev.enginesGo (s : Dev) : Dev := s.each (List.range 6) fun s k => s.leReady k

/-- PD7 is powered: FLC_SPARES shows what the information rows say. -/
def Dev.flashOn (s : Dev) : Dev :=
  s.each [0, 1] fun s a => (s.wr (FLC_SPARES_LEFT a) (s.arr a).spares.length).wr (FLC_SPARES_RETIRED a) (4 - (s.arr a).spares.length)

/-- Domain `n` is powered: a memory that was not retained starts its scrub, a band follows rule R107. -/
def Dev.domainOn (s : Dev) (n : Nat) (wake : Bool) : Dev :=
  if s.up n then s
  else
    let s := s.setDisp n 1
    match n with
    | 2 => s.ceWake
    | 7 => s.flashOn
    | 8 => s.bandOn 0 wake
    | 9 => s.bandOn 1 wake
    | _ => s

/-- Domain `n` goes off in RUN. -/
def Dev.domainOff (s : Dev) (n : Nat) : Dev :=
  if s.disp n = 0 then s
  else match n with
    | 2 => s.secureOff
    | 3 => s.pairOff 0 false
    | 4 => s.pairOff 1 false
    | 5 => s.linkOff
    | 6 => s.frameOff []
    | 7 => s.flashOff
    | 8 => s.radioOff 0
    | 9 => s.radioOff 1
    | 10 => s.wiredOff
    | _ => s

/-- Off, the outermost domains first (rule R35); what frame memory loses is judged by the registers of PD5, so before them. -/
def Dev.domainsOff (s : Dev) (l : List Nat) : Dev :=
  s.each ([10, 9, 8, 6, 5, 4, 3, 7, 2].filter l.contains) fun s n => s.domainOff n

/-- On, the inner domains first (rule R35). -/
def Dev.domainsOn (s : Dev) (l : List Nat) (wake : Bool) : Dev :=
  s.each ([1, 2, 7, 6, 5, 3, 4, 10, 8, 9].filter l.contains) fun s n => s.domainOn n wake

/-- The scrubs of rules R346 and R510 that the mantle waits for: frame segments in use, TCM and link-engine SRAM. -/
def Dev.scrubAll (s : Dev) : Dev :=
  let s := s.each (List.finRange 8) fun s n => s.scrubDone (.seg n)
  let s := s.each (List.finRange 2) fun s p => s.scrubDone (.tcm p)
  s.each (List.finRange 6) fun s k => s.scrubDone (.le k)

/-! ### The reset of everything but the mantle -/

/-- ST fields of a range go back to their reset values. -/
def Dev.stReset (s : Dev) (lo hi : Nat) : Dev :=
  s.each (s.regs.filter fun e => decide (lo ≤ e.1) && decide (e.1 ≤ hi)) fun s e =>
    let m := BitVec.ofNat 32 (stMask e.1)
    s.setReg e.1 ((regReset e.1 &&& m) ||| (e.2 &&& ~~~m))

/-- Every unit but the mantle, the pocket store and, where `m7` says so, M7 stops and loses its state (rules R63 and R410):
structure registers, image and boot machinery stand at reset, the air timebase and the fault state as they are. The mantle
goes on through a full restructure, and limp state with it (rule R426). -/
def Dev.unitsOff (s : Dev) (m7 : Bool) : Dev :=
  let s := ((s.domainsOff [8, 9, 10]).frameOff (if m7 then [7] else [])).domainsOff [3, 4, 5, 7]
  let s := s.coreOff.regsLost 0x40008000 0x4000FFFF keepNone
  let s := s.stReset 0x40000000 0x401EFFFF
  let s := s.each (List.range 32) fun s n => s.setReg (SLV_ASSIGN n) (regReset (SLV_ASSIGN n))
  let s := s.each (List.range 6) fun s k => ((s.setReg (LE_RANGE k) 0).setReg (LE_STATE k) 0).setEng k .init
  let s := s.setReg LE_MAP (regReset LE_MAP)
  let s := s.each [0, 1] fun s b => s.setBand b .init
  let s := { s with img := .init, se := .init, ml := { Layer.init with rebuilding := true }, pool := [],
                    dbg := { Debug.init with haveReset := (List.range 9).map fun h => (h, true) } }
  ((if m7 then s else s.clr MNT_STATE_LIMP).wr MNT_STATE_STATE 0).wr MNT_DOMAIN_REQ 0x43

end Sys2Proof.Machine
end

