-- ==== Sys2Proof/Machine/Boot.lean ====
section
/-!
DEFINITION. Boot, image load and lock, restructure, presence and the seal (rules R40 to R69, R397 and R458).
-/

namespace Sys2Proof.Machine

/-- A meaning that reads the fuse bank. -/
def onFuses (f : Fuses → Dev → Dev) (s : State) : Host.Outcome State Fault Refusal := .next { s with dev := f s.fuses s.dev }

/-- A meaning that may change the fuse bank. -/
def onBoth (f : Fuses → Dev → Dev × Fuses) (s : State) : Host.Outcome State Fault Refusal :=
  .next { s with dev := (f s.fuses s.dev).1, fuses := (f s.fuses s.dev).2 }

def Dev.onBoot (s : Dev) (f : Boot → Boot) : Dev := { s with boot := f s.boot }
def Dev.onImg (s : Dev) (f : Image → Image) : Dev := { s with img := f s.img }

/-! ### Grants (rules R65 to R69) -/

/-- Is every presence-class action authorised now? -/
def Dev.granted (s : Dev) : Bool := s.on PRS_STATUS_GRANT_JMP || s.on PRS_STATUS_GRANT_SEAL

/-- The jumper grant of rule R67: given once, it stands until the next reset, a full restructure included, and it is logged
as a record of the device whose event code Table 13-2 does not give (assumption log 56). -/
def Dev.jumper (s : Dev) : Dev :=
  if s.boot.strap && (s.on STR_STATUS_LOADER_STATE || s.img.allowJmp) && !s.on PRS_STATUS_GRANT_JMP then
    let s := s.set PRS_STATUS_GRANT_JMP
    (s.record 0xFF (s.freeVal 8) 4 0 0).drew
  else s

/-! ### Image selection (rules R52 to R55) -/

/-- Loader state: nothing chosen, LOAD_CODE says why; Sarnis serves CSP0 as a slave (rules R53 and R55). -/
def Dev.loaderState (s : Dev) (code : Nat) : Dev :=
  let s := (s.wr STR_STATUS_LOAD_CODE code).set STR_STATUS_LOADER_STATE
  let s := (s.set FLT_STATUS_LOADER).onBoot fun b => { b with select := none, loading := none }
  let s := ((s.set (CSP_CFG_ROLE 0)).set (CSP_CFG_ENABLE 0)).set (CSP_STATUS_SLV_LOADER 0)
  s.jumper.healthPin

/-- IMAGE_SELECT: the candidates of rule R52 are found and the CMAC of the best one starts, or loader state is entered. -/
def Dev.imageSelect (s : Dev) : Dev :=
  match s.candidates with
  | [] => s.loaderState Status.imgNoImage.code
  | l => s.onBoot fun b => { b with select := some { cands := l, full := false, auto := false, last := 0 } }

/-- The start of a boot: PD1, PD2 and PD7 are on, the fuse bank shows, and an image is selected (Table 02-10). -/
def Dev.bootStart (s : Dev) (f : Fuses) : Dev :=
  let s := s.domainsOn [1, 2, 7] false
  let s := (s.wr STR_FLOOR_VALUE f.floor).put STR_STATUS_KEY0_REVOKED f.revoked0
  (s.put STR_STATUS_KEY1_REVOKED f.revoked1).imageSelect

/-- A reset other than a power-on reset, and the boot that follows (rules R382, R384, R410 and R421). PRES_JMP is taken as
it was strapped at the last reset release. -/
def Dev.deviceReset (s : Dev) (f : Fuses) (cause : Nat) : Dev :=
  let s := s.secureOff.unitsOff false
  let s := s.onBoot fun b => { Boot.init with held := false, strap := b.strap, mismatches := b.mismatches, sealCount := b.sealCount }
  let s := (((s.clr PRS_STATUS_WAITING).clr PRS_STATUS_GRANT_JMP).wr PRS_GRANT_WINDOW_S 0).wr MNT_RESET_CAUSE_CAUSE cause
  let s := { s with mnt := { Mantle.init with slowXtal := s.mnt.slowXtal, xtalStart := s.mnt.xtalStart, vinLow := s.mnt.vinLow } }
  ({ s with waits := s.waits.filter fun e => e.1 == Wait.xtal } : Dev).bootStart f

/-- POWER_ON_RESET, rule R397: every domain is reset, PD0 included; what stands in flash stays. -/
def Dev.powerOn (s : Dev) : Dev :=
  let s := (s.tornFlash 0).tornFlash 1
  let keep (lo hi : Nat) (l : List Host.Cell) := l.filter fun c => decide (lo ≤ c.1) && decide (c.1 < hi)
  { Dev.reset with
    mem := keep 0x300000000 0x400000000 s.mem
    chk := keep 0xC0000000 0x100000000 s.chk
    freeCtr := s.freeCtr
    flash := s.flash.map fun e => (e.1, { FlashArr.init with
      blocks := e.2.blocks.map fun b => (b.1, { b.2 with darns := 0, ptrOk := false, ptr := 0 }), spares := e.2.spares }) }

/-- SUPPLY_RISE, rule R397: the count to the reset release begins or begins again; the slow crystal is started. -/
def Dev.supplyRise (s : Dev) : Dev :=
  if s.boot.held then
    let s := (s.onBoot fun b => { b with rise := true }).set TREF_STATUS_SLOW_ON_RC
    ({ s with mnt := { s.mnt with xtalStart := true } }).mark .xtal
  else s

/-- RESET_RELEASE, rules R67 and R397: the boot starts; the interval until service first meets the minimum is planned (rule R484). -/
def Dev.resetRelease (s : Dev) (f : Fuses) (strap : Bool) : Dev :=
  if !s.boot.held ∨ !s.boot.rise then s
  else
    let s := s.onBoot fun b => { b with held := false, rise := false, strap := strap }
    let s := s.planStart.regulatorsOn
    (s.domainsOn [1, 2, 7] false).bootStart f

/-! ### Section values (rules R57, R70, R71 and Table 02-4 to 02-6) -/

/-- The SLEEVE section; on a wake the physical spares are those of before (rule R475). -/
def Dev.loadSleeves (s : Dev) (img : List Byte) (wake : Bool) : Dev :=
  let s := s.each [0, 1] fun s b =>
    let s := ((s.wr (RF_WINDOW_CENTRE_KHZ b) (imgCentre img b)).wr (RF_CHAINS_A_MODE b) (imgChain img b 0)).wr
      (RF_CHAINS_B_MODE b) (imgChain img b 1)
    let s := (s.put (RF_CHAINS_A_ON b) (imgChain img b 0 != 0)).put (RF_CHAINS_B_ON b) (imgChain img b 1 != 0)
    let mine := (List.range 32).filter fun n => imgSlv img n 0 == b + 1
    let ch := match mine.find? fun n => !bitOf (imgSlv img n 3) 0 with
      | some n => imgSlv img n 4
      | none => match mine with
        | n :: _ => imgSlv img n 4
        | [] => imgCentre img b
    s.wr (RF_NARROW_CHANNEL_KHZ b) (if imgChain img b 0 = 2 ∨ imgChain img b 1 = 2 then ch else 0)
  s.each (List.range 32) fun s n =>
    let s := ((s.wr (SLV_ASSIGN_BAND n) (imgSlv img n 0)).wr (SLV_ASSIGN_MODE n) (imgSlv img n 1)).wr (SLV_ASSIGN_AERIAL n) (imgSlv img n 2)
    let s := if wake then s else s.putBit SLV_SPARES_MASK (s.phys n) (bitOf (imgSlv img n 3) 0 && !s.bit SLV_RETIRED_MASK (s.phys n))
    (s.put (SLV_ASSIGN_SPARE n) (bitOf (imgSlv img n 3) 0)).wr (SLV_CHAN_CHANNEL_KHZ n) (imgSlv img n 4)

/-- The ENGINES section. -/
def Dev.loadEngines (s : Dev) (img : List Byte) : Dev :=
  let s := (s.wr SYS_PAIR_STATUS_MODE_Q (imgPairQ img)).wr ⟨CE_ENG, 0, 2⟩ 1
  let s := s.wr ⟨CE_ENG, 8, 2⟩ (if imgCe1 img = 1 then 1 else 2)
  s.each (List.range 6) fun s k =>
    let s := (s.wr (LE_STATE_ROLE k) (imgRoleLe img k)).wr (LE_RANGE_FIRST k) (imgFirst img k)
    s.wr (LE_RANGE_COUNT k) (if imgRoleLe img k = 1 then imgRange img k else 0)

/-- The POCKET_POLICY section: a pocket whose key no longer fits is erased (rule R288). -/
def Dev.loadPolicy (s : Dev) (dk : List Byte) (img : List Byte) : Dev :=
  s.each (List.range 64) fun s n =>
    let w := sf img 5 (4 * n) 4
    let p := s.pocket n
    let misfit := match p.cur with
      | some g => w % 4 == 0 || g.key.length != keyOctets (w % 4)
      | none => false
    let s := if misfit then (if p.lastRec = 1 ∨ p.lastRec = 2 then (s.pocketKill n).journalErase dk n false else s.pocketKill n) else s
    s.setReg (PCK_POLICY n) (BitVec.ofNat 32 w)

/-- The TIMERS section. -/
def Dev.loadTimers (s : Dev) (img : List Byte) : Dev :=
  if !hasSect img 9 then s
  else (s.each (List.range 16) fun s i => s.setReg (GT_TRIG i) (BitVec.ofNat 32 (sf img 9 (4 * i) 4))).gtView

/-- The LEDGER section; the history of the accounts is held or dropped (rules R62 and R226): held use stays with its account
number and bucket as it stands, whatever the new rules say of them (assumption log 56). -/
def Dev.loadLedger (s : Dev) (img : List Byte) (hold : Bool) : Dev :=
  { s with se := { s.se with led := {
    present := hasSect img 0x0B, refuse := !hasSect img 0x0B || bitOf (sf img 0x0B 4 4) 0,
    rules := if hasSect img 0x0B then (List.range 63).map (imgRule img) else [],
    use := if hold then s.se.led.use else [] } } }

/-- The FAULT section: the window and threshold of every unit (rule R473). -/
def Dev.loadFaults (s : Dev) (img : List Byte) : Dev :=
  s.each ((List.range 0x40).filter isUnit) fun s c =>
    let o := (imgFaults img).find? fun x => x.1 == c
    s.setUnit c { s.unit c with window := (o.map (·.2.2)).getD (imgWindow img), threshold := (o.map (·.2.1)).getD (imgThreshold img) }

/-- The SERVICE, POWER and FAULT sections: the warm-changeable ones beside the ledger. -/
def Dev.loadWarm (s : Dev) (img : List Byte) (hold : Bool) : Dev :=
  let m := imgMinimum img
  let s := ((s.wr FLT_SVC_MIN_0_MIN m.1).wr FLT_SVC_MIN_1_MIN m.2.1).wr FLT_SVC_MIN_2_MIN m.2.2
  ((s.wr MNT_SUPPLY_WARN_MV (imgWarn img)).loadFaults img).loadLedger img hold

/-- The domains that an image configures (rules R401 and R509). -/
def imgAllow (img : List Byte) : Nat :=
  0xCF + (if imgPairQ img ≠ 0 then 0x10 else 0) + (if (imgEngines img 0).length < 6 then 0x20 else 0) +
    (if imgChain img 0 0 ≠ 0 ∨ imgChain img 0 1 ≠ 0 then 0x100 else 0) +
    (if imgChain img 1 0 ≠ 0 ∨ imgChain img 1 1 ≠ 0 then 0x200 else 0) +
    (if imgWired img 0 ∨ imgWired img 1 then 0x400 else 0)

/-- What the image says beside the ST fields. -/
def Dev.loadStore (s : Dev) (b : Bool) (img : List Byte) : Dev :=
  let base := slotBase b
  let code := (imgCode img).map fun x =>
    { mask := codeMask img x, entry := fieldAt img (x.off + 4) 4, off := base + x.off + 8, len := x.len - 8 : LeCode }
  let s := s.onImg fun i => { i with
    key := imgKey img, flags := imgFlags img, tag := img.drop (imgLen img - 16),
    pEntry := base + imgP img, qEntry := if imgQ img = 0 then 0 else base + imgQ img,
    segUse := (List.range 8).map fun n => sf img 7 (4 * n) 1,
    segRetain := (List.range 8).map fun n => bitOf (sf img 7 (4 * n + 1) 1) 0,
    banks := (List.range 8).map (imgBank img), pads := imgPads img, saveExt := imgExt img, leCode := code,
    mantleCode := (sect img 4).map fun x => (fieldAt img x.off 4, x.len - 8),
    allowJmp := imgJmp img, sealPol := imgSeal img,
    oui := (List.range 3).map fun k => BitVec.ofNat 8 (sf img 0x10 k 1),
    etherType := sf img 0x10 4 2, transports := sf img 0x10 6 1 % 8 }
  let s := (s.wr PRS_STATUS_SEAL_POLICY (imgSeal img)).wr MNT_SAVE_STAT_EXT_BYTES (imgExtBytes img)
  let links := ([0, 1].filter (imgWired img)).map fun l => (l, { WLink.init with configured := true })
  let s := { s with io := { s.io with links := links } }
  match sect img 4 with
  | some x => s.loadCode (base + x.off + 8) mantleBase ((x.len - 8 + 7) / 8)
  | none => s

/-- The section values of a chosen image are written to the ST fields, PD6 and PD5 are powered (Table 02-10). -/
def Dev.loadSections (s : Dev) (dk : List Byte) (b : Bool) : Dev :=
  let img := s.slotImage b
  let s := ((s.wr SYS_ROLE_ROLE (imgRole img)).loadStore b img).loadSleeves img false
  let s := ((s.loadEngines img).loadPolicy dk img).loadTimers img
  let s := (s.loadWarm img false).wr MNT_DOMAIN_ALLOW_ALLOW (imgAllow img)
  s.domainsOn (if (imgEngines img 0).length < 6 then [6, 5] else [6]) false

/-- A slot is chosen: STR_STATUS names it and, where it is not confirmed, the next free ATTEMPT page is programmed; a full
restructure of a `named` slot does not choose, and spends no attempt (rules R52 and R64). -/
def Dev.slotChosen (s : Dev) (b named : Bool) : Dev :=
  let conf := s.slotConfirmed b
  let s := ((s.put STR_STATUS_SLOT b).put STR_STATUS_EXEC_SLOT b).put STR_STATUS_CONFIRMED conf
  let s := ((s.put STR_STATUS_TRIAL (!conf && !named)).wr STR_STATUS_LOAD_CODE 0).clr STR_STATUS_LOADER_STATE
  let s := (s.clr FLT_STATUS_LOADER).wr STR_SEQ_VALUE (imgSeq (s.slotHeader b))
  if conf ∨ named then s else if s.pageTried b 125 then s.pageProgram b 126 else s.pageProgram b 125

/-- IMAGE_CMAC_DONE, rules R48 to R53: the candidate is checked; the next one follows a refused one, and loader state the
last. -/
def Dev.cmacDone (s : Dev) (f : Fuses) : Dev :=
  match s.boot.select with
  | none => s
  | some c => match c.cands with
    | [] => s
    | b :: rest => match s.imageCheck f b with
      | .ok =>
        let s := (s.cmacParts b).onBoot fun x => { x with select := if c.full then some { c with cands := [] } else none, loading := some b }
        ((s.slotChosen b (c.full && !c.auto)).loadSections f.device b).healthPin
      | e =>
        if rest = [] then (s.cmacParts b).loaderState e.code
        else (s.cmacParts b).onBoot fun x => { x with select := some { c with cands := rest, last := e.code } }

/-! ### Confirmation (rules R50, R54 and R61) -/

/-- The loaded image is confirmed: the CONFIRMED page, and the fuses that its FLAGS name. -/
def Dev.confirm (s : Dev) (f : Fuses) : Dev × Fuses :=
  let b := s.on STR_STATUS_SLOT
  let s := ((s.pageProgram b 127).set STR_STATUS_CONFIRMED).clr STR_STATUS_TRIAL
  let seq := s.rd STR_SEQ_VALUE
  let want := bitOf s.img.flags 0 && decide (f.floor < seq)
  let s := if bitOf s.img.flags 0 ∧ 128 ≤ f.raises then s.record 9 0x19 4 (s.countNow (s.unit 9)) 0 else s
  let f := if want ∧ f.raises < 128 then { f with floor := seq, raises := f.raises + 1 } else f
  let f := if bitOf s.img.flags 1 then (if s.img.key = 0 then { f with revoked1 := true } else { f with revoked0 := true }) else f
  (((s.wr STR_FLOOR_VALUE f.floor).put STR_STATUS_KEY0_REVOKED f.revoked0).put STR_STATUS_KEY1_REVOKED f.revoked1, f)

/-- STR_CONFIRM, rule R54. -/
def Dev.confirmWrite (s : Dev) (f : Fuses) (key : Nat) : Dev × Fuses :=
  if key ≠ 0x434F4E46 ∨ s.on STR_STATUS_CONFIRMED ∨ s.on STR_STATUS_LOADER_STATE ∨ !s.on STR_STATUS_LOCKED then (s, f) else s.confirm f

/-- A pending STR_CMD operation completes (Table 02-16, GPIO_HOST_EVT.STR_DONE). -/
def Dev.strDone (s : Dev) (st : Status) : Dev :=
  (((s.onBoot fun b => { b with op := none }).st STR_CMD_RESULT st).clr STR_CMD_PENDING).hostEvt 3

/-! ### The lock (rule R56) -/

/-- Units retired before the reset stay retired: their lasting action is taken again on the structure just loaded
(rule R475). -/
def Dev.reRetire (s : Dev) : Dev :=
  let ev := s.reg FLT_EVENTS
  let he := s.reg GPIO_HOST_EVT
  let units := [2, 3, 4, 5, 6, 7, 0x0A, 0x0B, 0x16, 0x17, 0x18, 0x19, 0x1C, 0x1D] ++ (List.range 32).map (· + 0x20)
  let s := s.each (units.filter s.retired) fun s c => (s.lastingAct c 0).1
  (s.setReg FLT_EVENTS ev).setReg GPIO_HOST_EVT he

/-- IMAGE_LOAD_LOCK: after a power-on the persistent pockets, which the policy words now name, come back from the journal before
any engine is released (rule R299); LE_CODE is copied, ROUTES written and the structure registers locked in one step; the remaining domains
are powered and the engines and pairs released (rules R46, R56, R100 and R509). A full restructure completes. -/
def Dev.loadLock (s : Dev) (f : Fuses) : Dev × Fuses :=
  match s.boot.loading with
  | none => (s, f)
  | some b =>
    let img := s.slotImage b
    let full := (s.boot.select.map (·.full)).getD false
    let s := (s.journalRestore f.device).scrubAll
    let s := s.each ((List.range 6).filter fun k => s.img.leCode.any fun c => bitOf c.mask k) fun s k => s.leLoad k
    let s := (s.onImg fun i => { i with loaded := true, routes := (List.range 21).map fun k => (sf img 8 (8 * k) 4, sf img 8 (8 * k + 4) 4) }).set
      STR_STATUS_LOCKED
    let s := (s.onBoot fun x => { x with loading := none, select := none }).jumper
    let allow := s.rd MNT_DOMAIN_ALLOW_ALLOW
    let s := (s.wr MNT_DOMAIN_REQ (allow / 2)).domainsOn ([3, 4, 8, 9, 10].filter fun n => bitOf allow n && !(decide (n < 5) && s.retired (n - 3))) false
    let s := ((s.scrubAll.reRetire.pairGo 0).pairGo 1).enginesGo
    let s := { s with flt := { s.flt with started := true } }
    let s := if full then
        s.each (List.range 4096) fun s i => s.put8 9 (partnerAddr i + 0x30) (List.replicate 8 0)
      else s
    if full then
      let r := s.confirm f
      ((r.1.st STR_CMD_RESULT .ok).hostEvt 3 |>.svcEval, r.2)
    else (s.svcEval, f)

/-! ### STR_CMD (rules R60 to R66) -/

/-- An operation is asked for: refused with BUSY while another is pending, a presence wait is open, or the named slot is the
one the pairs execute from. -/
def Dev.strAsk (s : Dev) (ini op : Nat) (slot auto : Bool) (go : Dev → Dev) : Dev :=
  let s := (s.put STR_CMD_SLOT slot).put STR_CMD_AUTO auto
  let named := decide (op ≤ 3) && !(op == 3 && auto)
  if s.on STR_CMD_PENDING || s.boot.op.isSome || s.boot.imgErase.isSome || s.on PRS_STATUS_WAITING ||
      (named && s.on STR_STATUS_LOCKED && s.on STR_STATUS_EXEC_SLOT == slot) then
    s.st STR_CMD_RESULT .busy
  else go ((s.onBoot fun b => { b with op := some { op := op, slot := slot, auto := auto, ini := ini, stage := .verify } }).set
    STR_CMD_PENDING)

/-- The presence window opens; a press in progress does not count for it (rules R65 and R66). -/
def Dev.windowOpen (s : Dev) : Dev :=
  ((s.onBoot fun b => { b with op := b.op.map fun o => { o with stage := .window }, press := b.press.map fun _ => false }).set
    PRS_STATUS_WAITING).wr PRS_GRANT_WINDOW_S 30

/-- Blocks 0 to 7 of a slot are erased; their bytes and check bytes read all ones. -/
def Dev.slotErase (s : Dev) (b : Bool) : Dev :=
  let a := slotArr b
  s.each (List.range 8) fun s k =>
    let base := s.pageAt a k 0
    let mem := s.mem.filter fun c => decide (c.1 < base) || decide (base + 0x10000 ≤ c.1)
    let chk := s.chk.filter fun c => decide (c.1 < base / 4) || decide (base / 4 + 0x4000 ≤ c.1)
    { s with mem := mem, chk := chk }.onBlock a k fun x => { x with ptr := 0, ptrOk := true, erases := min (x.erases + 1) 0xFFFF }

/-- An erase-all or factory reset whose journal blocks are erased completes; a factory reset restarts the device
(rules R60 and R293, Table 02-12). -/
def Dev.wipeSettle (s : Dev) (f : Fuses) : Dev :=
  match s.boot.op with
  | some o =>
    if o.stage = .boundary ∧ s.sec.jErase = [] ∧ o.op = 6 then s.strDone .ok
    else if o.stage = .boundary ∧ s.sec.jErase = [] ∧ o.op = 5 then (s.strDone .ok).deviceReset f 4
    else s
  | none => s

/-- A full restructure starts: everything outside PD0, PD2 and M7 stops, and the boot runs from the CMAC step (rule R63). -/
def Dev.fullStart (s : Dev) (b auto : Bool) : Dev :=
  let ini := s.boot
  let s := s.unitsOff true
  let s := (s.onBoot fun x => { Boot.init with held := false, strap := x.strap, mismatches := x.mismatches, sealCount := x.sealCount,
                                               debug := ini.debug, imgGrant := ini.imgGrant })
  let s := s.domainsOn [1, 2, 7] false
  let s := s.planStart
  s.onBoot fun x => { x with select := some { cands := [b], full := true, auto := auto, last := 0 } }

/-- The action of an authorised operation starts (Table 02-12). With AUTO, which names no slot, the ARMED page is that of the
slot chosen (rule R61 and assumption log 56). -/
def Dev.opStart (s : Dev) (f : Fuses) : Dev :=
  match s.boot.op with
  | none => s
  | some o =>
    let later := s.onBoot fun b => { b with op := some { o with stage := .boundary } }
    match o.op with
    | 1 => (s.pageProgram o.slot 124).strDone .ok
    | 2 => later.pageProgram o.slot 124
    | 3 => (s.pageProgram o.slot 124).fullStart o.slot o.auto
    | 4 => (s.onBoot fun b => { b with debug := true }).strDone .ok
    | 5 => (((later.eraseAllPockets).slotErase false).slotErase true).wipeSettle f
    | _ => later.eraseAllPockets.wipeSettle f

/-- An operation needs presence: it starts where a grant authorises it, and opens the window where none does. -/
def Dev.needPresence (s : Dev) (f : Fuses) : Dev := if s.granted then s.opStart f else s.windowOpen

/-! ### Verification of a named image (rule R60) -/

/-- The contents of a section. -/
def body (img : List Byte) (x : Sect) : List Byte := (img.drop x.off).take x.len

/-- Header fields that stay with any change but an arm: everything but IMAGE_LEN, SEQUENCE, SECTION_COUNT, FLAGS, P_ENTRY,
Q_ENTRY and BUILDER. -/
def headFixed (img : List Byte) : List Byte := img.take 8 ++ (img.drop 0x10).take 1 ++ (img.drop 0x12).take 2 ++ (img.drop 0x24).take 28

/-- Section lists agree in TYPE, VERSION, FLAGS and order, and in content but for the types that `free` names. -/
def listsAgree (free : Nat → Bool) (a b : List Byte) (x y : List Sect) : Bool :=
  x.map (fun s => (s.type, s.version, s.flags)) == y.map (fun s => (s.type, s.version, s.flags)) &&
    (x.zip y).all fun p => free p.1.type || body a p.1 == body b p.2

/-- Does the image differ only in what the code-only row of Table 02-11 lists? -/
def codeOnly (a b : List Byte) : Bool :=
  headFixed a == headFixed b && imgCount a == imgCount b &&
    listsAgree (fun t => t == 3 || t == 4 || t == 0x11) a b (sects a) (sects b)

/-- Is the type warm-changeable (Table 02-3)? -/
def warmType (t : Nat) : Bool := t == 0x0B || t == 0x0C || t == 0x0D || t == 0x0F

/-- Does the image differ only in warm-changeable sections, SEQUENCE, FLAGS and BUILDER? -/
def warmOnly (a b : List Byte) : Bool :=
  headFixed a == headFixed b && imgP a == imgP b && imgQ a == imgQ b &&
    listsAgree (fun _ => false) a b ((sects a).filter fun x => !warmType x.type) ((sects b).filter fun x => !warmType x.type)

/-- STR_VERIFY_DONE, rule R60: the loader code of a refused image, the start of a code-only arm, or presence. From here a warm
restructure is a planned interval while service is below its minimum (rule R484). -/
def Dev.verifyDone (s : Dev) (f : Fuses) : Dev :=
  match s.boot.op with
  | none => s
  | some o =>
    if o.stage ≠ .verify ∨ 3 < o.op then s
    else
      let r := if o.op = 3 ∧ o.auto then s.choose52 f s.candidates .imgNoImage
               else if s.imageCheck f o.slot = .ok then (some o.slot, .ok) else (none, s.imageCheck f o.slot)
      let s := s.each (if o.op = 3 ∧ o.auto then s.tried52 f s.candidates else [o.slot]) Dev.cmacParts
      match r with
      | (none, e) => s.strDone e
      | (some b, _) =>
        let s := s.onBoot fun x => { x with op := some { o with slot := b } }
        let now := s.slotImage (s.on STR_STATUS_SLOT)
        let new := s.slotImage b
        if o.op = 1 ∧ s.img.loaded ∧ codeOnly now new then s.opStart f
        else if o.op = 1 ∧ s.boot.imgGrant.contains b then s.opStart f
        else if o.op = 2 ∧ (!s.img.loaded || !warmOnly now new) then s.strDone .imgNotWarm
        else (if o.op = 2 then s.planStart.svcEval else s).needPresence f

/-- WARM_COMMIT, rules R61 and R62: at a slot boundary the warm-changeable values take effect, history held. -/
def Dev.warmCommit (s : Dev) (f : Fuses) : Dev × Fuses :=
  match s.boot.op with
  | none => (s, f)
  | some o =>
    if o.op ≠ 2 ∨ o.stage ≠ .boundary then (s, f)
    else
      let img := s.slotImage o.slot
      let s := (s.loadWarm img true).onImg fun i => { i with flags := imgFlags img, key := imgKey img, tag := img.drop (imgLen img - 16) }
      let s := (s.put STR_STATUS_SLOT o.slot).wr STR_SEQ_VALUE (imgSeq img)
      let r := s.confirm f
      ((r.1.strDone .ok).svcEval, r.2)

/-! ### Presence, seal (rules R65 to R69 and R425) -/

/-- PRES_BTN_PRESS, rule R66. -/
def Dev.press (s : Dev) : Dev := (s.onBoot fun b => { b with press := some (s.on PRS_STATUS_WAITING) }).set PRS_STATUS_BTN

/-- The window closes. -/
def Dev.windowShut (s : Dev) : Dev := (s.clr PRS_STATUS_WAITING).wr PRS_GRANT_WINDOW_S 0

/-- Does the array of a slot refuse an erase with BUSY: checks 1 and 4 of rule R350, which hold for IMG_ERASE as well (rule R41)? -/
def Dev.imgEraseBusy (s : Dev) (b : Bool) : Bool :=
  let x := if b then 1 else 0
  !(s.rd (FLC_STATE_STATE x) == 0 || s.rd (FLC_STATE_STATE x) == 3) || (s.arr x).susp.isSome

/-- Blocks of the slot that an authorised IMG_ERASE names are erased; the grant covers its programming and arming until the
next reset (rule R458). An array that is at work or has an erase suspended refuses it with BUSY (rules R41 and R350). -/
def Dev.imgEraseGo (s : Dev) (b : Bool) : Dev :=
  if s.imgEraseBusy b then
    (((s.onBoot fun x => { x with imgErase := none }).st (CSP_SLV_LAST_STATUS 0) .busy).wr (CSP_SLV_LAST_WORDS 0) 0).set
      (CSP_EVENTS_SLV_DONE 0)
  else
  let s := (s.slotErase b).onBoot fun x => { x with imgErase := none, imgGrant := b :: x.imgGrant.filter (· != b) }
  ((s.st (CSP_SLV_LAST_STATUS 0) .ok).wr (CSP_SLV_LAST_WORDS 0) 0).set (CSP_EVENTS_SLV_DONE 0)

/-- PRES_BTN_HOLD, rules R65 and R425: presence authorises the pending action, or ends WAKE_FAILED. -/
def Dev.hold (s : Dev) (f : Fuses) : Dev :=
  if s.mnt.stage = .wakeFailed then
    let s := (s.wr MNT_LADDER_REG_FAILS 0).set MNT_LADDER_WAS_WAKE_FAILED
    s.regulatorsOn.healthPin
  else if s.boot.press = some true ∧ s.on PRS_STATUS_WAITING then
    let s := (s.onBoot fun b => { b with press := some false }).windowShut
    match s.boot.imgErase with
    | some b => s.imgEraseGo b
    | none => s.opStart f
  else s

/-- PRESENCE_WINDOW_EXPIRY, rule R65. -/
def Dev.windowExpiry (s : Dev) : Dev :=
  if !s.on PRS_STATUS_WAITING then s
  else
    let s := s.windowShut
    match s.boot.imgErase with
    | some _ => ((s.onBoot fun b => { b with imgErase := none }).st (CSP_SLV_LAST_STATUS 0) .presenceRequired).set (CSP_EVENTS_SLV_DONE 0)
    | none => s.strDone .presenceRequired

/-- A break of the seal (rule R69). -/
def Dev.sealBreak (s : Dev) : Dev :=
  let s := (s.set PRS_STATUS_SEAL_BROKEN).record 0xFF 0x18 4 0 (s.rd PRS_STATUS_SEAL_POLICY)
  if s.rd PRS_STATUS_SEAL_POLICY = 1 then (s.set PRS_STATUS_GRANT_SEAL).wr PRS_GRANT_GRANT_S 600
  else s.eraseAllPockets

/-- SEAL_CHECK, rule R68: the next pattern is driven and compared; the fourth consecutive mismatch is a break. The policy is
the one that PRS_STATUS shows from PD0, through resets and restructures. -/
def Dev.sealCheck (s : Dev) (same : Bool) : Dev :=
  if s.rd PRS_STATUS_SEAL_POLICY ≠ 1 ∧ s.rd PRS_STATUS_SEAL_POLICY ≠ 2 then s
  else
    let n := if same then 0 else min 5 (s.boot.mismatches + 1)
    let s := (s.onBoot fun b => { b with mismatches := n, sealCount := b.sealCount + 1 }).put PRS_STATUS_SEAL_OK same
    if n = 4 then s.sealBreak else s

/-- SEAL_GRANT_EXPIRY, rule R69. -/
def Dev.grantExpiry (s : Dev) : Dev := (s.clr PRS_STATUS_GRANT_SEAL).wr PRS_GRANT_GRANT_S 0

/-! ### Meanings -/

/-- POWER_ON_RESET, rule R397. -/
def execPowerOnReset : State → Host.Outcome State Fault Refusal := onDev (·.powerOn)
/-- RESET_RELEASE, rules R52, R67, R299 and R397. -/
def execResetRelease (strap : Bool) : State → Host.Outcome State Fault Refusal := onFuses fun f s => s.resetRelease f strap
/-- IMAGE_CMAC_DONE, rules R48 to R53. -/
def execImageCmacDone : State → Host.Outcome State Fault Refusal := onFuses fun f s => s.cmacDone f
/-- IMAGE_LOAD_LOCK, rule R56. -/
def execImageLoadLock : State → Host.Outcome State Fault Refusal := onBoth fun f s => s.loadLock f
/-- STR_CONFIRM, rules R50 and R54. -/
def execStrConfirm (ini : Ini) (key : Word) : State → Host.Outcome State Fault Refusal := onBoth fun f s =>
  match s.reach ini STR_CONFIRM with
  | (_, some _) => let r := s.confirmWrite f key.toNat; (r.1.reply ini STR_CONFIRM .ok 0, r.2)
  | (_, none) => (s.cmdAt ini STR_CONFIRM id, f)
/-- STR_ARM, rule R60. -/
def execStrArm (ini : Ini) (slot : Bool) : State → Host.Outcome State Fault Refusal :=
  onDev fun s => s.cmdAt ini STR_CMD fun s => s.strAsk ini 1 slot false id
/-- STR_WARM_RESTRUCTURE, rule R60. -/
def execStrWarmRestructure (ini : Ini) (slot : Bool) : State → Host.Outcome State Fault Refusal :=
  onDev fun s => s.cmdAt ini STR_CMD fun s => s.strAsk ini 2 slot false id
/-- STR_FULL_RESTRUCTURE, rule R60. -/
def execStrFullRestructure (ini : Ini) (slot auto : Bool) : State → Host.Outcome State Fault Refusal :=
  onDev fun s => s.cmdAt ini STR_CMD fun s => s.strAsk ini 3 slot auto id
/-- STR_UNLOCK_DEBUG, rules R65 and R385. -/
def execStrUnlockDebug (ini : Ini) : State → Host.Outcome State Fault Refusal :=
  onFuses fun f s => s.cmdAt ini STR_CMD fun s => s.strAsk ini 4 (s.on STR_CMD_SLOT) (s.on STR_CMD_AUTO) (·.needPresence f)
/-- STR_FACTORY_RESET, rules R65 and R293. -/
def execStrFactoryReset (ini : Ini) : State → Host.Outcome State Fault Refusal :=
  onFuses fun f s => s.cmdAt ini STR_CMD fun s => s.strAsk ini 5 (s.on STR_CMD_SLOT) (s.on STR_CMD_AUTO) (·.needPresence f)
/-- STR_ERASE_ALL_POCKETS, rules R65 and R293. -/
def execStrEraseAllPockets (ini : Ini) : State → Host.Outcome State Fault Refusal :=
  onFuses fun f s => s.cmdAt ini STR_CMD fun s => s.strAsk ini 6 (s.on STR_CMD_SLOT) (s.on STR_CMD_AUTO) (·.needPresence f)
/-- STR_VERIFY_DONE, rule R60. -/
def execStrVerifyDone : State → Host.Outcome State Fault Refusal := onFuses fun f s => s.verifyDone f
/-- PRES_BTN_PRESS, rule R66. -/
def execPresBtnPress : State → Host.Outcome State Fault Refusal := onDev (·.press)
/-- PRES_BTN_HOLD, rules R65 and R425. -/
def execPresBtnHold : State → Host.Outcome State Fault Refusal := onFuses fun f s => s.hold f
/-- PRESENCE_WINDOW_EXPIRY, rule R65. -/
def execPresenceWindowExpiry : State → Host.Outcome State Fault Refusal := onDev (·.windowExpiry)
/-- WARM_COMMIT, rule R62. -/
def execWarmCommit : State → Host.Outcome State Fault Refusal := onBoth fun f s => s.warmCommit f
/-- SEAL_CHECK, rules R68 and R69. -/
def execSealCheck (same : Bool) : State → Host.Outcome State Fault Refusal := onDev (·.sealCheck same)
/-- SEAL_GRANT_EXPIRY, rule R69. -/
def execSealGrantExpiry : State → Host.Outcome State Fault Refusal := onDev (·.grantExpiry)
/-- SUPPLY_RISE, rule R397. -/
def execSupplyRise : State → Host.Outcome State Fault Refusal := onDev (·.supplyRise)

end Sys2Proof.Machine
end

