-- ==== Sys2Proof/Machine/Power.lean ====
section
/-!
DEFINITION. The mantle: domains in RUN, entry to the sleep states, wake and its failures, seam hold, the slow clock and the
supply (rules R396 to R428, and R186 for the slow-clock source).
-/

namespace Sys2Proof.Machine

def Dev.onMnt (s : Dev) (f : Mantle → Mantle) : Dev := { s with mnt := f s.mnt }

/-- Is the device in RUN? -/
def Dev.inRun (s : Dev) : Bool := s.rd MNT_STATE_STATE == 0

/-! ### Domains in RUN (rule R401) -/

/-- Has domain `n` work in hand? -/
def Dev.domainBusy (s : Dev) (n : Nat) : Bool :=
  match n with
  | 7 => [0, 1].any fun a => (s.arr a).job.isSome || (s.arr a).susp.isSome
  | 2 => s.sec.queue != [] || s.sec.cmd.isSome
  | 8 => (s.path 0).cmds != []
  | 9 => (s.path 1).cmds != []
  | _ => false

/-- Does a request keep rule R35? Bit `n` of `w` asks for PDn. -/
def keepsR35 (w : Nat) : Bool :=
  (bitOf w 1 || w / 4 == 0) && (bitOf w 5 || !(bitOf w 8 || bitOf w 9)) && (bitOf w 6 || !(bitOf w 5 || bitOf w 10))

/-- A write to MNT_DOMAIN. -/
def Dev.domainRequest (s : Dev) (v : Nat) : Dev :=
  let w := v % 2048 / 2 * 2 + 1
  let on := (List.range 11).filter fun n => decide (1 ≤ n) && bitOf w n
  let off := (List.range 11).filter fun n => decide (2 ≤ n) && !bitOf w n && s.disp n != 0
  let refuse (st : Status) : Dev := (s.st MNT_DOMAIN_STAT_RESULT st).set MNT_EVENTS_DOMAIN_REFUSED
  if on.any fun n => !bitOf (s.rd MNT_DOMAIN_ALLOW_ALLOW) n then refuse .structureLocked
  else if s.on MNT_STATE_LIMP && on.any (decide <| 8 ≤ ·) then refuse .notReady
  else if !keepsR35 w then refuse .notReady
  else if off.any s.domainBusy then refuse .busy
  else
    let s := (s.wr MNT_DOMAIN_REQ (w / 2)).st MNT_DOMAIN_STAT_RESULT .ok
    ((s.domainsOff off).domainsOn (on.filter fun n => !(n == 3 && s.retired 0) && !(n == 4 && s.retired 1)) false).svcEval

/-! ### The fixed save list (rule R408) -/

/-- Every register address of a row. -/
def RegRow.addrs (r : RegRow) : List Nat :=
  (List.range r.n1).flatMap fun i => (List.range r.n2).map fun j => r.base + i * r.s1 + j * r.s2

/-- Registers with RW fields in an address range. -/
def rwRegs (lo hi : Nat) : List Nat :=
  ((regRows.filter fun r => r.rw != 0).flatMap RegRow.addrs).filter fun a => decide (lo ≤ a) && decide (a < hi)

/-- The registers of Table 11-6: what chapters 03 to 10 name for the fixed save list. -/
def Dev.saveRegs (s : Dev) : List Nat :=
  let en := (List.range 32).filter fun n => s.on (SLV_CTRL_ENABLE n)
  rwRegs 0x40100000 0x40100400 ++
  (List.range (s.rd SE_HOP_CFG_SG_LEN)).map SE_HOP_SG ++ (List.range (s.rd SE_HOP_CFG_IS_LEN)).map SE_HOP_IS ++
  (List.range 6).map LE_TICK ++ [LE_ROT] ++
  rwRegs 0x40140000 0x40180000 ++
  [PCK_CFG, CE_RES, CE_ROT] ++ (List.range 10).map CE_QUOTA ++
  [FLC_CFG, WV_PATROL_CFG, WV_PATROL_MASK, WV_LINE_CFG, WV_PATROL_POS] ++
  [0, 1].flatMap (fun p => [TXP_CCA p, TXP_SYNC0 p, TXP_SYNC1 p, TXP_SYNC_LEN p] ++
    ((List.range 6).filter fun k => s.on (TXP_CQ_SIZE_ENTRIES p k)).flatMap fun k => [TXP_CQ_BASE p k, TXP_CQ_SIZE p k]) ++
  [TREF_CTRL, TREF_RATE_ADJ, TREF_SLEW, TREF_PPS_OUT_PERIOD, TREF_PPS_OUT_PHASE, TREF_PPS_OUT_WIDTH] ++
  (List.range 8).flatMap (fun k => [GT_CTRL k, GT_PSC k, GT_RELOAD_LO k, GT_RELOAD_HI k] ++ (List.range 4).map (GT_CFG k)) ++
  en.flatMap (fun n => [SLV_CTRL n, SLV_CHAN n, SLV_FSK n, SLV_OFDM n, SLV_SYNC0 n, SLV_SYNC1 n, SLV_SYNC_CFG n, SLV_ACQ n, SLV_MAX_PSDU n]) ++
  ((List.range 6).filter fun k => s.on (SLV_RQ_SIZE_ENTRIES k)).flatMap fun k => [SLV_RQ_BASE k, SLV_RQ_SIZE k]

/-- Ledger accounts in use. -/
def Dev.usedAccounts (s : Dev) : List (Nat × Nat) :=
  (s.se.led.use.filterMap fun e => (s.se.led.ruleOf e.1).map fun x => (e.1, s.ledgerUse x e.1)).filter fun e => e.2 != 0

/-- The size of the fixed save list for the present configuration. -/
def Dev.fixedBytes (s : Dev) : Nat :=
  let rings := ((List.range 6).filter fun k => s.on (SLV_RQ_SIZE_ENTRIES k)).length +
    ((List.range 12).filter fun i => s.on (TXP_CQ_SIZE_ENTRIES (i / 6) (i % 6))).length +
    ((List.range 9).filter fun j => s.on (ML_RING_SIZE_ENTRIES j)).length
  1024 + 384 * ([0, 1].filter s.calValid).length +
    40 * ((List.range 32).filter fun n => s.on (SLV_CTRL_ENABLE n)).length + 8 * rings +
    4 * (s.rd SE_HOP_CFG_SG_LEN + s.rd SE_HOP_CFG_IS_LEN) + 4 * s.usedAccounts.length

/-- Bytes of the SAVE_EXT extension. -/
def Dev.extBytes (s : Dev) : Nat := (s.img.saveExt.map fun x => 8 * x.2).sum

/-- A save-list range in a memory: its target, where it can be reached. -/
def Dev.extTarget (s : Dev) (a : Nat) : Option Target :=
  match s.target 8 a with
  | some t => if s.alive t a then some t else none
  | none => none

/-- The unit copies of the extension: save-memory address and bus address of each. -/
def Dev.extUnits (s : Dev) : List (Nat × Nat) :=
  (s.img.saveExt.flatMap fun x => (List.range x.2).map fun i => x.1 + 8 * i).zipIdx.map fun p => (saveBase + s.mnt.savedLen + 8 * p.2, p.1)

/-- The save copy: the fixed list is taken, its placement in save memory left open beyond Table 11-6, and the extension copied
unit by unit with its check bytes; a range whose memory is off is scrubbed (rules R408 and R409). -/
def Dev.saveCopy (s : Dev) : Dev :=
  let n := (s.fixedBytes + 7) / 8
  let s := s.onMnt fun m => { m with
    saved := s.saveRegs.map fun a => (a, (s.reg a).toNat)
    savedUse := s.usedAccounts
    savedAt := s.now
    savedLen := 8 * n
    savedVal := (List.range 32).map fun i => (i, (s.chan i).val)
    runDisp := s.rd MNT_DOMAIN_STAT_DISP }
  let s := s.each (List.range n) fun s i =>
    let d := BitVec.ofNat 64 (ofLe (s.freeBytes 8))
    (s.setUnitAt (saveBase + 8 * i) (woven d)).drewN 8
  s.each s.extUnits fun s u => match s.extTarget u.2 with
    | some t => s.setUnitAt u.1 (s.fetchUnit t u.2).passed
    | none => s.setUnitAt u.1 (woven 0)

/-! ### Wake sources (Table 11-7 and rule R416) -/

/-- Is a 48-bit wake time at or before now? -/
def Dev.due (s : Dev) (t : Nat) : Bool := tsLe t s.now

/-- Has the wake time passed? -/
def Dev.timerDue (s : Dev) : Bool :=
  let work := s.rd SE_NEXT_WORK_LO_TIME + s.rd SE_NEXT_WORK_HI_TIME * 2 ^ 32
  s.mnt.workWake.any s.due || (s.on SE_CTRL_RUN && s.due (tsAdd work (-(us (s.rd SE_LEAD0_WAKE_LEAD_US) : Nat)))) ||
    (s.on MNT_WAKE_TIME_HI_EN && s.due (s.rd MNT_WAKE_TIME_LO_TIME + s.rd MNT_WAKE_TIME_HI_TIME * 2 ^ 32))

/-- Is source `i` enabled? -/
def Dev.wakeOn (s : Dev) (i : Nat) : Bool := s.bit MNT_WAKE_EN_EN i

/-- Level sources whose level the block holds itself: the wake time, a broken seal and WARN. -/
def Dev.levels (s : Dev) : List Nat :=
  ([(0, s.timerDue), (10, decide (4 ≤ s.boot.mismatches) && (s.rd PRS_STATUS_SEAL_POLICY == 1 || s.rd PRS_STATUS_SEAL_POLICY == 2)),
    (11, s.on MNT_SUPPLY_STAT_WARN)].filter fun x => x.2 && s.wakeOn x.1).map (·.1)

/-- Is a source a level source, GPIO lines by their type? -/
def Dev.isLevel (s : Dev) (i : Nat) : Bool :=
  if 1 ≤ i ∧ i ≤ 8 then decide (2 ≤ s.rd ⟨MNT_GPIO_WAKE, 4 * (i - 1), 2⟩) else i == 0 || (decide (9 ≤ i) && decide (i ≤ 11))

/-- Is the bank held that a select or break source needs? -/
def Dev.sourceHeld (s : Dev) (i : Nat) : Bool :=
  if i = 14 ∨ i = 15 then s.bit MNT_SEAM_HELD 1 else if i = 16 then s.bit MNT_SEAM_HELD 4 else true

/-! ### DOZE (rule R402) -/

/-- The clocks of both pairs stop, their watchdogs pause. -/
def Dev.doze (s : Dev) : Dev :=
  let s := s.each [0, 1] fun s x =>
    let s := if s.up (3 + x) then s.setDisp (3 + x) 3 else s
    let s := if (s.pair x).run = .running then s.setPair x { s.pair x with run := .stopped } else s
    let w := s.wdt x
    if s.on (SYS_WDT_CFG_ENABLE x) ∧ w.paused = none then
      s.setWdt x { w with paused := some (if tsLe w.due s.now then 0 else (tsDiff w.due s.now).toNat) }
    else s
  (((s.onMnt fun m => { m with stage := .doze, target := 1 }).clr MNT_STATE_ENTRY_PENDING).wr MNT_STATE_STATE 1).wr MNT_STATE_DEFER 0

/-- DOZE ends: both pairs resume. -/
def Dev.undoze (s : Dev) : Dev :=
  let s := s.each [0, 1] fun s x =>
    let s := if s.disp (3 + x) = 3 then s.setDisp (3 + x) 1 else s
    let s := if (s.pair x).run = .stopped then s.setPair x { s.pair x with run := .running } else s
    match (s.wdt x).paused with
    | some c => if s.hartHalted (s.carrier x) then s else s.setWdt x { s.wdt x with due := tsAdd s.now c, paused := none }
    | none => s
  (s.onMnt fun m => { m with stage := .run, target := 0 }).wr MNT_STATE_STATE 0

/-- DOZE_EXIT. -/
def Dev.dozeExit (s : Dev) : Dev :=
  if s.mnt.stage = .doze ∧ (s.irqBest 0 ≠ 0 ∨ s.irqBest 1 ≠ 0 ∨ s.levels ≠ []) then s.undoze else s

/-! ### Entry (rules R403 to R407) -/

/-- The deferral conditions of rule R404, the bits of DEFER. -/
def Dev.deferBits (s : Dev) : Nat :=
  if s.mnt.target = 1 then (if s.hartHalted 8 then 8 else 0)
  else (if s.sec.queue ≠ [] ∨ s.sec.cmd.isSome then 1 else 0) +
    (if [0, 1].any fun a => (s.arr a).job.isSome || (s.arr a).susp.isSome then 2 else 0) +
    (if [0, 1].any fun p => (s.path p).cmds != [] then 4 else 0) + (if s.hartHalted 8 then 8 else 0)

/-- Is the accepted entry deferred? -/
def Dev.deferred (s : Dev) : Bool := s.deferBits != 0 || (s.mnt.target != 1 && s.mnt.pending != [])

/-- An entry ends before its commit (rule R405). -/
def Dev.entryAbort (s : Dev) : Dev :=
  let s := (s.st MNT_STATE_LAST_RESULT .entryAborted).set MNT_EVENTS_ENTRY_ABORTED
  ((s.clr MNT_STATE_ENTRY_PENDING).wr MNT_STATE_DEFER 0).onMnt fun m =>
    { m with stage := .run, target := 0, saved := [], savedUse := [], savedVal := [] }

/-- The entry is refused. -/
def Dev.entryRefuse (s : Dev) (st : Status) : Dev := (s.st MNT_STATE_LAST_RESULT st).set MNT_EVENTS_ENTRY_REFUSED

/-- Is the sniff assignment fit: enabled, its band with a valid calibration? -/
def Dev.sniffFit (s : Dev) : Bool :=
  let n := s.rd MNT_SNIFF_ASSIGN
  s.on (SLV_CTRL_ENABLE n) && s.rd (SLV_ASSIGN_BAND n) != 0 && s.calValid (s.slvBand n)

/-- A write to MNT_ENTER. Only the role-P pair and the debugger write it. -/
def Dev.enter (s : Dev) (ini t : Nat) : Dev :=
  if ini ≠ 0 ∧ ini ≠ 0x14 then s
  else if t = 0 then (if s.on MNT_STATE_ENTRY_PENDING then s.entryAbort else s)
  else if 5 ≤ t then s.entryRefuse .badTarget
  else if s.on MNT_STATE_ENTRY_PENDING ∨ s.on STR_CMD_PENDING then s.entryRefuse .busy
  else if t = 3 ∧ !s.sniffFit then s.entryRefuse .notReady
  else if t ≠ 1 ∧ 4096 < s.fixedBytes + s.extBytes then s.entryRefuse .saveOverflow
  else
    let s := ((s.st MNT_STATE_LAST_RESULT .ok).set MNT_STATE_ENTRY_PENDING).onMnt fun m => { m with stage := .deferred, target := t }
    let s := s.wr MNT_STATE_DEFER s.deferBits
    if t = 1 ∧ !s.deferred then s.doze else if s.levels ≠ [] then s.entryAbort else s

/-- SLEEP_ENTRY_START: the deferral has ended; the anchor is folded and the save list copied (Table 11-5). -/
def Dev.entryStart (s : Dev) : Dev :=
  if s.mnt.stage ≠ .deferred then s
  else if s.deferred then s.wr MNT_STATE_DEFER s.deferBits
  else if s.mnt.target = 1 then s.doze
  else if s.levels ≠ [] then s.entryAbort
  else
    let s := s.wr MNT_STATE_DEFER 0
    let s := if s.seRuns ∧ s.se.started then s.fold s.se.asn s.se.bound else s
    s.saveCopy.onMnt fun m => { m with stage := .copying }

/-- The pads held at a commit: bank 0 always, another bank while BANK_HOLD names it (rules R413 and R414). -/
def Dev.seamHold (s : Dev) : Dev := s.wr MNT_SEAM_HELD (s.rd MNT_SLEEP_CFG_BANK_HOLD * 2 + 1)

/-- The dispositions of a sleep state (Table 11-3). -/
def Dev.sleepDown (s : Dev) (t : Nat) : Dev :=
  let keep := if t = 4 then [] else (List.range 8).filter fun n => (s.img.segRetain[n]?).getD false && (s.img.segUse[n]?).getD 5 != 5
  let s := (((s.domainsOff [10, 9, 8]).frameOff keep).domainsOff [5]).onMnt fun m => { m with retained := keep }
  let s := if s.disp 3 = 0 then s else s.pairOff 0 (t != 4 && s.on MNT_SLEEP_CFG_P_TCM_RET)
  let s := if s.disp 4 = 0 then s else s.pairOff 1 (t != 4 && s.on MNT_SLEEP_CFG_Q_TCM_RET)
  let s := s.domainsOff [7, 2]
  if t = 4 then s.coreOff else s.setDisp 1 2

/-- SLEEP_COMMIT, rules R406 and R468: the entry can no longer be aborted; the SNIFF interval counts from it. -/
def Dev.commit (s : Dev) : Dev :=
  if s.mnt.stage ≠ .copying then s
  else
    let t := s.mnt.target
    let work := tsAdd (s.rd SE_NEXT_WORK_LO_TIME + s.rd SE_NEXT_WORK_HI_TIME * 2 ^ 32) (-(us (s.rd SE_LEAD0_WAKE_LEAD_US) : Nat))
    let s := s.onMnt fun m => { m with workWake := if s.seRuns ∧ (t = 2 ∨ t = 3) then some work else none }
    let s := s.serialStop.seamHold.sleepDown t
    let s := (((s.tbClock true).clr MNT_STATE_ENTRY_PENDING).wr MNT_STATE_STATE t).onMnt fun m => { m with stage := .committed }
    (s.mark .stage).mark .sniff

/-- WAKE_ARM, rule R407: at the second slow-clock edge after the commit, 61.0 us, the detectors are armed; a level that is active
starts a wake at once. -/
def Dev.wakeArm (s : Dev) (levels : Nat) : Dev :=
  if s.mnt.stage ≠ .committed ∨ !s.waited .stage (us 61) then s
  else
    let s := s.onMnt fun m => { m with stage := .asleep }
    let l := (List.range 18).filter fun i => s.levels.contains i || (bitOf levels i && s.isLevel i && s.wakeOn i)
    s.each l fun s i => s.wakeHit i

/-- WAKE_SOURCE, rules R405, R407, R418 and R423: an enabled source becomes active. The wake time, a broken seal and WARN are levels
the block holds itself, and a sniff match is SYNC_MATCH's. -/
def Dev.wakeSource (s : Dev) (i : Nat) : Dev :=
  if !s.wakeOn i ∨ !s.sourceHeld i ∧ s.mnt.stage = .asleep ∨ i = 17 ∨ [0, 10, 11].contains i ∧ !s.levels.contains i then s
  else match s.mnt.stage with
    | .deferred => s.entryAbort
    | .copying => s.entryAbort
    | .doze => s.undoze
    | .committed => if s.isLevel i then s else (s.putBit MNT_WAKE_LOST_LOST i true).set MNT_EVENTS_EDGE_IN_WINDOW
    | _ => s.wakeHit i

/-! ### Wake (rules R419 to R426) -/

/-- Limp state (rule R426). At a boot the sequence goes on; during a wake the release follows. -/
def Dev.limp (s : Dev) : Dev :=
  let s := (s.set MNT_STATE_LIMP).set MNT_EVENTS_LIMP
  let s := s.each [0, 1] fun s b => if s.up (8 + b) then (s.setBand b { s.band b with limpOff := true }).bandState b 10 |>.restBand b else s
  let s := s.onMnt fun m => { m with stage := if s.inRun then .run else .waking }
  s.charge 8 .limp 0

/-- REGULATOR_READY: the oscillator is started. -/
def Dev.regReady (s : Dev) : Dev :=
  if s.mnt.stage = .regulators ∧ s.waited .stage 0 then
    ((s.wr MNT_LADDER_XTAL_ATTEMPTS 1).onMnt fun m => { m with stage := .oscillator, tries := 1 }).mark .stage
  else s

/-- REGULATOR_TIMEOUT: 500 us have passed; three retries, each 100 us later, then a regulator failure and HIBERNATE
(Table 11-10). -/
def Dev.regTimeout (s : Dev) : Dev :=
  if s.mnt.stage ≠ .regulators ∨ !s.waited .stage (us 500) then s
  else if s.mnt.tries < 3 then
    ((s.set MNT_EVENTS_WAKE_RETRIED).onMnt fun m => { m with tries := m.tries + 1 }).markAt .stage (tsAdd s.now (us 100 : Nat))
  else
    let s := if s.rd MNT_STATE_STATE = 4 then s else if s.inRun then s else s.sleepDown 4
    let s := ((s.bump MNT_LADDER_REG_FAILS).wr MNT_STATE_STATE 4).charge 8 .regFail 0
    if 8 ≤ s.rd MNT_LADDER_REG_FAILS then
      let s := s.onMnt fun m => { m with stage := .wakeFailed, tries := 0 }
      (s.record 8 0x17 4 (s.countNow (s.unit 8)) 0).healthPin
    else (s.wr MNT_LADDER_BACKOFF_S (min 64 (2 ^ (s.rd MNT_LADDER_REG_FAILS - 1)))).onMnt (fun m => { m with stage := .backoff, tries := 0 })
      |>.mark .stage

/-- OSC_READY: the PLLs are started. -/
def Dev.oscReady (s : Dev) : Dev :=
  if s.mnt.stage = .oscillator then (s.onMnt fun m => { m with stage := .plls }).mark .stage else s

/-- The oscillator start is tried again at a higher drive, or the fourth attempt has failed and limp state follows. -/
def Dev.oscRetry (s : Dev) : Dev :=
  if s.on MNT_STATE_LIMP then s.onMnt fun m => { m with stage := .run }
  else if s.mnt.tries < 4 then
    let s := (s.set MNT_EVENTS_WAKE_RETRIED).wr MNT_LADDER_XTAL_ATTEMPTS (s.mnt.tries + 1)
    (s.onMnt fun m => { m with stage := .oscillator, tries := m.tries + 1, drive := min 3 (m.drive + 1) }).mark .stage
  else s.limp

/-- OSC_TIMEOUT, rules R110 and R424: 4 ms have passed. -/
def Dev.oscTimeout (s : Dev) : Dev := if s.mnt.stage = .oscillator ∧ s.waited .stage (us 4000) then s.oscRetry else s

/-- PLL_TIMEOUT, rule R424: 200 us have passed since the oscillator was ready. -/
def Dev.pllTimeout (s : Dev) : Dev := if s.mnt.stage = .plls ∧ s.waited .stage (us 200) then s.oscRetry else s

/-- PLL_LOCKED, rules R419 and R426: the timebase passes to the reference; a boot or a limp retry is over, a wake goes on. -/
def Dev.pllLocked (s : Dev) : Dev :=
  if s.mnt.stage ≠ .plls then s
  else
    let s := s.tbClock false
    let s := if s.inRun then (s.wr MNT_LADDER_XTAL_DRIVE s.mnt.drive).clr MNT_STATE_LIMP else s
    s.onMnt fun m => { m with stage := if s.inRun then .run else .waking }

/-- LADDER_RETRY, Table 11-10: the back-off has passed. -/
def Dev.ladderRetry (s : Dev) : Dev :=
  if s.mnt.stage = .backoff ∧ s.waited .stage (us (1000000 * s.rd MNT_LADDER_BACKOFF_S)) then s.regulatorsOn else s

/-- A write of MNT_LADDER.RETRY_XTAL in limp state: one attempt at drive step 3; `ready` says whether it succeeds. -/
def Dev.retryXtal (s : Dev) (ready : Bool) : Dev :=
  if !s.on MNT_STATE_LIMP then s
  else if ready then (s.onMnt fun m => { m with stage := .plls, drive := 3, tries := 4 }).mark .stage
  else s

/-- Is a unit of the header, base or variable part UNCORRECTABLE (rule R410)? -/
def Dev.saveBroken (s : Dev) (n : Nat) : Bool := (List.range (n / 8)).any fun i => (s.unitAt (saveBase + 8 * i)).outcome == 3

/-- The saved words go back to the RW fields of their registers; the ledger to one bucket of each account, stamped at the moment of
entry (rule R238). -/
def Dev.restoreRegs (s : Dev) : Dev :=
  let s := s.each s.mnt.saved fun s e =>
    let m := BitVec.ofNat 32 (((regFind e.1).map fun r => rwMask r e.1).getD 0)
    s.setReg e.1 ((s.reg e.1 &&& ~~~m) ||| (BitVec.ofNat 32 e.2 &&& m))
  s.each s.mnt.savedUse fun s e => match s.se.led.ruleOf e.1 with
    | some x => { s with se := { s.se with led := { s.se.led with
        use := mapPut (fun _ => []) s.se.led.use e.1 [(s.mnt.savedAt / x.bucket * x.bucket, e.2)] } } }
    | none => s

/-- The message layer goes on after a power state: its rings restart empty, and the pool shows what is held (rule R279). -/
def Dev.mlResume (s : Dev) : Dev :=
  let s := s.each (List.range 9) fun s j => (s.wr (ML_RING_WR_WR j) 0).wr (ML_RING_RD_RD j) 0
  let held := s.pool.filter fun e => e.2.holder != .free
  let s := s.wr ML_POOL_STATUS_FREE (min 2048 (s.rd ML_POOL_CFG_COUNT) - held.length)
  let s := s.wr ML_POOL_STATUS_CONTROL_HELD (held.filter fun e => e.2.control).length
  (s.each (List.range 6) fun s k => s.wr (ML_POOL_QUOTA_HELD k) (held.filter fun e => e.2.le == k).length).onMl id

/-- The slot engine goes on with the anchor and source it was saved with. -/
def Dev.seResume (s : Dev) : Dev :=
  if !s.on SE_CTRL_RUN then s
  else
    let src := if s.on SE_SOURCE_NONE ∨ !s.sourceOk (s.rd SE_SOURCE_PARTNER) then none else some (s.rd SE_SOURCE_PARTNER)
    ((s.onSe fun x => { x with source := src }).clr SE_CTRL_RUN).seCtrl 1

/-- The save list is lost: the device is reset and boots (rules R410 and R421). -/
def Dev.saveLost (s : Dev) (f : Fuses) : Dev :=
  (((s.set MNT_EVENTS_SAVE_LOST).charge 8 .saveLost 0).tbClock false).deviceReset f 3

/-- Do the saved SEQUENCE and tag agree with the slot in flash (rule R421)? -/
def Dev.slotSame (s : Dev) : Bool :=
  let b := s.on STR_STATUS_SLOT
  let h := s.slotHeader b
  headerOk h && imgSeq h == s.rd STR_SEQ_VALUE && (s.slotUnits b (imgLen h - 16) 2) == s.img.tag

/-- WAKE_RELEASE, rules R410, R415, R419 and R421. -/
def Dev.wakeRelease (s : Dev) (f : Fuses) : Dev :=
  if s.mnt.stage ≠ .waking then s
  else
    let from_ := s.rd MNT_STATE_STATE
    let fails := s.rd MNT_LADDER_REG_FAILS
    let s := if s.on MNT_STATE_LIMP then s else s.tbClock false
    let s := if s.on MNT_STATE_LIMP then s else s.wr MNT_LADDER_XTAL_DRIVE s.mnt.drive
    let s := (s.wr MNT_LADDER_REG_FAILS 0).put MNT_EVENTS_LADDER_BACKOFF
      (fails != 0 || s.on MNT_EVENTS_LADDER_BACKOFF)
    let s := (s.wr MNT_STATE_STATE 0).onMnt fun m => { m with stage := .run, target := 0 }
    if !s.img.loaded then s.bootStart f
    else if s.saveBroken s.mnt.savedLen then s.saveLost f
    else
      let s := s.setDisp 1 1
      let on := (List.range 11).filter fun n => bits s.mnt.runDisp (2 * n) 2 == 1 && !(n == 10 && s.on MNT_STATE_LIMP)
      let s := s.domainsOn (on.filter fun n => decide (n < 8) || n == 10) true
      if from_ = 4 ∧ !s.slotSame then s.saveLost f
      else
        let s := if from_ = 4 then (s.loadSleeves (s.slotImage (s.on STR_STATUS_SLOT)) true).aerialsKept else s
        let s := s.restoreRegs
        let s := if s.up 5 then s.mlResume else s
        let s := if from_ = 4 then
            (s.each s.mnt.savedVal fun s e => s.setChan e.1 { Chan.init with val := e.2 }).gtRestart
          else s
        let s := { s with weave := { s.weave with retain := s.mnt.retained.map fun n => (n, 0) } }
        let s := s.scrubAll
        let s := s.each s.extUnits fun s u => match s.extTarget u.2 with
          | some t => s.setUnitAt (s.place t u.2) (s.unitAt u.1)
          | none => s
        let s := ((s.enginesGo.seResume.pairGo 0).pairGo 1).wr MNT_SEAM_HELD (if from_ = 4 then 0xFF else 0)
        let s := s.domainsOn (on.filter fun n => n == 8 || n == 9) true
        let s := (s.wr MNT_STATE_LAST_WAKE_FROM from_).set MNT_EVENTS_WAKE
        (s.onMnt fun m => { m with saved := [], savedUse := [], savedVal := [], retained := [], workWake := none }).svcEval

/-! ### SNIFF windows (rule R422) -/

/-- Counts between two windows. -/
def Dev.sniffEvery (s : Dev) : Nat := us (1000 * max 50 (s.rd MNT_SNIFF_INTERVAL_MS))

/-- The windows lie on a grid of INTERVAL_MS from the commit: the point of the window that opens now. -/
def Dev.sniffPoint (s : Dev) : Nat :=
  match s.since .sniff with
  | some t => tsAdd t (((tsDiff s.now t).toNat / s.sniffEvery * s.sniffEvery : Nat) : Int)
  | none => s.now

/-- SNIFF_WINDOW_OPEN: the window's domains are powered and the assignment searches once its band listens. -/
def Dev.sniffOpen (s : Dev) : Dev :=
  if s.mnt.stage ≠ .asleep ∨ s.rd MNT_STATE_STATE ≠ 3 ∨ !s.waited .sniff s.sniffEvery then s
  else
    let n := s.rd MNT_SNIFF_ASSIGN
    let s := (s.markAt .sniff s.sniffPoint).unmark .listen
    let s := (((s.tbClock false).setDisp 1 1).setDisp 5 1).setDisp 6 1
    let s := (s.setSleeve n { s.sleeve n with released := true }).onMnt fun m => { m with stage := .window, sniffSync := false }
    s.domainOn (8 + s.slvBand n) true

/-- Has the band of the window listened for LISTEN_10US x 10 us, or does it stand DISABLED and never listens? -/
def Dev.listened (s : Dev) : Bool :=
  ((s.since .listen).isSome && s.waited .listen (us (10 * max 1 (s.rd MNT_SNIFF_LISTEN_10US)))) ||
    s.rd (RF_STATE_STATE (s.slvBand (s.rd MNT_SNIFF_ASSIGN))) == 10

/-- SNIFF_WINDOW_CLOSE: the listen time has passed without a sync; the domains go back. A detected preamble holds the window open
(rule R423). -/
def Dev.sniffClose (s : Dev) : Dev :=
  if s.mnt.stage ≠ .window ∨ s.mnt.sniffSync ∨ !s.listened then s
  else
    let n := s.rd MNT_SNIFF_ASSIGN
    let s := (s.setSleeve n { s.sleeve n with released := false }).radioOff (s.slvBand n)
    let s := (s.setDisp 5 0).setDisp 1 2
    let s := s.setDisp 6 (if s.mnt.retained = [] then 0 else 2)
    (s.tbClock true).onMnt fun m => { m with stage := .asleep }

/-! ### Seam, slow clock, supply -/

/-- A write of MNT_SEAM.RELEASE (rule R415). -/
def Dev.seamRelease (s : Dev) (mask : Nat) : Dev :=
  s.wr MNT_SEAM_HELD ((List.range 8).foldl (fun x b => x + if s.bit MNT_SEAM_HELD b && !bitOf mask b then 2 ^ b else 0) 0)

/-- The slow clock moves to the crystal or to the RC at a slow-clock edge; the next measurement replaces the increment
(rules R186 and R187). -/
def Dev.slowTo (s : Dev) (rc : Bool) : Dev := (s.put TREF_STATUS_SLOW_ON_RC rc).onTb fun t => { t with fresh := true }

/-- SLOW_XTAL_READY, rule R397. -/
def Dev.xtalReady (s : Dev) : Dev :=
  if s.mnt.xtalStart then (s.slowTo false).onMnt fun m => { m with slowXtal := true, xtalStart := false } else s

/-- SLOW_XTAL_TIMEOUT, rule R398: 2 s after its start the crystal is not ready; the next start comes 60 s after the last
(assumption log 58). -/
def Dev.xtalTimeout (s : Dev) : Dev :=
  if s.mnt.xtalStart ∧ s.waited .xtal (us 2000000) then
    (((s.markAt .xtal (tsAdd s.now (us 58000000 : Nat))).set MNT_EVENTS_SLOW_ON_RC).set TREF_STATUS_SLOW_ON_RC).charge 8 .slowOnRc 0
  else s

/-- SLOW_SOURCE_HANDOVER, rule R186: in either direction; off the crystal, it is started again. -/
def Dev.slowHandover (s : Dev) : Dev :=
  if s.on TREF_STATUS_SLOW_ON_RC then (if s.mnt.slowXtal then s.slowTo false else s)
  else ((s.slowTo true).onMnt fun m => { m with slowXtal := false, xtalStart := true }).mark .xtal

/-- SUPPLY_WARN, rules R108, R356 and R428; in a sleep state the dip is the source SUPPLY. -/
def Dev.supplyWarn (s : Dev) (verified : Nat) : Dev :=
  let s := (s.clr MNT_SUPPLY_STAT_RECOVERING).onMnt fun m => { m with vinLow := true }
  if s.on MNT_SUPPLY_STAT_WARN then s
  else
    let s := (s.set MNT_SUPPLY_STAT_WARN).set MNT_EVENTS_WARN
    let s := (s.warnCut 0).warnCut 1
    ((s.flashWarn 0 (bitOf verified 0)).flashWarn 1 (bitOf verified 1)).wakeSource 11

/-- RECOVERING_START, rule R428. -/
def Dev.recovering (s : Dev) : Dev :=
  if s.on MNT_SUPPLY_STAT_WARN then
    ((s.set MNT_SUPPLY_STAT_RECOVERING).onMnt fun m => { m with vinLow := false }).mark .recover
  else s

/-- SUPPLY_RECOVERED, rule R428: VIN has stayed up for 1 ms. -/
def Dev.recovered (s : Dev) : Dev :=
  if !s.on MNT_SUPPLY_STAT_RECOVERING ∨ !s.waited .recover (us 1000) then s
  else
    let s := ((s.clr MNT_SUPPLY_STAT_WARN).clr MNT_SUPPLY_STAT_RECOVERING).set MNT_EVENTS_RECOVERED
    (s.flashRecovered 0).flashRecovered 1

/-- VIN_MEASURE, rules R85 and R427: every 100 us in RUN. -/
def Dev.vinMeasure (s : Dev) (mv : Nat) : Dev :=
  if !s.inRun ∨ !s.waited .vin (us 100) then s
  else
    let s := (s.mark .vin).wr MNT_SUPPLY_VIN_MV mv
    if mv < 3000 then s.set MNT_SUPPLY_STAT_SG_CAP else if 3050 < mv then s.clr MNT_SUPPLY_STAT_SG_CAP else s

/-! ### Meanings -/

/-- DOMAIN_REQUEST, rule R401. -/
def execDomainRequest (ini : Ini) (v : Word) : State → Host.Outcome State Fault Refusal :=
  onDev fun s => s.cmdAt ini MNT_DOMAIN (·.domainRequest v.toNat)
/-- ENTER_RUN, rule R405. -/
def execEnterRun (ini : Ini) : State → Host.Outcome State Fault Refusal := onDev fun s => s.cmdAt ini MNT_ENTER (·.enter ini 0)
/-- ENTER_DOZE, rule R402. -/
def execEnterDoze (ini : Ini) : State → Host.Outcome State Fault Refusal := onDev fun s => s.cmdAt ini MNT_ENTER (·.enter ini 1)
/-- ENTER_SLEEP, rules R403 to R405. -/
def execEnterSleep (ini : Ini) : State → Host.Outcome State Fault Refusal := onDev fun s => s.cmdAt ini MNT_ENTER (·.enter ini 2)
/-- ENTER_SNIFF, rules R403 to R405. -/
def execEnterSniff (ini : Ini) : State → Host.Outcome State Fault Refusal := onDev fun s => s.cmdAt ini MNT_ENTER (·.enter ini 3)
/-- ENTER_HIBERNATE, rules R403 to R405. -/
def execEnterHibernate (ini : Ini) : State → Host.Outcome State Fault Refusal := onDev fun s => s.cmdAt ini MNT_ENTER (·.enter ini 4)
/-- SLEEP_ENTRY_START, rules R404 to R406. -/
def execSleepEntryStart : State → Host.Outcome State Fault Refusal := onDev (·.entryStart)
/-- SLEEP_COMMIT, rule R406. -/
def execSleepCommit : State → Host.Outcome State Fault Refusal := onDev (·.commit)
/-- WAKE_ARM, rule R407. -/
def execWakeArm (levels : BitVec 18) : State → Host.Outcome State Fault Refusal := onDev (·.wakeArm levels.toNat)
/-- WAKE_SOURCE, rules R405, R407 and R418. -/
def execWakeSource (src : Fin 18) : State → Host.Outcome State Fault Refusal := onDev (·.wakeSource src)
/-- DOZE_EXIT, rule R402. -/
def execDozeExit : State → Host.Outcome State Fault Refusal := onDev (·.dozeExit)
/-- REGULATOR_READY, rule R419. -/
def execRegulatorReady : State → Host.Outcome State Fault Refusal := onDev (·.regReady)
/-- REGULATOR_TIMEOUT, rule R424. -/
def execRegulatorTimeout : State → Host.Outcome State Fault Refusal := onDev (·.regTimeout)
/-- OSC_READY, rule R419. -/
def execOscReady : State → Host.Outcome State Fault Refusal := onDev (·.oscReady)
/-- OSC_TIMEOUT, rule R424. -/
def execOscTimeout : State → Host.Outcome State Fault Refusal := onDev (·.oscTimeout)
/-- PLL_LOCKED, rules R419 and R426. -/
def execPllLocked : State → Host.Outcome State Fault Refusal := onDev (·.pllLocked)
/-- PLL_TIMEOUT, rule R424. -/
def execPllTimeout : State → Host.Outcome State Fault Refusal := onDev (·.pllTimeout)
/-- WAKE_RELEASE, rules R410, R419 and R421. -/
def execWakeRelease : State → Host.Outcome State Fault Refusal := onFuses fun f s => s.wakeRelease f
/-- LADDER_RETRY, rule R424. -/
def execLadderRetry : State → Host.Outcome State Fault Refusal := onDev (·.ladderRetry)
/-- RETRY_XTAL, rule R426. -/
def execRetryXtal (ini : Ini) (ready : Bool) : State → Host.Outcome State Fault Refusal :=
  onDev fun s => s.cmdAt ini MNT_LADDER (·.retryXtal ready)
/-- SNIFF_WINDOW_OPEN, rule R422. -/
def execSniffWindowOpen : State → Host.Outcome State Fault Refusal := onDev (·.sniffOpen)
/-- SNIFF_WINDOW_CLOSE, rules R422 and R423. -/
def execSniffWindowClose : State → Host.Outcome State Fault Refusal := onDev (·.sniffClose)
/-- SEAM_RELEASE, rule R415. -/
def execSeamRelease (ini : Ini) (mask : BitVec 8) : State → Host.Outcome State Fault Refusal :=
  onDev fun s => s.cmdAt ini MNT_SEAM (·.seamRelease mask.toNat)
/-- SLOW_XTAL_READY, rule R397. -/
def execSlowXtalReady : State → Host.Outcome State Fault Refusal := onDev (·.xtalReady)
/-- SLOW_XTAL_TIMEOUT, rule R398. -/
def execSlowXtalTimeout : State → Host.Outcome State Fault Refusal := onDev (·.xtalTimeout)
/-- SLOW_SOURCE_HANDOVER, rule R186. -/
def execSlowSourceHandover : State → Host.Outcome State Fault Refusal := onDev (·.slowHandover)
/-- SUPPLY_WARN, rule R428. -/
def execSupplyWarn (verified : BitVec 2) : State → Host.Outcome State Fault Refusal := onDev (·.supplyWarn verified.toNat)
/-- SUPPLY_RECOVERED, rule R428. -/
def execSupplyRecovered : State → Host.Outcome State Fault Refusal := onDev (·.recovered)
/-- VIN_MEASURE, rule R427. -/
def execVinMeasure (mv : BitVec 16) : State → Host.Outcome State Fault Refusal := onDev (·.vinMeasure mv.toNat)
/-- RECOVERING_START, rule R428. -/
def execRecoveringStart : State → Host.Outcome State Fault Refusal := onDev (·.recovering)

end Sys2Proof.Machine
end

