-- ==== Sys2Proof/Machine/Wired.lean ====
section
/-!
DEFINITION. Wired links and the switch at work (chapter 12): link states, received frames, forwarding, ring frames, the
internal rings and the EVENT notifications (rules R430 to R448 and R454).
-/

namespace Sys2Proof.Machine

/-! ### Link states (Table 12-1) -/

/-- May link `l` leave OFF: enabled, configured, its domain on, not retired (rules R432, R470 and R509)? -/
def Dev.linkEnabled (s : Dev) (l : Nat) : Bool :=
  s.on (WL_CFG_ENABLE l) && (s.link l).configured && s.up 10 && !s.retired (0x1C + l)

/-- The level of WLn_TX_DISABLE (rules R413 and R432). -/
def Dev.sfpTxDisable (s : Dev) (l : Nat) : Bool :=
  !s.linkEnabled l || s.on (WL_STATUS_MOD_ABS l) || s.rd (WL_STATUS_STATE l) == 5 || s.bit MNT_SEAM_HELD 5

/-- Do the SFP management inputs reach the links: PD10 on and bank 5 not held (rule R413)? -/
def Dev.sfpSees (s : Dev) : Bool := s.up 10 && !s.bit MNT_SEAM_HELD 5

/-- The rate a search begins at (rules R434 and R435). -/
def Dev.searchRate (s : Dev) (l : Nat) : Nat :=
  match s.rd (WL_CFG_RATE l) with
  | 1 => 1
  | 2 => if s.on (WL_STATUS_FALLEN l) then 0 else 1
  | _ => 0

/-- Link `l` enters SEARCH. -/
def Dev.linkSearch (s : Dev) (l : Nat) : Dev :=
  (((s.wr (WL_STATUS_STATE l) 2).wr (WL_STATUS_RATE_NOW l) (s.searchRate l)).clr (WL_STATUS_AN_DONE l)).mark (.search l)

/-- Link `l` leaves its state for another one than UP; a link that was UP has gone down. -/
def Dev.linkLeave (s : Dev) (l st : Nat) : Dev :=
  let up := s.linkIsUp l
  let s := ((s.wr (WL_STATUS_STATE l) st).clr (WL_STATUS_AN_DONE l)).when (st == 2) fun s => s.linkSearch l
  if up then (s.portDown l).svcEval else s

/-- WL_CFG takes effect: the fallback hold ends; a disabled link is OFF, an enabled one leaves OFF, and a search starts
afresh (rules R432, R434 and R435). -/
def Dev.wlCfgWrite (s : Dev) (l : Nat) (v : Word) : Dev :=
  let s := (s.setReg (WL_CFG l) (v &&& 0x0FFF001F)).clr (WL_STATUS_FALLEN l)
  let st := s.rd (WL_STATUS_STATE l)
  if !s.linkEnabled l then (if st = 0 then s else s.linkLeave l 0)
  else if st = 0 then (if s.on (WL_STATUS_MOD_ABS l) then s.wr (WL_STATUS_STATE l) 1 else s.linkSearch l)
  else if st = 2 then s.linkSearch l
  else s

/-- Link `l` is UP, with the partner's base page where auto-negotiation completed. -/
def Dev.linkGo (s : Dev) (l : Nat) (ability : Option Nat) : Dev :=
  let s := ((s.set (WL_STATUS_SYNC l)).clr (WL_STATUS_LOS l)).wr (WL_STATUS_STATE l) 4
  let s := match ability with
    | some v => ((s.wr (WL_STATUS_LP_ABILITY l) v).set (WL_STATUS_AN_DONE l)).set (WL_EVENTS_AN_DONE l)
    | none => s
  ((s.set (WL_EVENTS_LINK_UP l)).portUp l).svcEval

/-- LINK_UP: sync held 10 ms. Where auto-negotiation applies the link waits in AN until it completes (Table 12-1). -/
def Dev.linkUp (s : Dev) (l : Nat) (ability : Option Nat) : Dev :=
  let an := s.on (WL_CFG_AN_EN l) && s.rd (WL_STATUS_RATE_NOW l) == 0
  match s.rd (WL_STATUS_STATE l), ability with
  | 2, none =>
    if an then (((s.set (WL_STATUS_SYNC l)).clr (WL_STATUS_LOS l)).wr (WL_STATUS_STATE l) 3).mark (.an l) else s.linkGo l none
  | 2, some v => s.linkGo l (if an then some v else none)
  | 3, some v => s.linkGo l (some v)
  | _, _ => s

/-- A link that falls from 3.125 GBd too often is held at 1.25 GBd (rule R435). -/
def Dev.linkFallback (s : Dev) (l : Nat) : Dev :=
  if s.rd (WL_CFG_RATE l) ≠ 2 ∨ !s.on (WL_CFG_FALLBACK_EN l) ∨ s.rd (WL_STATUS_RATE_NOW l) ≠ 1 then s
  else
    let w : Nat := max 1 (s.rd (WL_FALLBACK_WINDOW_S l)) * 8000000
    let t := s.now :: (s.link l).losses.filter fun x => decide (tsDiff s.now x < (w : Int))
    let s := s.setLink l { s.link l with losses := t }
    if max 1 (s.rd (WL_FALLBACK_LOSSES l)) ≤ t.length then
      ((s.setLink l { s.link l with losses := [] }).set (WL_STATUS_FALLEN l)).set (WL_EVENTS_FALLBACK l)
    else s

/-- LINK_DOWN of a link in UP (rule R433): loss of sync with LOS and MOD_ABS low is charged to the link (Table 13-2). -/
def Dev.linkDown (s : Dev) (l : Nat) (cause : LinkLoss) : Dev :=
  if !s.linkIsUp l then s
  else
    let s := match cause with
      | .los => (s.set (WL_STATUS_LOS l)).clr (WL_STATUS_SYNC l)
      | .sync => (s.clr (WL_STATUS_SYNC l)).bump (WL_CNT_SYNC_LOSS_COUNT l)
      | .anRestart => s
    let s := ((s.set (WL_EVENTS_LINK_DOWN l)).linkFallback l).linkLeave l 2
    if cause = .sync ∧ !s.on (WL_STATUS_LOS l) ∧ !s.on (WL_STATUS_MOD_ABS l) then s.charge (0x1C + l) .linkFault 0 else s

/-- MOD_ABS changes (Table 12-1, rule R435). -/
def Dev.moduleChange (s : Dev) (l : Nat) (absent : Bool) : Dev :=
  if !s.sfpSees then s
  else
    let s := (s.put (WL_STATUS_MOD_ABS l) absent).set (WL_EVENTS_MODULE l)
    let s := (s.setLink l { s.link l with settling := !absent }).mark (.module l)
    if !absent then s
    else
      let s := s.clr (WL_STATUS_FALLEN l)
      if 2 ≤ s.rd (WL_STATUS_STATE l) then s.linkLeave l 1 else s

/-- MOD_ABS has been low for 300 ms. -/
def Dev.moduleSettled (s : Dev) (l : Nat) : Dev :=
  if !(s.link l).settling ∨ !s.waited (.module l) (us 300000) then s
  else
    let s := s.setLink l { s.link l with settling := false }
    if s.rd (WL_STATUS_STATE l) = 1 then s.linkSearch l else s

/-- TX_FAULT goes high: the link enters FAULT, which is charged to it (Tables 12-1 and 13-2). -/
def Dev.linkTxFault (s : Dev) (l : Nat) : Dev :=
  if !s.sfpSees then s
  else
    let st := s.rd (WL_STATUS_STATE l)
    let s := (s.set (WL_STATUS_TX_FAULT l)).set (WL_EVENTS_TX_FAULT l)
    if st = 2 ∨ st = 3 ∨ st = 4 then ((s.linkLeave l 5).mark (.txFault l)).charge (0x1C + l) .linkFault 0 else s

/-! ### Received frames (rules R431, R436, R437 and R439) -/

/-- The longest frame of a link, FCS included. -/
def Dev.maxLen (s : Dev) (l : Nat) : Nat := min 2048 (s.rd (WL_CFG_MAX_LEN l))

/-- Where a frame that entered on port `p` goes, by cases 2 to 5 of rule R437. -/
def Dev.routeFrame (s : Dev) (p vid : Nat) (f : List Byte) : List Nat :=
  let out := ([0, 1].filter fun q => q != p && s.forwarding q && s.member q vid)
  if dstOf f = s.fswMac then [2]
  else if isGroup f then 2 :: out
  else match s.fdbPort (dstOf f) vid with
    | some q => if q = p then [] else [q]
    | none => out

/-- Is the frame dropped because its destination is learned on the port it came from (case 4 of rule R437)? -/
def Dev.filtered (s : Dev) (p vid : Nat) (f : List Byte) : Bool :=
  dstOf f != s.fswMac && !isGroup f && s.fdbPort (dstOf f) vid == some p

/-- A frame as it leaves on port `q`: tagged where TAG_EGRESS asks for it. -/
def Dev.egressForm (s : Dev) (q vid pcp : Nat) (f : List Byte) : List Byte :=
  if s.on (FSW_PORT_TAG_EGRESS q) ∧ !tagged f then addTag f (pcp * 8192 + vid) else f

/-- PTP_EVENT of a frame (rule R446): EtherType 0x88F7 with messageType 0 to 3, or IPv4 UDP to port 319. -/
def ptpEvent (f : List Byte) : Bool :=
  let p := payload f
  (etherType f == 0x88F7 && decide (fieldAt p 0 1 % 16 ≤ 3) && p != []) ||
    (etherType f == 0x0800 && fieldAt p 0 1 / 16 == 4 && fieldAt p 9 1 == 17 && beAt p (4 * (fieldAt p 0 1 % 16) + 2) 2 == 319)

/-- A frame goes to the internal receive ring (rule R447, Table 12-4). -/
def Dev.irxPut (s : Dev) (p : Nat) (f : List Byte) (ts frac : Nat) : Dev :=
  let n := s.rd FSW_IRX_SIZE_ENTRIES
  let w := s.rd FSW_IRX_WR_WR
  if !ringFree n w (s.rd FSW_IRX_RD_RD) 0 then (s.bump FSW_CNT_IRX_DROP_COUNT).set FSW_EVENTS_IRX_FULL
  else
    let buf := 2048 * s.rd FSW_IRX_BUF_ADDR + 2048 * w
    let tci := if tagged f then tciOf f else s.rd (FSW_PORT_PVID p) + 8192 * s.rd (FSW_PORT_DEF_PCP p)
    let flags := (if tagged f then 1 else 0) + (if ptpEvent f then 2 else 0) +
      (if isGroup f ∧ dstOf f ≠ bcast then 4 else 0) + (if dstOf f = bcast then 8 else 0)
    let rec_ := leBytes 1 p ++ leBytes 1 flags ++ leBytes 2 f.length ++ leBytes 2 tci ++ leBytes 1 frac ++ [0] ++
      leBytes 8 ts ++ leBytes 4 buf ++ List.replicate 12 0
    ((s.put8 0x10 buf f).put8 0x10 (32 * s.rd FSW_IRX_BASE_ADDR + 32 * w) rec_).wr FSW_IRX_WR_WR ((w + 1) % n)

/-- Is the frame a Milxon request (rule R451)? -/
def Dev.isRequest (s : Dev) (f : List Byte) : Bool :=
  bitOf s.img.transports 0 && dstOf f == s.fswMac && s.isMilxon f

/-- A Milxon request waits, at most 8 of them. -/
def Dev.mxArrive (s : Dev) (p : Nat) (f : List Byte) : Dev :=
  if 8 ≤ s.io.mx.length then (s.bump FSW_CNT_MX_DROP_COUNT).set FSW_EVENTS_MX_DROP
  else
    let r : MxReq := { port := p, src := srcOf f, tci := if tagged f then some (tciOf f) else none, body := payload f }
    { s with io := { s.io with mx := s.io.mx ++ [r] } }

/-- A frame reaches the internal port: a Milxon request waits, a ring frame ends, any other goes to the receive ring. -/
def Dev.internalRx (s : Dev) (p : Nat) (f : List Byte) (ts frac : Nat) : Dev :=
  if 2 ≤ p ∨ s.ringShape f then s
  else if s.isRequest f then s.mxArrive p f
  else s.irxPut p f ts frac

/-- Is the frame a ring frame of this ring (rule R441)? -/
def Dev.ringFrame (s : Dev) (f : List Byte) : Bool :=
  (s.ringMode == 1 || s.ringMode == 2) && s.ringShape f && fieldAt (payload f) 4 4 == s.rd FSW_RING_RING_ID

/-- A ring frame of this ring (rules R441 to R443): the manager's own check ends here, any other own frame is dropped; a
RING_FLUSH flushes the table, ends the hold of a member's port and opens the manager's ring; both go on to the other port. -/
def Dev.ringRx (s : Dev) (p : Nat) (f : List Byte) : Dev :=
  let op := fieldAt (payload f) 1 1
  if srcOf f = s.fswMac then
    if s.ringMode = 2 ∧ op = 0x12 then (if p = 1 then ({ s with io := { s.io with seen := true } }).mark .ringSeen else s)
    else s.bump FSW_CNT_RING_OWN_COUNT
  else
    let s := s.egressPut (1 - p) 3 (EFrame.of f)
    if op = 0x13 then
      let s := ((s.fdbFlush.bump FSW_CNT_FLUSH_COUNT).set FSW_EVENTS_FLUSH_RX).ringUnhold
      if s.ringMode = 2 ∧ s.on FSW_RING_BLOCKED then s.ringOpen else s
    else s

/-- A frame goes to each of its ports. -/
def Dev.switchOut (s : Dev) (p vid q : Nat) (ports : List Nat) (f : List Byte) (ts frac : Nat) : Dev :=
  s.each ports fun s r =>
    if 2 ≤ r then s.internalRx p f ts frac
    else if s.forwarding r then s.egressPut r q (EFrame.of (s.egressForm r vid (s.pcpOf p f) f))
    else s

/-- A frame enters the switch on port `p`, queue `q` on egress (rules R436 and R437). -/
def Dev.switchFrame (s : Dev) (p q : Nat) (f : List Byte) (ts frac : Nat) : Dev :=
  let vid := s.vidOf p f
  if !s.on FSW_CFG_ENABLE then s
  else if !s.member p vid then s.bump FSW_CNT_VLAN_DROP_COUNT
  else if p < 2 ∧ s.ringFrame f then s.ringRx p f
  else if p < 2 ∧ s.blocked p then s
  else
    let s := s.fdbLearn p vid (srcOf f)
    if s.filtered p vid f then s.bump FSW_CNT_FILTER_COUNT
    else s.switchOut p vid q (s.routeFrame p vid f) f ts frac

/-- A frame with a failed FCS that was already passing cut-through to the other port ends there with the complement of the
FCS (rule R439). -/
def Dev.stompFrame (s : Dev) (l : Nat) (f : List Byte) : Dev :=
  let o := 1 - l
  let vid := s.vidOf l f
  let ring := s.ringFrame f && srcOf f != s.fswMac
  let passes := (ring && s.linkIsUp o) || (!s.ringFrame f && !s.blocked l && (s.routeFrame l vid f).contains o && s.forwarding o)
  if s.on FSW_CFG_ENABLE ∧ s.on FSW_CFG_CUT_THROUGH ∧ s.member l vid ∧ passes ∧
      s.rd (WL_STATUS_RATE_NOW o) ≤ s.rd (WL_STATUS_RATE_NOW l) ∧ (s.eport o).sending.isNone then
    let f' := if ring then f else s.egressForm o vid (s.pcpOf l f) f
    (s.egressPut o (if ring then 3 else s.queueOf (s.pcpOf l f)) { EFrame.of f' with stomp := true }).bump FSW_CNT_STOMP_COUNT
  else s

/-- A frame received on link `l`, FCS included, `cut` where loss of sync cut it short (rule R431). -/
def Dev.wlRx (s : Dev) (l : Nat) (octets : List Byte) (cut : Bool) (ts frac : Nat) : Dev :=
  let f := octets.take (octets.length - 4)
  if !s.linkIsUp l then s
  else if beAt octets 12 2 = 0x8808 then s.bump (WL_CNT_PAUSE_COUNT l)
  else if s.maxLen l < octets.length then s.bump (WL_CNT_LONG_COUNT l)
  else if octets.length < 64 then s.bump (WL_CNT_SHORT_COUNT l)
  else if cut ∨ octets.drop f.length ≠ leBytes 4 (crc32 f) then (s.bump (WL_CNT_FCS_COUNT l)).stompFrame l f
  else (s.bump (WL_CNT_RX_COUNT l)).switchFrame l (s.queueOf (s.pcpOf l f)) f ts frac

/-- EGRESS_FRAME_SENT: the frame on the wire has left, its buffer space is free, and the next one starts (R438, R446). -/
def Dev.egressSent (s : Dev) (p ts frac : Nat) : Dev :=
  let e := s.eport p
  match e.sending with
  | none => s
  | some f =>
    let s := (s.setEport p { e with sending := none }).bump (WL_CNT_TX_COUNT p)
    let s := match f.tx with
      | some a => s.itxDone a .ok (some (ts, frac))
      | none => s
    (s.egressStart p).bufView

/-! ### The internal transmit ring (rule R448, Table 12-5) -/

/-- Is a field marked 0 not 0, TS_REQ with other than one port named, or the buffer outside frame memory? -/
def itxBad (d : List Byte) : Bool :=
  let ports := fieldAt d 0 1
  let flags := fieldAt d 1 1
  let buf := fieldAt d 8 4
  ports / 4 != 0 || flags / 4 % 4 != 0 || flags / 64 != 0 || fieldAt d 6 2 != 0 || fieldAt d 0x0C 4 != 0 ||
    fieldAt d 0x13 5 != 0 || (bitOf flags 0 && ports != 1 && ports != 2) ||
    decide (buf < 0x20000000) || decide (0x20200000 < buf + fieldAt d 2 2)

/-- Is a descriptor still waiting for the time stamp of its frame? -/
def Dev.itxWaits (s : Dev) : Bool :=
  [0, 1].any fun p => let e := s.eport p
    ((List.range 4).flatMap e.queue ++ (match e.sending with | some f => [f] | none => [])).any fun f => f.tx.isSome

/-- The switch takes the descriptor at `a`: the first failing check, or its frame sent. -/
def Dev.itxTake (s : Dev) (a : Nat) (d : List Byte) : Dev :=
  let ports := fieldAt d 0 1
  let flags := fieldAt d 1 1
  let len := fieldAt d 2 2
  let q := flags / 16 % 4
  let named := [0, 1].filter fun p => bitOf ports p
  let top := ((if named = [] then [0, 1] else named).map s.maxLen).foldl min 2048
  if itxBad d then s.itxDone a .badDesc none
  else if len < 60 ∨ top < len + 4 then s.itxDone a .tooLong none
  else if named.any fun p => !s.linkIsUp p then s.itxDone a .linkDown none
  else
    let r := s.rdMem 0x10 (fieldAt d 8 4) len
    let s := r.1
    let f := if bitOf flags 1 then addTag r.2.2 (fieldAt d 4 2) else r.2.2
    let out := if named = [] then (s.routeFrame 2 (s.vidOf 2 f) f).filter (· < 2) else named
    if out.any fun p => !s.egressRoom p q f.length then s.itxDone a .busy none
    else if r.2.1 ≠ .ok then s.itxDone a r.2.1 none
    else if named = [] then (s.switchFrame 2 q f 0 0).itxDone a .ok none
    else if bitOf flags 0 then
      s.each named fun s p => s.egressPut p q { EFrame.of f with tx := some a, stamp := true }
    else (s.each named fun s p => s.egressPut p q (EFrame.of f)).itxDone a .ok none

/-- INTERNAL_TX: the next descriptor of the ring, once the one before it is done. -/
def Dev.internalTx (s : Dev) : Dev :=
  let n := s.rd FSW_ITX_SIZE_ENTRIES
  let i := s.rd FSW_ITX_RD_RD
  if n = 0 ∨ !s.on FSW_CFG_ENABLE ∨ s.itxWaits ∨ i % n = s.rd FSW_ITX_WR_WR % n then s
  else
    let a := 32 * s.rd FSW_ITX_BASE_ADDR + 32 * i
    let r := s.rdMem 0x10 a 32
    if r.2.1 ≠ .ok then r.1.itxDone a r.2.1 none else r.1.itxTake a r.2.2

/-! ### Ring timers and the registers of the switch -/

/-- RING_CHECK_TIMER: an interval of CHECK_MS ends; a third one in a row with an own check closes an open ring; the next check
leaves on WL0 (rule R442). -/
def Dev.ringTimer (s : Dev) : Dev :=
  if s.ringMode ≠ 2 ∨ !s.on FSW_CFG_ENABLE ∨ !s.waited .ringCheck s.checkTime then s
  else
    let n := if s.io.seen then min 3 (s.io.streak + 1) else 0
    let s := ({ s with io := { s.io with seen := false, streak := n } }).mark .ringCheck
    (s.when (!s.on FSW_RING_BLOCKED && n == 3) fun s => s.ringClose).ringSend 0 0x12

/-- A write of FSW_RING (rules R440 and R445). -/
def Dev.ringWrite (s : Dev) (v : Word) : Dev :=
  let s := (s.wr FSW_RING_RING_ID (v.toNat / 65536)).wr FSW_RING_CHECK_MS (v.toNat / 256)
  s.ringEnter (v.toNat % 4)

/-- A write of FSW_CFG: a switch enabled with MODE 3 selects its active port (rule R445). -/
def Dev.fswCfgWrite (s : Dev) (v : Word) : Dev :=
  let was := s.on FSW_CFG_ENABLE
  let s := s.setReg FSW_CFG (v &&& 0xFFFF0003)
  if !was ∧ s.on FSW_CFG_ENABLE ∧ s.ringMode = 3 then s.selectActive else s

/-- A write of the size of an internal ring (rules R141, R142 and R447). -/
def Dev.swRingSize (s : Dev) (size wr rd : Fld) (v : Nat) : Dev :=
  let n := v % 65536
  if n = 0 ∨ s.rd size = 0 then ((s.wr size (ringSize 1024 n)).wr wr 0).wr rd 0 else s

/-! ### EVENT (rule R454) -/

/-- An EVENT leaves for FSW_HOST_MAC on the port where that address is learned, or on every forwarding WL port. -/
def Dev.eventSend (s : Dev) : Dev :=
  let ports := match (s.io.fdb.find? fun e => e.1 == s.hostMac).map (·.2.2.1) with
    | some p => if p < 2 ∧ s.forwarding p then [p] else [0, 1].filter s.forwarding
    | none => [0, 1].filter s.forwarding
  let f := s.milxonFrame s.hostMac none (mxHeader 0x30 s.io.events 0 1 0 ++ leBytes 4 (s.rd GPIO_HOST_EVT_HOST_EVT))
  let s := (s.each ports fun s p => s.emit p f).mark .event
  { s with io := { s.io with risen := 0, events := (s.io.events + 1) % 65536,
                             gap := s.rd GPIO_HOST_CFG_MIN_GAP_US != 0 } }

/-- An EVENT is due: bits that MASK names have risen, NOTIFY_EN is 1 and no gap runs. -/
def Dev.eventDue (s : Dev) : Bool :=
  s.on FSW_CFG_ENABLE && s.on GPIO_HOST_CFG_NOTIFY_EN && s.io.risen != 0 && !s.io.gap

/-- MIN_GAP_US have passed since the last EVENT: bits that rose within the gap are reported. -/
def Dev.gapEnd (s : Dev) : Dev :=
  if !s.waited .event (us (s.rd GPIO_HOST_CFG_MIN_GAP_US)) then s
  else
    let s := { s with io := { s.io with gap := false } }
    if s.eventDue then s.eventSend else s

/-- A learned address that was last seen AGE_S seconds ago is dropped; 0 acts as 1. -/
def Dev.fdbAge (s : Dev) (mac : List Byte) (vid : Nat) : Dev :=
  let age := us (1000000 * max 1 (s.rd FSW_CFG_AGE_S))
  { s with io := { s.io with fdb := s.io.fdb.filter fun e =>
      !(e.1 == mac && e.2.1 == vid && decide ((age : Int) ≤ tsDiff s.now e.2.2.2)) } }

/-! ### Meanings -/

/-- WL_FRAME_RX (rules R431, R436, R437, R439, R441, R447 and R451). -/
def execWlFrameRx (l : Fin 2) (octets : List Byte) (cut : Bool) (ts : BitVec 48) (frac : Fin 25) (s : State) :
    Host.Outcome State Fault Refusal := onDev (fun s => s.wlRx l octets cut ts.toNat frac) s
/-- LINK_UP (Table 12-1, rules R443 and R445). -/
def execLinkUp (l : Fin 2) (ability : Option (BitVec 16)) (s : State) : Host.Outcome State Fault Refusal :=
  onDev (fun s => s.linkUp l (ability.map (·.toNat))) s
/-- LINK_DOWN (rules R433, R435, R443 and R444). -/
def execLinkDown (l : Fin 2) (cause : LinkLoss) (s : State) : Host.Outcome State Fault Refusal := onDev (fun s => s.linkDown l cause) s
/-- AN_TIMEOUT: 500 ms in AN without completion (Table 12-1). -/
def execAnTimeout (l : Fin 2) (s : State) : Host.Outcome State Fault Refusal :=
  onDev (fun s => if s.rd (WL_STATUS_STATE l) = 3 ∧ s.waited (.an l) (us 500000) then s.linkSearch l else s) s
/-- SEARCH_RATE_SWITCH: 20 ms at one rate have passed (rule R434). -/
def execSearchRateSwitch (l : Fin 2) (s : State) : Host.Outcome State Fault Refusal :=
  onDev (fun s => if s.rd (WL_STATUS_STATE l) = 2 ∧ s.rd (WL_CFG_RATE l) = 2 ∧ !s.on (WL_STATUS_FALLEN l) ∧
      s.waited (.search l) (us 20000) then
    (s.wr (WL_STATUS_RATE_NOW l) (1 - s.rd (WL_STATUS_RATE_NOW l))).mark (.search l) else s) s
/-- SFP_MODULE_CHANGE (Table 12-1). -/
def execSfpModuleChange (l : Fin 2) (absent : Bool) (s : State) : Host.Outcome State Fault Refusal :=
  onDev (fun s => s.moduleChange l absent) s
/-- MODULE_SETTLED (Table 12-1). -/
def execModuleSettled (l : Fin 2) (s : State) : Host.Outcome State Fault Refusal := onDev (fun s => s.moduleSettled l) s
/-- LINK_TX_FAULT (Table 12-1). -/
def execLinkTxFault (l : Fin 2) (s : State) : Host.Outcome State Fault Refusal := onDev (fun s => s.linkTxFault l) s
/-- LINK_FAULT_RELEASE: 100 ms in FAULT have passed (Table 12-1). -/
def execLinkFaultRelease (l : Fin 2) (s : State) : Host.Outcome State Fault Refusal :=
  onDev (fun s => if s.rd (WL_STATUS_STATE l) = 5 ∧ s.waited (.txFault l) (us 100000) then (s.clr (WL_STATUS_TX_FAULT l)).linkSearch l else s) s
/-- FDB_AGE_OUT (rule R437). -/
def execFdbAgeOut (mac : BitVec 48) (vid : BitVec 12) (s : State) : Host.Outcome State Fault Refusal :=
  onDev (fun s => s.fdbAge (leBytes 6 mac.toNat) vid.toNat) s
/-- RING_CHECK_TIMER (rule R442). -/
def execRingCheckTimer (s : State) : Host.Outcome State Fault Refusal := onDev Dev.ringTimer s
/-- RING_CHECK_TIMEOUT: no own check for 3 × CHECK_MS (rule R442). -/
def execRingCheckTimeout (s : State) : Host.Outcome State Fault Refusal :=
  onDev (fun s => if s.ringMode = 2 ∧ s.on FSW_RING_BLOCKED ∧ s.waited .ringSeen (3 * s.checkTime) then s.ringOpen else s) s
/-- RING_PORT_UNBLOCK_TIMEOUT: 4 × CHECK_MS have passed (rule R443). -/
def execRingPortUnblockTimeout (l : Fin 2) (s : State) : Host.Outcome State Fault Refusal :=
  onDev (fun s => if s.waited (.hold l) (4 * s.checkTime) then s.setEport l { s.eport l with hold := false } else s) s
/-- RING_MODE_WRITE: a write of FSW_RING (rule R445). -/
def execRingModeWrite (ini : Ini) (v : Word) (s : State) : Host.Outcome State Fault Refusal :=
  onDev (fun s => s.cmdAt ini FSW_RING fun s => s.ringWrite v) s
/-- INTERNAL_TX (rule R448). -/
def execInternalTx (s : State) : Host.Outcome State Fault Refusal := onDev Dev.internalTx s
/-- EGRESS_FRAME_SENT (rules R438 and R446). -/
def execEgressFrameSent (p : Fin 2) (ts : BitVec 48) (frac : Fin 25) (s : State) : Host.Outcome State Fault Refusal :=
  onDev (fun s => s.egressSent p ts.toNat frac) s
/-- MILXON_EVENT (rule R454). -/
def execMilxonEvent (s : State) : Host.Outcome State Fault Refusal :=
  onDev (fun s => if s.eventDue then s.eventSend else s) s
/-- MILXON_EVENT_GAP_END (rule R454). -/
def execMilxonEventGapEnd (s : State) : Host.Outcome State Fault Refusal :=
  onDev Dev.gapEnd s

end Sys2Proof.Machine
end

