-- ==== Sys2Proof/Machine/Serial.lean ====
section
/-!
DEFINITION. The board ports of chapter 12: the clocked serial ports as masters, UARTs, I²C and GPIO (rules R459 to R466).
-/

namespace Sys2Proof.Machine

/-- The ports' record is changed. -/
def Dev.onIo (s : Dev) (f : Ports → Ports) : Dev := { s with io := f s.io }

/-! ### Clocked serial ports as masters (rules R459 to R461) -/

/-- A write of CSP_CFG (rule R461): ROLE is fixed while ENABLE is 1, on CSP2 to CSP7, and at 0 without its transport. -/
def Dev.cspCfgWrite (s : Dev) (n : Nat) (v : Word) : Dev :=
  let old := s.rd (CSP_CFG_ROLE n)
  let new := bits v.toNat 1 1
  let keep := s.on (CSP_CFG_ENABLE n) || decide (2 ≤ n) || (new == 1 && !bitOf s.img.transports (n + 1))
  (s.setReg (CSP_CFG n) (v &&& 0xFF00FF7F)).wr (CSP_CFG_ROLE n) (if keep then old else new)

/-- CSP_M_CMD and CSP_M_ADDR of the transfer that port `n` runs. -/
def Dev.cspAct (s : Dev) (n : Nat) : Nat × Nat := mapGet (fun _ => (0, 0)) s.io.cspAct n
def Dev.setCspAct (s : Dev) (n : Nat) (v : Nat × Nat) : Dev :=
  s.onIo fun p => { p with cspAct := mapPut (fun _ => (0, 0)) p.cspAct n v }

/-- A write of CSP_M_CMD: START begins a transfer unless one runs, LEN is 0 or the port is no enabled master (rule R460). -/
def Dev.cspMCmd (s : Dev) (n : Nat) (v : Word) : Dev :=
  let start := bitOf v.toNat 31
  if start ∧ s.on (CSP_STATUS_M_BUSY n) then s
  else
    let s := s.setReg (CSP_M_CMD n) (v &&& 0x6000FFFF)
    if start ∧ s.on (CSP_CFG_ENABLE n) ∧ !s.on (CSP_CFG_ROLE n) ∧ s.rd (CSP_M_CMD_LEN n) ≠ 0 then
      ((s.set (CSP_STATUS_M_BUSY n)).set (CSP_STATUS_SEL_ACTIVE n)).setCspAct n (v.toNat, s.rd (CSP_M_ADDR_ADDR n))
    else s

/-- The master of port `n` has moved `k` octets: those that came from the port are written to memory, those sent are read
from it; the state and the status of the memory side. -/
def Dev.cspMove (s : Dev) (n : Nat) (data : List Byte) (k : Nat) : Dev × Status :=
  let a := s.cspAct n
  if k = 0 then (s.onIo fun p => { p with sent := [] }, .ok)
  else if bitOf a.1 30 then s.wrMem 0x11 a.2 (data.take k)
  else
    let r := s.rdMem 0x11 a.2 k
    (r.1.onIo fun p => { p with sent := r.2.2 }, r.2.1)

/-- CSP_MASTER_DONE: a transfer of LEN octets ends with the status of its memory side. -/
def Dev.cspDone (s : Dev) (n : Nat) (data : List Byte) : Dev :=
  if !s.on (CSP_STATUS_M_BUSY n) then s
  else
    let a := (s.cspAct n).1
    let r := s.cspMove n data (a % 65536)
    let s := ((r.1.st (CSP_M_STAT_RESULT n) r.2).wr (CSP_M_STAT_DONE n) (a % 65536)).clr (CSP_STATUS_M_BUSY n)
    ((s.put (CSP_STATUS_SEL_ACTIVE n) (bitOf a 29)).clr (CSP_STATUS_RDY_LOW n)).set (CSP_EVENTS_M_DONE n)

/-- CSP_RDY_TIMEOUT: RDY stayed low for too long after `data` octets (rule R460). -/
def Dev.cspLate (s : Dev) (n : Nat) (data : List Byte) : Dev :=
  if !s.on (CSP_STATUS_M_BUSY n) ∨ !s.on (CSP_CFG_RDY_EN n) ∨ s.rd (CSP_CFG_RDY_TIMEOUT_US n) = 0 then s
  else
    let k := min data.length ((s.cspAct n).1 % 65536)
    let r := s.cspMove n data k
    let s := ((r.1.st (CSP_M_STAT_RESULT n) .rdyTimeout).wr (CSP_M_STAT_DONE n) k).clr (CSP_STATUS_M_BUSY n)
    (((s.clr (CSP_STATUS_SEL_ACTIVE n)).set (CSP_STATUS_RDY_LOW n)).set (CSP_EVENTS_M_DONE n)).set (CSP_EVENTS_RDY_TIMEOUT n)

/-! ### UARTs (rules R462 and R463) -/

def Dev.uartRx (s : Dev) (u : Nat) : List Nat := mapGet (fun _ => []) s.io.uartRx u
def Dev.uartTx (s : Dev) (u : Nat) : List Byte := mapGet (fun _ => []) s.io.uartTx u

/-- A receive FIFO takes its new contents, RX_LEVEL with it. -/
def Dev.setUartRx (s : Dev) (u : Nat) (l : List Nat) : Dev :=
  (s.onIo fun p => { p with uartRx := mapPut (fun _ => []) p.uartRx u l }).wr (UART_STATUS_RX_LEVEL u) l.length

/-- A transmit FIFO takes its new contents, TX_LEVEL and TX_IDLE with it. -/
def Dev.setUartTx (s : Dev) (u : Nat) (l : List Byte) : Dev :=
  ((s.onIo fun p => { p with uartTx := mapPut (fun _ => []) p.uartTx u l }).wr (UART_STATUS_TX_LEVEL u) l.length).put
    (UART_STATUS_TX_IDLE u) l.isEmpty

/-- A character as the UART's data bits hold it. -/
def Dev.uartChar (s : Dev) (u : Nat) (b : Byte) : Byte := if s.on (UART_CFG_DATA8 u) then b else b &&& 0x7F

/-- UART_RX_BYTE: a character has been received (rule R462); the receiver ignores RX while DE is high in half duplex, and none
reaches it under seam hold (rule R413). -/
def Dev.uartReceive (s : Dev) (u : Nat) (b : Byte) (framing parity brk : Bool) : Dev :=
  let l := s.uartRx u
  if !s.on (UART_CFG_ENABLE u) ∨ s.bit MNT_SEAM_HELD 4 ∨ (s.on (UART_RS485_HALF_DUPLEX u) ∧ s.on (UART_STATUS_DE u)) then s
  else if 64 ≤ l.length then (s.bump (UART_CNT_DROP_COUNT u)).set (UART_EVENTS_OVERRUN u)
  else
    let par := parity && (s.rd (UART_CFG_PARITY u) == 1 || s.rd (UART_CFG_PARITY u) == 2) && !brk
    let x := if brk then 0x100
      else (s.uartChar u b).toNat + (if framing then 0x100 else 0) + (if par then 0x200 else 0)
    let s := s.setUartRx u (l ++ [x])
    let s := if brk then s.set (UART_EVENTS_BREAK u)
      else (s.when framing fun s => s.set (UART_EVENTS_FRAMING u)).when par fun s => s.set (UART_EVENTS_PARITY u)
    if s.rd (UART_THRESH_RX_TH u) ≤ l.length + 1 then s.set (UART_EVENTS_RX_THRESH u) else s

/-- DE rises where it is used and the UART has a character to send (rule R463). -/
def Dev.uartDe (s : Dev) (u : Nat) : Dev :=
  if s.on (UART_CFG_ENABLE u) ∧ s.on (UART_RS485_DE_EN u) ∧ s.uartTx u ≠ [] then s.set (UART_STATUS_DE u) else s

/-- A write of UART_DATA pushes a byte into the transmit FIFO, or drops it; DE rises where it is used (R462, R463). -/
def Dev.uartPush (s : Dev) (u : Nat) (b : Byte) : Dev :=
  let l := s.uartTx u
  if 64 ≤ l.length then s.bump (UART_CNT_DROP_COUNT u)
  else
    (s.setUartTx u (l ++ [b])).uartDe u

/-- A read of UART_DATA: the oldest byte with its flags leaves the receive FIFO, or EMPTY (Table 12-16). -/
def Dev.uartPop (s : Dev) (u : Nat) : Dev × Nat :=
  match s.uartRx u with
  | [] => (s, 0x80000000)
  | x :: r => (s.setUartRx u r, x)

/-- UART_TX_CHAR_SENT: the character being sent has left; TX_THRESH at TX_TH or below, TX_IDLE once none is left. -/
def Dev.uartSent (s : Dev) (u : Nat) : Dev :=
  match s.uartTx u with
  | [] => s
  | b :: r =>
    if !s.on (UART_CFG_ENABLE u) then s
    else
      let s := (s.setUartTx u r).onIo fun p => { p with sent := [s.uartChar u b] }
      let s := if r.length ≤ s.rd (UART_THRESH_TX_TH u) then s.set (UART_EVENTS_TX_THRESH u) else s
      if r.isEmpty then s.set (UART_EVENTS_TX_IDLE u) else s

/-! ### I²C (rules R464 and R465) -/

/-- A write of I2C_CFG: SEG stands while BUSY is 1 and on I2C1 (rule R465). -/
def Dev.i2cCfgWrite (s : Dev) (i : Nat) (v : Word) : Dev :=
  let seg := s.rd (I2C_CFG_SEG i)
  (s.setReg (I2C_CFG i) (v &&& 0x37)).wr (I2C_CFG_SEG i)
    (if i = 0 ∧ !s.on (I2C_STAT_BUSY i) then bits v.toNat 4 2 else seg)

def Dev.i2cAct (s : Dev) (i : Nat) : Nat := mapGet (fun _ => 0) s.io.i2cAct i

/-- The transfer of port `i` is noted. -/
def Dev.setI2cAct (s : Dev) (i v : Nat) : Dev := s.onIo fun p => { p with i2cAct := mapPut (fun _ => 0) p.i2cAct i v }

/-- A write of I2C_CMD: START begins a transfer unless one runs or the port is disabled (rule R464). -/
def Dev.i2cCmd (s : Dev) (i : Nat) (v : Word) : Dev :=
  let start := bitOf v.toNat 31
  let s := s.setReg (I2C_CMD i) (v &&& 0x00FFFF7F)
  if start ∧ s.on (I2C_CFG_ENABLE i) ∧ !s.on (I2C_STAT_BUSY i) then
    ((s.set (I2C_STAT_BUSY i)).setI2cAct i v.toNat).mark (.i2c i)
  else s

/-- The bytes of I2C_BUF. -/
def Dev.i2cBuf (s : Dev) (i : Nat) : List Byte := (List.range 64).flatMap fun w => leBytes 4 (s.reg (I2C_BUF i w)).toNat

/-- Bytes read go into I2C_BUF from byte 0. -/
def Dev.i2cFill (s : Dev) (i : Nat) (data : List Byte) : Dev :=
  let l := putAt (s.i2cBuf i) 0 data
  s.each (List.range ((data.length + 3) / 4)) fun s w => s.setReg (I2C_BUF i w) (BitVec.ofNat 32 (fieldAt l (4 * w) 4))

/-- A transfer ends: bytes written and read, its result, DONE with the event of its kind. -/
def Dev.i2cEnd (s : Dev) (i : Nat) (st : Status) (wdone : Nat) (data : List Byte) : Dev :=
  if !s.on (I2C_STAT_BUSY i) then s
  else
    let a := s.i2cAct i
    let w := min wdone (bits a 8 8)
    let d := data.take (bits a 16 8)
    let s := s.onIo fun p => { p with sent := (s.i2cBuf i).take w }
    let s := (((s.i2cFill i d).st (I2C_STAT_RESULT i) st).wr (I2C_STAT_WDONE i) w).wr (I2C_STAT_RDONE i) d.length
    let s := ((s.clr (I2C_STAT_BUSY i)).setI2cAct i 0).set (I2C_EVENTS_DONE i)
    match st with
    | .i2cNack => s.set (I2C_EVENTS_NACK i)
    | .i2cArbLost => s.set (I2C_EVENTS_ARB_LOST i)
    | .i2cTimeout => s.set (I2C_EVENTS_TIMEOUT i)
    | _ => s

/-- The status an I²C transfer ends with. -/
def I2cEnd.status : I2cEnd → Status
  | .ok => .ok
  | .nack => .i2cNack
  | .arbLost => .i2cArbLost

/-! ### GPIO (rule R466 and the paragraph before it) -/

/-- The I/O bank of a GPIO line (chapter 14). -/
def gpioBank (l : Nat) : Nat := if l < 8 then 0 else if l < 20 then 6 else 7

/-- The pad index of a GPIO line (Table 14-14). -/
def gpioPadOf (l : Nat) : Nat :=
  if l < 8 then 57 + l else if l < 20 then 97 + l else 15 + l

/-- The function code of a GPIO line: 0 GPIO, where the image gives the pad none (rule R506). -/
def Dev.gpioFun (s : Dev) (l : Nat) : Nat :=
  ((s.img.pads.find? fun p => p.1 == gpioPadOf l).map (·.2.1)).getD 0

/-- Is the bank of a line powered, and its input path not held (rules R412 and R413)? -/
def Dev.gpioSees (s : Dev) (l : Nat) : Bool :=
  s.up 1 && (s.img.banks[gpioBank l]?).getD 0xFF != 0xFF && !s.bit MNT_SEAM_HELD (gpioBank l)

/-- The level a line is driven to by GPIO_OUT and GPIO_OE; HOST_IRQ pulls low while GPIO_HOST_EVT AND MASK is not zero
(rule R466). -/
def Dev.gpioDrives (s : Dev) (l : Nat) : Option Bool :=
  match s.gpioFun l with
  | 0 => if s.bit GPIO_OE_OE l then some (s.bit GPIO_OUT_OUT l) else none
  | 1 => if s.rd GPIO_HOST_EVT_HOST_EVT &&& s.rd GPIO_HOST_CFG_MASK = 0 then none else some false
  | _ => none

/-- GPIO_EDGE: a line changes its level; an edge that GPIO_TYPE names sets its event (Table 12-18). -/
def Dev.gpioEdge (s : Dev) (l : Nat) (rising : Bool) : Dev :=
  if !s.gpioSees l ∨ s.bit GPIO_IN_IN l = rising then s
  else
    let s := s.putBit GPIO_IN_IN l rising
    let t := if l < 16 then bits (s.rd GPIO_TYPE0_TYPE) (2 * l) 2 else bits (s.rd GPIO_TYPE1_TYPE) (2 * (l - 16)) 2
    if (rising ∧ bitOf t 0) ∨ (!rising ∧ bitOf t 1) then s.putBit GPIO_EVENTS_EVENTS l true else s

/-- GPIO_OUT takes a new value. -/
def Dev.gpioOut (s : Dev) (f : Word → Word) : Dev := s.setReg GPIO_OUT (f (s.reg GPIO_OUT))

/-! ### Meanings -/

/-- CSP_MASTER_START: a write of CSP_M_CMD (rule R460). -/
def execCspMasterStart (ini : Ini) (n : Fin 8) (v : Word) (s : State) : Host.Outcome State Fault Refusal :=
  onDev (fun s => s.cmdAt ini (CSP_M_CMD n) fun s => s.cspMCmd n v) s
/-- CSP_MASTER_DONE (rule R460). -/
def execCspMasterDone (n : Fin 8) (data : List Byte) (s : State) : Host.Outcome State Fault Refusal := onDev (fun s => s.cspDone n data) s
/-- CSP_RDY_TIMEOUT (rule R460). -/
def execCspRdyTimeout (n : Fin 8) (data : List Byte) (s : State) : Host.Outcome State Fault Refusal := onDev (fun s => s.cspLate n data) s
/-- UART_RX_BYTE (rules R462 and R463). -/
def execUartRxByte (u : Fin 4) (b : Byte) (framing parity brk : Bool) (s : State) : Host.Outcome State Fault Refusal :=
  onDev (fun s => s.uartReceive u b framing parity brk) s
/-- UART_DATA_WRITE (rule R462). -/
def execUartDataWrite (ini : Ini) (u : Fin 4) (v : Word) (s : State) : Host.Outcome State Fault Refusal :=
  onDev (fun s => s.cmdAt ini (UART_DATA u) fun s => s.uartPush u (BitVec.ofNat 8 v.toNat)) s
/-- UART_DATA_READ (rule R462). -/
def execUartDataRead (ini : Ini) (u : Fin 4) (s : State) : Host.Outcome State Fault Refusal :=
  onDev (fun s => s.guarded ini (UART_DATA u) fun s => let r := s.uartPop u; (r.1, .ok, r.2)) s
/-- UART_RX_TIMEOUT (Table 12-16). -/
def execUartRxTimeout (u : Fin 4) (s : State) : Host.Outcome State Fault Refusal :=
  onDev (fun s => if s.uartRx u = [] then s else s.set (UART_EVENTS_RX_TIMEOUT u)) s
/-- UART_DE_RELEASE (rule R463). -/
def execUartDeRelease (u : Fin 4) (s : State) : Host.Outcome State Fault Refusal :=
  onDev (fun s => if s.uartTx u = [] then s.clr (UART_STATUS_DE u) else s) s
/-- UART_TX_CHAR_SENT (rule R462). -/
def execUartTxCharSent (u : Fin 4) (s : State) : Host.Outcome State Fault Refusal := onDev (fun s => s.uartSent u) s
/-- I2C_START: a write of I2C_CMD (rule R464). -/
def execI2cStart (ini : Ini) (i : Fin 2) (v : Word) (s : State) : Host.Outcome State Fault Refusal :=
  onDev (fun s => s.cmdAt ini (I2C_CMD i) fun s => s.i2cCmd i v) s
/-- I2C_DONE: OK with every byte done, NACK or arbitration lost with those that were (rule R464). -/
def execI2cDone (i : Fin 2) (outcome : I2cEnd) (wdone : Byte) (data : List Byte) (s : State) : Host.Outcome State Fault Refusal :=
  onDev (fun s => s.i2cEnd i outcome.status (if outcome = .ok then 255 else wdone.toNat) data) s
/-- I2C_TIMEOUT: a slave has stretched SCL for more than 25 ms (rule R464). -/
def execI2cTimeout (i : Fin 2) (wdone : Byte) (data : List Byte) (s : State) : Host.Outcome State Fault Refusal :=
  onDev (fun s => if s.waited (.i2c i) (us 25000) then s.i2cEnd i .i2cTimeout wdone.toNat data else s) s
/-- GPIO_EDGE (Table 12-18). -/
def execGpioEdge (l : Fin 32) (rising : Bool) (s : State) : Host.Outcome State Fault Refusal := onDev (fun s => s.gpioEdge l rising) s
/-- GPIO_SET (Table 12-18). -/
def execGpioSet (ini : Ini) (m : Word) (s : State) : Host.Outcome State Fault Refusal :=
  onDev (fun s => s.cmdAt ini GPIO_SET fun s => s.gpioOut fun x => x ||| m) s
/-- GPIO_CLR (Table 12-18). -/
def execGpioClr (ini : Ini) (m : Word) (s : State) : Host.Outcome State Fault Refusal :=
  onDev (fun s => s.cmdAt ini GPIO_CLR fun s => s.gpioOut fun x => x &&& ~~~m) s
/-- GPIO_TOGGLE (Table 12-18). -/
def execGpioToggle (ini : Ini) (m : Word) (s : State) : Host.Outcome State Fault Refusal :=
  onDev (fun s => s.cmdAt ini GPIO_TOGGLE fun s => s.gpioOut fun x => x ^^^ m) s

end Sys2Proof.Machine
end

