-- ==== Sys2Proof/Machine/Health.lean ====
section
/-!
DEFINITION. Commands that end what several units share: flash operations with the journal they may belong to, a scrubbed
memory with the pair that waits for it, a watchdog on trial, retirement by command and the outage meter (rules R346, R352
to R358, R382, R484, R486 and R510).
-/

namespace Sys2Proof.Machine

/-! ### Flash operations end -/

/-- After an operation of array `a` the journal goes on, and an erase of all pockets that waited for it completes. -/
def Dev.flashNext (s : Dev) (a : Nat) (j : Option FlashJob) (ok : Bool) (f : Fuses) : Dev :=
  let s := match j with
    | some j => s.journalEnded a j ok
    | none => s
  s.journalKick.wipeSettle f

/-- An IMG_PROGRAM ends with its flash program: CSP0 shows its outcome (rule R458). -/
def Dev.imgProgEnd (s : Dev) (a : Nat) (ok : Bool) : Dev :=
  match s.boot.imgProg with
  | none => s
  | some x =>
    if (x - 0x10000000) / 0x400000 ≠ a then s
    else
      let s := (s.onBoot fun b => { b with imgProg := none }).setReg (CSP_SLV_LAST 0) 0
      let s := s.st (CSP_SLV_LAST_STATUS 0) (if ok then .ok else .programFail)
      let s := s.wr (CSP_SLV_LAST_WORDS 0) (if ok then 128 else 0)
      (s.wr (CSP_SLV_NEXT_ADDR 0) (if ok then x + 512 else x)).set (CSP_EVENTS_SLV_DONE 0)

/-- A program ends (rules R352, R357 to R359, and R297 to R299 for a journal record). -/
def Dev.programOver (s : Dev) (a pulses : Nat) (ok : Bool) (f : Fuses) : Dev :=
  match (s.arr a).job with
  | some j => if j.op = 1 then ((s.programEnd a pulses ok).imgProgEnd a ok).flashNext a (some j) ok f else s
  | none => s

/-- An erase ends (rules R352, R353, R357 to R359, and R293 for a journal block). -/
def Dev.eraseOver (s : Dev) (a pulses : Nat) (ok : Bool) (f : Fuses) : Dev :=
  match (s.arr a).job with
  | some j => if j.op = 2 then (s.eraseEnd a pulses ok).flashNext a (some j) ok f else s
  | none => s

/-- A memory's scrub ends; a pair that waited for its TCM is released (rules R346, R369 and R510). -/
def Dev.scrubOver (s : Dev) (m : ScrubMem) : Dev :=
  match m with
  | .tcm p => (s.scrubDone m).pairGo p
  | _ => s.scrubDone m

/-- A role's watchdog, whose count has run down, expires: an image on trial ends with a reset, else the pair is charged (rule R382). -/
def Dev.wdtOver (s : Dev) (x : Nat) (f : Fuses) : Dev :=
  if !s.wdtNear x 0 then s
  else if s.on STR_STATUS_TRIAL then s.deviceReset f 1
  else s.wdtFault x

/-! ### Retirement by command (rule R486) -/

/-- Has unit `c` no lasting action that retires it, or is it the last carrier of role P? -/
def Dev.notRetirable (s : Dev) (c : Nat) : Bool :=
  c == 8 || c == 9 || (decide (0x0C ≤ c) && decide (c < 0x16)) || (c == s.carrier 0 && !s.standbyUp)

/-- The status with which an OP 1 completes: the first failing condition. -/
def Dev.retireStatus (s : Dev) (c : Nat) : Status :=
  if !isUnit c then .unitUnknown
  else if s.retired c then .ok
  else if s.notRetirable c then .notRetirable
  else if s.mnt.pending ≠ [] then .busy
  else .ok

/-- A retired unit takes the lasting action of Table 13-3, with a RETIRED_BY_CMD record. -/
def Dev.retireUnit (s : Dev) (c : Nat) : Dev :=
  let n := s.countNow (s.unit c)
  let r := s.lastingAct c (s.freeVal 4)
  (((r.1.drew.record c FEvent.retiredByCmd.code 5 n 0).svcEval).ceDrain).pairView

/-- A write of FLT_CMD: UNIT is stored; OP 1 retires, OP 2 acknowledges; OP is ignored while a command is pending. -/
def Dev.fltCmd (s : Dev) (op unit : Nat) : Dev :=
  let s := s.wr FLT_CMD_UNIT unit
  if s.on FLT_CMD_PENDING then s
  else match op with
    | 1 =>
      let st := s.retireStatus unit
      let s := if st = .ok ∧ !s.retired unit then s.retireUnit unit else s
      s.st FLT_CMD_RESULT st
    | 2 => ((s.clr FLT_STATUS_LASTING_UNACK).st FLT_CMD_RESULT .ok).healthPin
    | _ => s

/-! ### The outage meter (rule R484) -/

/-- A millisecond with BELOW_MIN in RUN or DOZE: excluded during a planned interval or below 2,200 mV. -/
def Dev.outageTick (s : Dev) : Dev :=
  if !s.on FLT_STATUS_BELOW_MIN ∨ 1 < s.rd MNT_STATE_STATE ∨ !s.waited .outage (us 1000) then s
  else
    let s := s.mark .outage
    if s.flt.planned ∨ s.rd MNT_SUPPLY_VIN_MV < 2200 then s.bump FLT_EXCLUDED_MS_MS
    else { s with flt := { s.flt with below := min (s.flt.below + 1) 0xFFFFFFFF } }.bump FLT_OUTAGE_MS_MS

/-- A planned interval has lasted 60 s. -/
def Dev.planEnd (s : Dev) : Dev :=
  if s.waited .planned (us 60000000) then { s with flt := { s.flt with planned := false } }.clr FLT_STATUS_PLANNED else s

/-! ### Meanings -/

/-- FLASH_PROGRAM_DONE (rules R352, R357 to R359). -/
def execFlashProgramDone (a : Fin 2) (pulses : Fin 17) (ok : Bool) (s : State) : Host.Outcome State Fault Refusal :=
  onFuses (fun f s => s.programOver a pulses ok f) s
/-- FLASH_ERASE_DONE (rules R352, R353, R357 to R359). -/
def execFlashEraseDone (a : Fin 2) (pulses : Fin 33) (ok : Bool) (s : State) : Host.Outcome State Fault Refusal :=
  onFuses (fun f s => s.eraseOver a pulses ok f) s
/-- FLASH_CHECK_DONE (rule R354). -/
def execFlashCheckDone (a : Fin 2) (shifted : List (Fin 64 × Unit8)) (s : State) : Host.Outcome State Fault Refusal :=
  onFuses (fun f s => (s.checkEnd a shifted).flashNext a none true f) s
/-- RETIRE_COPY_DONE (rules R358 and R361). -/
def execRetireCopyDone (a : Fin 2) (s : State) : Host.Outcome State Fault Refusal :=
  onFuses (fun f s => (s.retireEnd a).flashNext a none true f) s
/-- SEGMENT_SCRUB_DONE (rules R346 and R510). -/
def execSegmentScrubDone (m : ScrubMem) (s : State) : Host.Outcome State Fault Refusal := onDev (fun s => s.scrubOver m) s
/-- WDT_EXPIRE (rule R382). -/
def execWdtExpire (x : Fin 2) (s : State) : Host.Outcome State Fault Refusal := onFuses (fun f s => s.wdtOver x f) s
/-- FLT_RETIRE: a write of FLT_CMD with OP 1 (rule R486). -/
def execFltRetire (ini : Ini) (unit : BitVec 8) (s : State) : Host.Outcome State Fault Refusal :=
  onDev (fun s => s.cmdAt ini FLT_CMD fun s => s.fltCmd 1 unit.toNat) s
/-- FLT_ACK_LASTING: a write of FLT_CMD with OP 2 (rule R486). -/
def execFltAckLasting (ini : Ini) (s : State) : Host.Outcome State Fault Refusal :=
  onDev (fun s => s.cmdAt ini FLT_CMD fun s => s.fltCmd 2 (s.rd FLT_CMD_UNIT)) s
/-- OUTAGE_METER_TICK (rule R484). -/
def execOutageMeterTick (s : State) : Host.Outcome State Fault Refusal := onDev Dev.outageTick s
/-- PLANNED_INTERVAL_END: 60 s of a planned interval have passed (rule R484). -/
def execPlannedIntervalEnd (s : State) : Host.Outcome State Fault Refusal :=
  onDev Dev.planEnd s

end Sys2Proof.Machine
end

