-- ==== Sys2Proof/Machine/Bus.lean ====
section
/-!
DEFINITION. Reads and writes of registers as the fabric delivers them (rules R4 to R7, R30, R58 and R59): what every
register of the map does on a word read and on a word write, the registers with a behaviour of their own included. The
commands REGISTER_WRITE, RS_COUNTER_READ and STR_LOCK_LOG_READ, every access that a burst, the debugger or the host
protocol makes to a register window, and the register commands of the other files share these operations.
-/

namespace Sys2Proof.Machine

/-! ### ST fields (rules R58 and R59) -/

/-- Is unit `c` a spare now? -/
def Dev.unitSpare (s : Dev) (c : Nat) : Bool :=
  if c < 2 then (s.pair c).standby
  else if c < 8 then s.rd (LE_STATE_ROLE (c - 2)) == 2
  else if c = 0x0A ∨ c = 0x0B then s.ceRole (c - 0x0A) == 2
  else decide (0x20 ≤ c) && s.bit SLV_SPARES_MASK (c - 0x20)

/-- Does the loaded image use unit `c`? Without an image every unit counts as used. -/
def Dev.unitUsed (s : Dev) (c : Nat) : Bool :=
  if !s.img.loaded then true
  else if c < 2 then (s.pair c).run != .off
  else if c < 8 then s.rd (LE_STATE_ROLE (c - 2)) != 0
  else if c = 0x0A ∨ c = 0x0B then s.ceRole (c - 0x0A) != 0
  else if 0x0E ≤ c ∧ c < 0x16 then (s.img.segUse[c - 0x0E]?).getD 5 != 5
  else if 0x16 ≤ c ∧ c < 0x1A then
    let b := (c - 0x16) / 2
    s.rd (if c % 2 = 0 then RF_CHAINS_A_MODE b else RF_CHAINS_B_MODE b) != 0
  else if c = 0x1C ∨ c = 0x1D then (s.link (c - 0x1C)).configured
  else if 0x20 ≤ c then
    match s.carriedBy (c - 0x20) with
    | some n => s.rd (SLV_ASSIGN_BAND n) != 0
    | none => false
  else true

/-- FLT_UNIT.STATE of unit `c` (Table 13-10): a state that a rule put it into, else spare, off, or in service. -/
def Dev.unitShown (s : Dev) (c : Nat) : Nat :=
  let st := (s.unit c).state
  if st ≠ 0 ∧ st ≠ 2 then st
  else if s.unitSpare c then 2
  else if s.disp (s.unitDomain c) = 0 ∨ !s.unitUsed c then 4
  else 0

/-- The words of FLT_UNIT and FLT_UNIT_TOTAL for the unit that FLT_UNIT_SEL names (Table 13-10). -/
def Dev.fltUnit (s : Dev) : Nat × Nat :=
  let u := s.unit (s.rd FLT_UNIT_SEL_UNIT)
  let n := min 31 (s.countNow u)
  if isUnit (s.rd FLT_UNIT_SEL_UNIT) then (u.window * 2 ^ 16 + u.threshold % 32 * 2 ^ 11 + n * 8 + s.unitShown (s.rd FLT_UNIT_SEL_UNIT), u.total) else (0, 0)

/-- A write is accepted with OK. -/
def Dev.okay (s : Dev) : Dev × Status := (s, .ok)

/-! ### Registers with behaviour of their own, window by window -/

/-- Writes of the SYS window and of the interrupt controller. -/
def Dev.sysWrite (s : Dev) (ini a v : Nat) : Dev :=
  if a = plicClaimAddr then s.plicComplete ini v
  else if 0x40004000 ≤ a then s.plicWrite ini (a - 0x40004000) v
  else if a = SYS_PAIR_CTL then (if bitOf v 0 then s.handover ini else s)
  else if a = SYS_MBOX then s.mboxWrite ini v
  else match instOf (SYS_WDT_CFG 0) 0x10 2 a, instOf (SYS_WDT_KICK 0) 0x10 2 a, instOf (SYS_ICLOCK_SIZE 0) 8 2 a with
    | some x, _, _ => s.wdtCfg x v
    | _, some x, _ => s.wdtKick ini x v
    | _, _, some x => s.icacheLock x v
    | _, _, _ => s.plainWrite a v

/-- Reads of the SYS window and of the interrupt controller. -/
def Dev.sysRead (s : Dev) (ini a : Nat) : Dev × Status × Nat :=
  if a = plicClaimAddr then s.plicClaim ini
  else if 0x40004000 ≤ a then (s, .ok, s.plicRead ini (a - 0x40004000))
  else if a = SYS_PAIR_SELF then (s, .ok, s.pairSelf ini)
  else if a = SYS_MBOX then s.mboxRead ini
  else match instOf (SYS_WDT_LEFT 0) 0x10 2 a with
    | some x => (s, .ok, s.wdtLeft x)
    | none => let r := s.plainRead a; (r.1, .ok, r.2)

/-- A write of STR_CMD: SLOT and AUTO are stored, and OP asks for an operation (rules R60 to R66). -/
def Dev.strCmdWrite (s : Dev) (f : Fuses) (ini v : Nat) : Dev :=
  let op := v % 8
  if op = 0 ∨ op = 7 then (s.put STR_CMD_SLOT (bitOf v 4)).put STR_CMD_AUTO (bitOf v 5)
  else s.strAsk ini op (bitOf v 4) (bitOf v 5) (if op ≤ 3 then id else (·.needPresence f))

/-- Writes of the mantle window. -/
def Dev.mntWrite (s : Dev) (ini a v : Nat) : Dev :=
  if a = MNT_ENTER then s.enter ini (v % 8)
  else if a = MNT_DOMAIN then s.domainRequest v
  else if a = MNT_SEAM then s.seamRelease (v / 256 % 256)
  else if a = MNT_LADDER then (if bitOf v 0 then s.drew.retryXtal (s.freeVal 1 == 1) else s)
  else s.plainWrite a v

/-- Writes of a general timer (rules R387 to R392). -/
def Dev.gtWrite (s : Dev) (a v : Nat) : Dev :=
  let k := (a - GT_CTRL 0) / 0x1000
  let o := (a - GT_CTRL 0) % 0x1000
  if o = 0x00 then (s.plainWrite a v).gtView
  else if o = 0x04 then s.gtPscWrite k v
  else if o = 0x08 then s.gtCount k v
  else if o = 0x0C then s.setTimer k { s.timer k with cntStage := v % 65536 }
  else if o = 0x10 then s.gtCommit k v 0
  else if o = 0x14 then s.setTimer k { s.timer k with reloadStage := v % 65536 }
  else if 0x20 ≤ o ∧ o < 0x60 then
    let c := (o - 0x20) / 0x10
    if o % 0x10 = 0 then (s.plainWrite a v).gtView
    else if o % 0x10 = 4 then s.gtVal k c v
    else if o % 0x10 = 8 then s.setGtc k c { s.gtc k c with stage := v % 65536 }
    else s
  else s.plainWrite a v

/-- Reads of a general timer (rules R389 and R392). -/
def Dev.gtRead (s : Dev) (a : Nat) : Dev × Status × Nat :=
  let k := (a - GT_CTRL 0) / 0x1000
  let o := (a - GT_CTRL 0) % 0x1000
  if o = 0x08 then s.gtCntRead k 0
  else if o = 0x0C then (s, .ok, (s.timer k).cntLatch)
  else if 0x20 ≤ o ∧ o < 0x60 ∧ o % 0x10 = 4 then s.gtValRead k ((o - 0x20) / 0x10)
  else if 0x20 ≤ o ∧ o < 0x60 ∧ o % 0x10 = 8 then s.gtHiRead k ((o - 0x20) / 0x10)
  else let r := s.plainRead a; (r.1, .ok, r.2)

/-- Writes of the serial ports: CSP, UART, I²C and GPIO. -/
def Dev.serialWrite (s : Dev) (a v : Nat) : Dev :=
  let w := BitVec.ofNat 32 v
  match instOf (CSP_CFG 0) 0x1000 8 a, instOf (CSP_M_CMD 0) 0x1000 8 a, instOf (UART_DATA 0) 0x1000 4 a with
  | some n, _, _ => s.cspCfgWrite n w
  | _, some n, _ => s.cspMCmd n w
  | _, _, some u => s.uartPush u (BitVec.ofNat 8 v)
  | _, _, _ =>
    match instOf (I2C_CFG 0) 0x1000 2 a, instOf (I2C_CMD 0) 0x1000 2 a with
    | some i, _ => s.i2cCfgWrite i w
    | _, some i => s.i2cCmd i w
    | _, _ =>
      if a = GPIO_SET then s.gpioOut fun x => x ||| w
      else if a = GPIO_CLR then s.gpioOut fun x => x &&& ~~~w
      else if a = GPIO_TOGGLE then s.gpioOut fun x => x ^^^ w
      else match instOf (UART_CFG 0) 0x1000 4 a, instOf (UART_RS485 0) 0x1000 4 a with
        | some u, _ => (s.plainWrite a v).uartDe u
        | _, some u => (s.plainWrite a v).uartDe u
        | _, _ => s.plainWrite a v

/-- Does an image operation of the host run (rule R458)? -/
def Dev.imgBusy (s : Dev) : Bool := s.boot.imgErase.isSome || s.boot.imgProg.isSome

/-- Reads of the serial ports; CSP_SLV_LAST.STATUS of CSP0 reads NOT_READY while an image operation runs (rule R458). -/
def Dev.serialRead (s : Dev) (a : Nat) : Dev × Status × Nat :=
  if a = CSP_SLV_LAST 0 ∧ s.imgBusy then (s, .ok, (s.reg a).toNat % 2 ^ 24 + 2 ^ 24 * Status.notReady.code)
  else match instOf (UART_DATA 0) 0x1000 4 a with
  | some u => let r := s.uartPop u; (r.1, .ok, r.2)
  | none => let r := s.plainRead a; (r.1, .ok, r.2)

/-- Writes of the TREF window (rules R188 to R193). -/
def Dev.trefWrite (s : Dev) (a v : Nat) : Dev × Status :=
  if a = TREF_CTRL then (s.trefCtrl v).okay
  else if a = TREF_RATE_ADJ then (s.rateWrite v).okay
  else if a = TREF_PHASE_ADJ then (s.phaseAdj v).okay
  else if a = TREF_STEP then let r := s.trefStep v; (r.1, r.2.1)
  else (s.plainWrite a v).okay

/-- Reads of the latching registers (rule R188). -/
def Dev.trefRead (s : Dev) (a : Nat) : Dev × Status × Nat :=
  if a = TREF_TIME_LO then s.loRead .time
  else if a = TREF_PPS_CAP_LO then s.loRead .ppsCap
  else let r := s.plainRead a; (r.1, .ok, r.2)

/-- A write of FLC_CMD of array `x`: OP runs with RAW (Table 09-3); a code that names no command does nothing. -/
def Dev.flcCmd (s : Dev) (x ini v : Nat) : Dev :=
  match v % 16 with
  | 1 => s.flashOp x ini fun s => s.flashProgram x ini (bitOf v 4)
  | 2 => s.flashOp x ini fun s => s.flashErase x ini
  | 5 => s.flashOp x ini fun s => s.flashCheck x ini 5
  | 6 => s.flashOp x ini fun s => s.flashCheck x ini 6
  | 7 => s.flashOp x ini fun s => s.flashCheck x ini 7
  | 8 => s.flashOp x ini fun s => s.flashRetire x ini
  | _ => s

/-- Writes of the flash and weave window. -/
def Dev.flcWrite (s : Dev) (ini a v : Nat) : Dev :=
  match instOf (FLC_CMD 0) 0x100 2 a, instOf (FLC_SUSPEND 0) 0x100 2 a with
  | some x, _ => s.flcCmd x ini v
  | _, some x =>
    if v % 4 = 1 then s.drew.flashSuspend x (s.freeVal 1 == 1) else if v % 4 = 2 then s.flashResume x else s
  | _, _ =>
    if a = WV_RETIRE_CMD then s.retireLineCmd (v / 8 * 8)
    else if a = WV_TEST_KEY then s.testKey v
    else if a = WV_TEST_CMD then (if v % 4 = 1 then s.writeRaw ini else if v % 4 = 2 then s.readRaw ini else s)
    else s.plainWrite a v

/-- The words of FLC_INFO and FLC_INFO_B for the block that FLC_INFO_SEL names (Table 09-13). -/
def Dev.flcInfo (s : Dev) (x : Nat) : Nat × Nat :=
  let k := (s.arr x).block (s.rd (FLC_INFO_SEL_BLOCK x))
  let bit (b : Bool) (i : Nat) : Nat := if b then 2 ^ i else 0
  (k.erases + 2 ^ 16 * (k.pulses % 256) + bit k.wear 24 + bit k.failing 25,
   k.phys + 2 ^ 8 * k.darns + 2 ^ 16 * (k.ptr % 256) + bit k.ptrOk 24)

/-- Reads of the flash and weave window. -/
def Dev.flcRead (s : Dev) (a : Nat) : Dev × Status × Nat :=
  match instOf (FLC_INFO 0) 0x100 2 a, instOf (FLC_INFO_B 0) 0x100 2 a with
  | some x, _ => (s, .ok, (s.flcInfo x).1)
  | _, some x => (s, .ok, (s.flcInfo x).2)
  | _, _ => let r := s.plainRead a; (r.1, .ok, r.2)

/-- A write of PCK_CMD: OP runs (Table 08-10); 0 and 7 are no command. -/
def Dev.pckCmd (s : Dev) (f : Fuses) (ini v : Nat) : Dev :=
  match v % 8 with
  | 1 => s.pckOp ini 1 fun s => s.pckWrapped f.device
  | 2 => s.pckOp ini 2 fun s => s.pckClear f.device
  | 3 => s.pckOp ini 3 fun s => s.pckGenerate f.device
  | 4 => s.pckOp ini 4 fun s => s.pckExport
  | 5 => s.pckOp ini 5 fun s => s.pckErase
  | 6 => s.pckOp ini 6 fun s => s.pckEraseNow f.device
  | _ => s

/-- Writes of the pocket and cipher window; a submit register takes a write of its own requester only (rule R302). -/
def Dev.pckWinWrite (s : Dev) (f : Fuses) (ini a v : Nat) : Dev × Status :=
  if a = PCK_CMD then (s.pckCmd f ini v).okay
  else match instOf (CE_SUB_ADDR 0) 0x10 10 a with
    | some r => if r = 8 then s.okay else if ini ≠ r then (s, .routeDenied) else (s.ceSubmit f.device r (v / 64 * 64) false).okay
    | none => (s.plainWrite a v).okay

/-- Reads of the pocket and cipher window. -/
def Dev.pckRead (s : Dev) (a : Nat) : Dev × Status × Nat :=
  if a = PCK_RANDOM then s.readRandom
  else if a = PCK_FAILS then s.readFails
  else if a = PCK_STATE then (s, .ok, s.pocketView.1)
  else if a = PCK_FC then (s, .ok, s.pocketView.2)
  else if a = PCK_ENT_STATUS then (s, .ok, s.entropyView)
  else let r := s.plainRead a; (r.1, .ok, r.2)

/-- A write of RFx_CHAINS in its RW fields: A_ON and B_ON stay where the chain's mode is off or its aerial retired
(Table 03-11). -/
def Dev.chainsWrite (s : Dev) (b v : Nat) : Dev :=
  let keep (mode : Nat) (ret : Bool) : Bool := mode == 0 || ret
  let aOn := if keep (s.rd (RF_CHAINS_A_MODE b)) (s.on (RF_STATE_A_RETIRED b)) then s.on (RF_CHAINS_A_ON b) else bitOf v 8
  let bOn := if keep (s.rd (RF_CHAINS_B_MODE b)) (s.on (RF_STATE_B_RETIRED b)) then s.on (RF_CHAINS_B_ON b) else bitOf v 9
  let s := ((s.put (RF_CHAINS_A_ON b) aOn).put (RF_CHAINS_B_ON b) bOn).put (RF_CHAINS_SLOT_GATE b) (bitOf v 12)
  let s := s.ringsNote b
  if s.rd (RF_STATE_STATE b) = 8 ∧ !bitOf v 12 then s.bandListen b else (s.restBand b).svcEval

/-- A write of RFx_GAIN: a chain under manual control takes its set step, 12 to 15 acting as 11 (rule R82 and Table 03-12). -/
def Dev.gainWrite (s : Dev) (b v : Nat) : Dev :=
  let s := s.plainWrite (RF_GAIN b) v
  let s := if s.on (RF_GAIN_A_MANUAL b) then s.wr (RF_GAIN_A_STEP b) (min 11 (s.rd (RF_GAIN_A_SET b))) else s
  if s.on (RF_GAIN_B_MANUAL b) then s.wr (RF_GAIN_B_STEP b) (min 11 (s.rd (RF_GAIN_B_SET b))) else s

/-- Writes of the chain windows. -/
def Dev.rfWrite (s : Dev) (a v : Nat) : Dev :=
  let b := (a - RF_CHAINS 0 + 4) / 0x10000
  if a = RF_CHAINS b then s.chainsWrite b v
  else if a = RF_NARROW b then s.narrowHop b (v % 2 ^ 24)
  else if a = RF_GAIN b then s.gainWrite b v
  else if a = RF_CAL_REQ b then s.calRequest b (v / 65536 % 65536) (v % 16)
  else s.plainWrite a v

/-- Writes of the sleeve bank (rules R114 to R117, R141 and R142). -/
def Dev.slvWrite (s : Dev) (a v : Nat) : Dev × Status :=
  if a < 0x400A8000 then
    let n := (a - SLV_ASSIGN 0) / 0x400
    if a = SLV_CHAN n then s.chanWrite n v
    else if a = SLV_CTRL n then (s.ctrlWrite n v).okay
    else if SLV_FSK n ≤ a ∧ a ≤ SLV_MAX_PSDU n ∧ s.on (SLV_STATE_IN_FRAME n) then
      match regFind a with
      | some r => (s.slvDefer n a (v &&& r.rw)).okay
      | none => s.okay
    else (s.plainWrite a v).okay
  else match instOf (SLV_RQ_SIZE 0) 0x10 6 a, instOf (SLV_RQ_BASE 0) 0x10 6 a with
    | some k, _ => (s.rqSizeWrite k v).okay
    | _, some k =>
      if s.rd (SLV_RQ_SIZE_ENTRIES k) = 0 then (s.plainWrite a v).okay else (s.set SLV_EVENTS_RING_WRITE_IGNORED).okay
    | _, _ => (s.plainWrite a v).okay

/-- Writes of the transmit paths (rules R171 and R182). -/
def Dev.txpWrite (s : Dev) (a v : Nat) : Dev :=
  let p := (a - TXP_CONFIG 0) / 0x1000
  if 2 ≤ p then s
  else if a = TXP_CONFIG p then s.txDisable p v
  else match instOf (TXP_CQ_SIZE p 0) 0x10 6 a, instOf (TXP_CQ_BASE p 0) 0x10 6 a with
    | some k, _ => s.cqSizeWrite p k v
    | _, some k => if s.rd (TXP_CQ_SIZE_ENTRIES p k) = 0 then s.plainWrite a v else s.set (TXP_EVENTS_RING_WRITE_IGNORED p)
    | _, _ => s.plainWrite a v

/-- A slotframe register's write waits for the boundary at which the slotframe is at offset 0 (rule R209). -/
def Dev.sfDefer (s : Dev) (k a v : Nat) : Dev :=
  (s.onSe fun x => { x with sfWait := x.sfWait.filter (fun p => p.1 != a) ++ [(a, v)] }).set (SE_SF_PEND_PENDING k)

/-- A deferred write of register `a` of slotframe `k` waits no longer; with none left SE_SF_PEND shows none. -/
def Dev.sfDrop (s : Dev) (k a : Nat) : Dev :=
  let s := s.onSe fun x => { x with sfWait := x.sfWait.filter fun p => p.1 != a }
  if s.se.sfWait.any fun p => sfOf p.1 == k then s else s.clr (SE_SF_PEND_PENDING k)

/-- A write of a slotframe register: ENABLE at once; LENGTH, BASE and COUNT deferred while the slotframe is enabled. -/
def Dev.sfWrite (s : Dev) (k a v : Nat) : Dev :=
  if !s.on (SE_SF_CFG_ENABLE k) then
    (s.sfDrop k a).plainWrite a v
  else if a = SE_SF_CFG k then
    let s := s.wr (SE_SF_CFG_ENABLE k) (v / 2 ^ 31)
    if v % 65536 = s.rd (SE_SF_CFG_LENGTH k) then
      s.sfDrop k a
    else s.sfDefer k a (v % 65536 + v / 2 ^ 31 % 2 * 2 ^ 31)
  else match regFind a with
    | some r => if r.rw = 0 then s else s.sfDefer k a (v &&& r.rw)
    | none => s

/-- Writes of the slot engine window (rules R197, R199 and R209). -/
def Dev.seWrite (s : Dev) (a v : Nat) : Dev × Status :=
  if a = SE_CTRL then (s.seCtrl v).okay
  else if a = SE_SOURCE then (s.sourceWrite v).okay
  else if SE_ANCHOR_ASN_LO ≤ a ∧ a ≤ SE_TEMPLATE1 ∧ s.on SE_CTRL_RUN then (s.set SE_EVENTS_WRITE_REFUSED, .busy)
  else if SE_SF_CFG 0 ≤ a ∧ a < SE_SF_CFG 8 then (s.sfWrite ((a - SE_SF_CFG 0) / 0x10) a v).okay
  else (s.plainWrite a v).okay

/-- Reads of the slot engine window. -/
def Dev.seRead (s : Dev) (a : Nat) : Dev × Status × Nat :=
  if a = SE_ASN_LO then s.loRead .asn
  else if a = SE_LEDGER_USED then (s.drew, .ok, s.ledgerView.1)
  else if a = SE_LEDGER_LIMIT then (s.drew, .ok, s.ledgerView.2)
  else let r := s.plainRead a; (r.1, .ok, r.2)

/-- Registers of the message layer whose writes are ignored while ENABLE is 1 (rule R281); CONTEXTS is the part of
ML_RA_CFG that is. -/
def mlFixed : List Nat := [ML_POOL_BASE, ML_POOL_CFG, ML_DT_BASE, ML_RT_BASE, ML_RA_BASE, ML_TXN_BASE]

/-- The size of a message ring is written: the entries it stands for, both pointers at 0. -/
def Dev.mlRingSize (s : Dev) (j v : Nat) : Dev :=
  ((s.wr (ML_RING_SIZE_ENTRIES j) (ringSize 1024 (v % 65536))).wr (ML_RING_WR_WR j) 0).wr (ML_RING_RD_RD j) 0

/-- Writes of the message layer and partner table windows. -/
def Dev.mlWrite (s : Dev) (a v : Nat) : Dev :=
  let on := s.on ML_CFG_ENABLE
  let afresh (s : Dev) : Dev := s.onMl fun m => { m with restart := true }
  if a = ML_CFG then s.mlCfg v
  else if a = ML_DESC_FREE then s.descFree v
  else if a = PT_CMD then s.ptCmd v
  else if mlFixed.contains a then (if on then s.set ML_EVENTS_WRITE_IGNORED else afresh (s.plainWrite a v))
  else if a = ML_RA_CFG then
    if !on then afresh (s.plainWrite a v)
    else if v % 512 = s.rd ML_RA_CFG_CONTEXTS then s.plainWrite a v
    else (s.wr ML_RA_CFG_TIMEOUT_100MS (v / 65536)).set ML_EVENTS_WRITE_IGNORED
  else match instOf (ML_RING_SIZE 0) 0x10 9 a, instOf (ML_RING_BASE 0) 0x10 9 a with
    | some j, _ => if on then s.set ML_EVENTS_WRITE_IGNORED else s.mlRingSize j v
    | _, some _ => if on then s.set ML_EVENTS_WRITE_IGNORED else s.plainWrite a v
    | _, _ => s.plainWrite a v

/-- Writes of the wired links and the switch (rules R432 to R447). -/
def Dev.wiredWrite (s : Dev) (a v : Nat) : Dev :=
  let w := BitVec.ofNat 32 v
  match instOf (WL_CFG 0) 0x100 2 a with
  | some l => s.wlCfgWrite l w
  | none =>
    if a = FSW_CFG then s.fswCfgWrite w
    else if a = FSW_RING then s.ringWrite w
    else if a = FSW_IRX_SIZE then s.swRingSize FSW_IRX_SIZE_ENTRIES FSW_IRX_WR_WR FSW_IRX_RD_RD v
    else if a = FSW_ITX_SIZE then s.swRingSize FSW_ITX_SIZE_ENTRIES FSW_ITX_WR_WR FSW_ITX_RD_RD v
    else if a = FSW_IRX_BASE then (if s.rd FSW_IRX_SIZE_ENTRIES = 0 then s.plainWrite a v else s)
    else if a = FSW_ITX_BASE then (if s.rd FSW_ITX_SIZE_ENTRIES = 0 then s.plainWrite a v else s)
    else s.plainWrite a v

/-- Writes of the fault and health window (rules R486, R487 and R489). -/
def Dev.fltWrite (s : Dev) (a v : Nat) : Dev :=
  if a = FLT_CMD then s.fltCmd (v % 4) (v / 256 % 256)
  else if a = FLT_CFG then (s.plainWrite a v).healthPin
  else if a = FLT_LOG_RD then
    { s with flt := { s.flt with full := s.flt.full && v % 128 == s.rd FLT_LOG_RD_RD } }.plainWrite a v
  else s.plainWrite a v

/-- Reads of the fault and health window, the log included (rule R489). -/
def Dev.fltRead (s : Dev) (a : Nat) : Dev × Status × Nat :=
  if 0x401F1000 ≤ a ∧ a < 0x401F1800 then
    (s, .ok, fieldAt (mapGet (fun _ => []) s.flt.log ((a - 0x401F1000) / 16)) (a % 16) 4)
  else if a = FLT_UNIT then (s, .ok, s.fltUnit.1)
  else if a = FLT_UNIT_TOTAL then (s, .ok, s.fltUnit.2)
  else let r := s.plainRead a; (r.1, .ok, r.2)

/-! ### Dispatch by window (Table 01-4) -/

/-- A word write to a register of the window `w`, STR_ registers apart. -/
def Dev.winWrite (s : Dev) (f : Fuses) (w ini a v : Nat) : Dev × Status :=
  match w with
  | 0 => (s.sysWrite ini a v).okay
  | 1 => (if a = STR_CMD then s.strCmdWrite f ini v else s.plainWrite a v).okay
  | 2 => (s.mntWrite ini a v).okay
  | 3 => (if a < GT_TRIG 0 ∨ GT_CTRL 1 ≤ a then s.gtWrite a v else s).okay
  | 4 => (s.serialWrite a v).okay
  | 5 => (s.serialWrite a v).okay
  | 6 => (s.serialWrite a v).okay
  | 7 => (s.serialWrite a v).okay
  | 8 => s.trefWrite a v
  | 10 => (s.flcWrite ini a v).okay
  | 11 => s.pckWinWrite f ini a v
  | 12 => (s.rfWrite a v).okay
  | 13 => (s.rfWrite a v).okay
  | 14 => s.slvWrite a v
  | 15 => (s.txpWrite a v).okay
  | 16 => s.seWrite a v
  | 17 => (s.mlWrite a v).okay
  | 18 => (s.wiredWrite a v).okay
  | 19 => (s.fltWrite a v).okay
  | _ => (s.plainWrite a v).okay

/-- A word read of a register of the window `w`. -/
def Dev.winRead (s : Dev) (w ini a : Nat) : Dev × Status × Nat :=
  match w with
  | 0 => s.sysRead ini a
  | 2 => if a = MNT_SAVE_STAT then (s, .ok, (s.reg a).toNat / 65536 * 65536 + s.fixedBytes % 65536)
         else let r := s.plainRead a; (r.1, .ok, r.2)
  | 3 => if a < GT_TRIG 0 ∨ GT_CTRL 1 ≤ a then s.gtRead a else let r := s.plainRead a; (r.1, .ok, r.2)
  | 4 => s.serialRead a
  | 5 => s.serialRead a
  | 8 => s.trefRead a
  | 10 => s.flcRead a
  | 11 => s.pckRead a
  | 16 => s.seRead a
  | 19 => s.fltRead a
  | _ => let r := s.plainRead a; (r.1, .ok, r.2)

/-- A word write that has reached its window: refused with STRUCTURE_LOCKED where it would change an ST field, nothing
else changed (rules R58 and R59). -/
def Dev.regWrite (s : Dev) (f : Fuses) (ini a v : Nat) : Dev × Fuses × Status :=
  if s.stChange (gtShared a) v then (s.lockLog ini a, f, .structureLocked)
  else if a = STR_CONFIRM then let r := s.confirmWrite f v; (r.1, r.2, .ok)
  else
    let r := s.winWrite f ((windowOf a).getD 20) ini (gtShared a) v
    (r.1, f, r.2)

/-- A word read that has reached its window. -/
def Dev.regRead (s : Dev) (ini a : Nat) : Dev × Status × Nat := s.winRead ((windowOf a).getD 20) ini (gtShared a)

/-- A word write through the fabric: the reach checks of rules R28, R29 and R31 first. -/
def Dev.busWrite (s : Dev) (f : Fuses) (ini a v : Nat) : Dev × Fuses × Status :=
  match s.reach ini a with
  | (_, some _) => s.regWrite f ini a v
  | (st, none) => (s.logReach ini a st, f, st)

/-- A word read through the fabric; a refused one reads 0. -/
def Dev.busRead (s : Dev) (ini a : Nat) : Dev × Status × Nat :=
  match s.reach ini a with
  | (_, some _) => s.regRead ini a
  | (st, none) => (s.logReach ini a st, st, 0)

/-- Does an access that completed with `st` make its initiator take an access fault: a core, and no target reached, an
UNCORRECTABLE unit or a refused ST write (rules R24, R28, R29, R59 and R376)? -/
def faults (ini : Nat) (st : Status) : Bool :=
  isCore ini && (st == .routeDenied || st == .unmapped || st == .uncorrectable || st == .structureLocked)

/-- A meaning over the device with the fuse bank changed with it. -/
def onWrite (ini a v : Nat) (s : State) : Host.Outcome State Fault Refusal :=
  let r := s.dev.busWrite s.fuses ini a v
  .next { s with dev := r.1.answer ini a r.2.2 (leBytes 4 0) (faults ini r.2.2), fuses := r.2.1 }

/-- A meaning that reads one register. -/
def onRead (ini a : Nat) (s : State) : Host.Outcome State Fault Refusal :=
  let r := s.dev.busRead ini a
  .next { s with dev := r.1.answer ini a r.2.1 (leBytes 4 r.2.2) (faults ini r.2.1) }

/-- The bits of a write of `v` to the register at `a` without those event bits that hardware set in the same bus-clock cycle: they
end set, whatever the write asks (rule R6); the captures beside them keep what they held (rule R33). -/
def sameCycle (a v same : Nat) : Nat :=
  match regFind (gtShared a) with
  | some r => v &&& (0xFFFFFFFF - (same &&& r.w1c))
  | none => v

/-- REGISTER_WRITE: a word write to the register that holds address `a` (rules R4 to R6, R8, R30, R33, R58 and R59). -/
def execRegisterWrite (ini : Ini) (a : BitVec 32) (v same : Word) (s : State) : Host.Outcome State Fault Refusal :=
  onWrite ini (a.toNat / 4 * 4) (sameCycle (a.toNat / 4 * 4) v.toNat same.toNat) s
/-- RS_COUNTER_READ: a word read of a register (rules R7 and R30). -/
def execRsCounterRead (ini : Ini) (a : BitVec 32) (s : State) : Host.Outcome State Fault Refusal :=
  onRead ini (a.toNat / 4 * 4) s
/-- STR_LOCK_LOG_READ: the count and the first refusal, then COUNT is 0 and the next refusal is again a first one
(rule R59). -/
def execStrLockLogRead (ini : Ini) (s : State) : Host.Outcome State Fault Refusal := onRead ini STR_LOCK_LOG s

end Sys2Proof.Machine
end

