-- ==== Sys2Proof/Machine/Fabric.lean ====
section
/-!
DEFINITION. The fabric (rules R14 to R31, R348, R375, R376 and R515): target ports, the grant, and what a granted burst does
unit by unit. The command MEMORY_ACCESS.
-/

namespace Sys2Proof.Machine

/-! ### Ports and the grant (rules R17 to R20) -/

/-- The port of a target: 0 and 1 the TCMs, 2 and 3 the flash arrays, 4 to 11 the frame-memory segments, 12 the save memory,
13 the register windows, 14 none (an engine's private memory). -/
def Target.port : Target → Nat
  | .tcm p => p
  | .flash x => 2 + x
  | .seg n => 4 + n
  | .save => 12
  | .win _ => 13
  | _ => 14

/-- The port a burst waits for; one that reaches no target, and a pair's access to its own TCM, wait for none. -/
def Dev.portOf (s : Dev) (b : Burst) : Nat :=
  let a := b.addr.toNat
  match s.target b.ini a with
  | none => 14
  | some t => if !s.routed b.ini a t || (sarnisOnly a && b.ini.val != 9) || a < 0x40000 then 14 else t.port

/-- A read of a flash array that its initiator may reach waits while the array works, unless it names the block whose erase is
suspended (rules R348 and R349). -/
def Dev.stalled (s : Dev) (b : Burst) : Bool :=
  match s.target b.ini b.addr.toNat with
  | some (.flash x) =>
    b.reads && s.portOf b != 14 && !s.flashReady x && !s.blockSusp x ((b.addr.toNat - 0x10000000) % 0x400000 / 0x10000)
  | _ => false

/-- How far an initiator stands after the one granted last, in the circle of initiator codes. -/
def turnOf (last ini : Nat) : Nat := (ini + 31 - last) % 32

/-- The first burst of a list with the least measure. -/
def leastOf (m : Burst → Nat) : List Burst → Option Burst
  | [] => none
  | b :: r =>
    match leastOf m r with
    | none => some b
    | some c => if m b ≤ m c then some b else some c

/-- The initiator that port `p` granted last in class `c`. -/
def Dev.lastGrant (s : Dev) (p c : Nat) : Nat := mapGet (fun _ => 31) s.fab.last (p * 8 + c)

/-- The burst granted next among those that wait for port `p`: class 0 first; else one that has waited 64 cycles, the
longest; else the lowest class. Within a class the turn goes round by initiator code (rules R19 and R20). -/
def Dev.grantOf (s : Dev) (p : Nat) (l : List Burst) : Option Burst :=
  let rr (c : Nat) := leastOf (fun b => turnOf (s.lastGrant p c) b.ini) (l.filter fun b => classOf b.ini == c)
  if l.any fun b => classOf b.ini == 0 then rr 0
  else match leastOf (fun b => 2 ^ 64 - b.waited) (l.filter fun b => decide (64 ≤ b.waited)) with
    | some b => some b
    | none => [1, 2, 3, 4].findSome? rr

/-! ### A granted burst -/

/-- What an access gives its initiator: the state, the fuse bank, the status, the data and whether a core takes an access
fault. -/
abbrev Answer := Dev × Fuses × Status × List Byte × Bool

/-- Is the address in a register window as the initiator sees the map? -/
def Dev.isWin (s : Dev) (ini a : Nat) : Bool :=
  match s.target ini a with
  | some (.win _) => true
  | _ => false

/-- The word at `x` where a burst over `lo …` of `n` bytes touches it. -/
def Dev.touchRead (s : Dev) (ini x lo n : Nat) : Dev × Status × Nat :=
  if lo < x + 4 ∧ x < lo + n then s.busRead ini x else (s, .ok, 0)

/-- Unit `a` of a read of `n` bytes from `lo` on: the words it touches where it lies in a register window, else the stored
unit; checked by the consumer (rules R23 and R24). -/
def Dev.unitRead (s : Dev) (ini a lo n : Nat) (fl : BitVec 64 × BitVec 16) : Dev × Status × List Byte × List (Nat × Nat) :=
  if s.isWin ini a then
    let r := s.touchRead ini a lo n
    let q := r.1.touchRead ini (a + 4) lo n
    let u := (woven (BitVec.ofNat 64 (r.2.2 + 2 ^ 32 * q.2.2))).flip fl.1 fl.2
    let s := q.1.countTransit ini a u.outcome
    (s, worse (worse r.2.1 q.2.1) (if u.outcome = 3 then .uncorrectable else .ok), leBytes 8 u.delivered.toNat, [])
  else
    let r := s.readUnit ini a fl.1 fl.2
    (r.1, r.2.1, leBytes 8 r.2.2.1.data.toNat, match r.2.2.2 with | some c => [(c, a)] | none => [])

/-- The units of a read, in address order. -/
def Dev.burstRead (s : Dev) (b : Burst) (n : Nat) : Nat → Nat → Dev × Status × List Byte × List (Nat × Nat)
  | 0, _ => (s, .ok, [], [])
  | m + 1, k =>
    let r := s.unitRead b.ini (b.addr.toNat / 8 * 8 + 8 * k) b.addr.toNat n (b.flipOf k)
    let q := Dev.burstRead r.1 b n m (k + 1)
    (q.1, worse r.2.1 q.2.1, r.2.2.1 ++ q.2.2.1, r.2.2.2 ++ q.2.2.2)

/-- A unit of a burst that arrives at register windows: the words it covers whole are written (assumption log 20); one that
the check finds UNCORRECTABLE is not. -/
def Dev.winUnit (s : Dev) (f : Fuses) (ini a o : Nat) (l : List Byte) (fl : BitVec 64 × BitVec 16) : Dev × Fuses × Status :=
  match s.reach ini a with
  | (st, none) => (s.logReach ini a st, f, st)
  | (_, some _) =>
    let u := (woven (mergeBytes 0 o l)).flip fl.1 fl.2
    let s := s.countTransit ini a u.outcome
    if u.outcome = 3 then (s, f, .uncorrectable)
    else
      let v := u.delivered.toNat
      let r := if o = 0 ∧ 4 ≤ l.length then s.busWrite f ini a (v % 2 ^ 32) else (s, f, .ok)
      let q := if o ≤ 4 ∧ o + l.length = 8 then r.1.busWrite r.2.1 ini (a + 4) (v / 2 ^ 32) else (r.1, r.2.1, .ok)
      -- the darn was logged in the cycle of the write: its bit ends set (rules R6 and R33)
      (if u.outcome = 2 then q.1.set SYS_FAB_STATUS_TRANSIT_DARN else q.1, q.2.1, worse r.2.2 q.2.2)

/-- A unit of a burst that arrives at a memory: stored whole, or merged into the stored unit (rules R25 and R26). Bytes
of a partial unit that the check finds UNCORRECTABLE are not merged (assumption log 20). -/
def Dev.memUnit (s : Dev) (ini a o : Nat) (l : List Byte) (fl : BitVec 64 × BitVec 16) : Dev × Status × List (Nat × Nat) :=
  let u := (woven (mergeBytes 0 o l)).flip fl.1 fl.2
  if l.length = 8 then
    let r := s.writeUnit ini a u
    (r.1, r.2, [])
  else if u.outcome = 3 then
    match s.reach ini a with
    | (st, none) => (s.logReach ini a st, st, [])
    | (_, some _) => (s.countTransit ini a 3, .uncorrectable, [])
  else
    let r := s.mergeUnit ini a o ((leBytes 8 u.delivered.toNat).drop o |>.take l.length)
    (if r.2.1 = .ok then r.1.countTransit ini a u.outcome else r.1, r.2.1,
      match r.2.2 with | some c => [(c, a)] | none => [])

/-- The units of a write, in address order; the units of one burst are stored each for itself. -/
def Dev.burstWrite (s : Dev) (f : Fuses) (b : Burst) : Nat → Nat → Nat → List Byte →
    Dev × Fuses × Status × List (Nat × Nat)
  | 0, _, _, _ => (s, f, .ok, [])
  | m + 1, k, x, l =>
    if l = [] then (s, f, .ok, [])
    else
      let o := x % 8
      let now := l.take (8 - o)
      let r := if s.isWin b.ini (x - o) then
          let w := s.winUnit f b.ini (x - o) o now (b.flipOf k)
          (w.1, w.2.1, w.2.2, [])
        else
          let w := s.memUnit b.ini (x - o) o now (b.flipOf k)
          (w.1, f, w.2.1, w.2.2)
      let q := Dev.burstWrite r.1 r.2.1 b m (k + 1) (x - o + 8) (l.drop (8 - o))
      (q.1, q.2.1, worse r.2.2.1 q.2.2.1, r.2.2.2 ++ q.2.2.2)

/-- May the engine fetch from there (rule R14)? The pairs fetch through the fabric, the other engines from their own
instruction memory only. -/
def Dev.mayFetch (s : Dev) (ini a : Nat) : Bool :=
  decide (ini < 2) ||
    (match s.target ini a with
     | some (.leRam _) => true
     | some .mantleRam => true
     | some .sarnisRam => true
     | some .rom => true
     | _ => false)

/-- May an LR, SC or AMO be carried out at the target of `a`: TCM or frame memory, by a pair, on a whole word (rules R374
and R375)? -/
def Dev.atomicOk (s : Dev) (ini a : Nat) : Bool :=
  decide (ini < 2) && a % 4 == 0 &&
    (match s.target ini a with
     | some (.tcm _) => true
     | some (.seg _) => true
     | _ => false)

/-- The storage address a pair reserves with an LR at `a`. -/
def Dev.resvAt (s : Dev) (ini a : Nat) : Nat :=
  match s.target ini a with
  | some t => s.place t a / 8 * 8
  | none => 0

/-- The word an AMO stores. -/
def AmoOp.apply (o : AmoOp) (m v : Word) : Word :=
  match o with
  | .swap => v
  | .add => m + v
  | .xor => m ^^^ v
  | .and => m &&& v
  | .or => m ||| v
  | .min => if m.toInt ≤ v.toInt then m else v
  | .max => if m.toInt ≤ v.toInt then v else m
  | .minu => if m ≤ v then m else v
  | .maxu => if m ≤ v then v else m

/-- The reservation of the pair that an initiator is. -/
def Dev.setResv (s : Dev) (ini : Nat) (r : Option Nat) : Dev :=
  s.setPair (s.carrier ini) { s.pair (s.carrier ini) with resv := r }

/-- A read or fetch of `n` bytes. -/
def Dev.doRead (s : Dev) (f : Fuses) (b : Burst) (n : Nat) : Answer :=
  let r := s.burstRead b n ((b.addr.toNat % 8 + n + 7) / 8) 0
  (r.1.chargeUncorr r.2.2.2, f, r.2.1, (r.2.2.1.drop (b.addr.toNat % 8)).take n, faults b.ini r.2.1)

/-- A write of bytes; a core's store to flash takes an access fault (rule R376). -/
def Dev.doWrite (s : Dev) (f : Fuses) (b : Burst) (l : List Byte) : Answer :=
  let r := s.burstWrite f b (l.length + 1) 0 b.addr.toNat l
  let flash := match s.target b.ini b.addr.toNat with | some (.flash _) => isCore b.ini | _ => false
  (r.1.chargeUncorr r.2.2.2, r.2.1, r.2.2.1, [], flash || faults b.ini r.2.2.1)

/-- What a burst does once it is granted. -/
def Dev.burstDo (s : Dev) (f : Fuses) (b : Burst) : Answer :=
  let a := b.addr.toNat
  match b.kind with
  | .read n => s.doRead f b n
  | .fetch n => if s.mayFetch b.ini a then s.doRead f b n else (s, f, Config.coreStatus, leBytes n 0, true)
  | .write l => s.doWrite f b l
  | .lr =>
    if s.atomicOk b.ini a then
      let r := s.doRead f b 4
      (r.1.setResv b.ini (if r.2.2.1 = .ok then some (s.resvAt b.ini a) else none), r.2)
    else (s, f, Config.coreStatus, [], true)
  | .sc trapped v =>
    if s.atomicOk b.ini a then
      let go := !trapped && (s.pair (s.carrier b.ini)).resv == some (s.resvAt b.ini a)
      let s := s.setResv b.ini none
      if go then
        let r := s.doWrite f b (leBytes 4 v.toNat)
        (r.1, r.2.1, r.2.2.1, leBytes 4 (if r.2.2.1 = .ok then 0 else 1), r.2.2.2.2)
      else (s, f, .ok, leBytes 4 1, false)
    else (s, f, Config.coreStatus, [], true)
  | .amo o v =>
    if s.atomicOk b.ini a then
      let r := s.doRead f { b with kind := .read 4 } 4
      if r.2.2.1 = .ok then
        let m := BitVec.ofNat 32 (ofLe r.2.2.2.1)
        let w := r.1.doWrite r.2.1 { b with flips := [] } (leBytes 4 (o.apply m v).toNat)
        (w.1, w.2.1, w.2.2.1, r.2.2.2.1, w.2.2.2.2)
      else r
    else (s, f, Config.coreStatus, [], true)

/-- The port has granted a burst: it leaves the queue, the turn of its class moves on, and the others at the port have waited
its beats longer. A read that waited for a flash array counts for FLC_STALL_MAX. -/
def Dev.granting (s : Dev) (p : Nat) (b : Burst) : Dev :=
  let c := classOf b.ini
  let rest := (s.fab.waiting.erase b).map fun x =>
    if s.portOf x = p then { x with waited := x.waited + b.beats } else x
  let s := { s with fab := { waiting := rest, last := mapPut (fun _ => 31) s.fab.last (p * 8 + c) b.ini } }
  match s.target b.ini b.addr.toNat with
  | some (.flash x) =>
    if b.reads then s.wr (FLC_STALL_MAX_COUNT x) (max (s.rd (FLC_STALL_MAX_COUNT x)) ((b.waited + 199) / 200)) else s
  | _ => s

/-- Port `p` grants one of the bursts that wait for it, and the burst runs to its end. -/
def Dev.portGo (s : Dev) (f : Fuses) (p : Nat) (arrivals : List Burst) : Dev × Fuses :=
  let s := { s with fab := { s.fab with waiting := s.fab.waiting ++ arrivals } }
  match s.grantOf p (s.fab.waiting.filter fun b => s.portOf b == p && !s.stalled b) with
  | none => (s, f)
  | some b =>
    let r := (s.granting p b).burstDo f b
    (r.1.answer b.ini b.addr.toNat r.2.2.1 r.2.2.2.1 r.2.2.2.2, r.2.1)

/-- MEMORY_ACCESS: bursts arrive, and a target port grants one (rules R14 to R31, R348, R375, R376 and R515). -/
def execMemoryAccess (port : Fin 15) (arrivals : List Burst) (s : State) : Host.Outcome State Fault Refusal :=
  let r := s.dev.portGo s.fuses port arrivals
  .next { s with dev := r.1, fuses := r.2 }

end Sys2Proof.Machine
end

