-- ==== Sys2Proof/Machine/Debug.lean ====
section
/-!
DEFINITION. The Debug Module (rules R27 and R384 to R386), register by register as RISC-V Debug Specification 0.13.2, which
rule R384 names, lays it out (assumption log 21): dmcontrol, dmstatus, abstract commands and system bus access.
The command DEBUG_DMI_ACCESS.
-/

namespace Sys2Proof.Machine

/-- What the IDCODE register of the JTAG port reads (rule R384). -/
def jtagIdcode : Word := 0x11224FFF

/-- The Debug Module takes a new record. -/
def Dev.onDbg (s : Dev) (f : Debug → Debug) : Dev := { s with dbg := f s.dbg }

/-- The word kept at DMI address `k`: data0 04, data1 05, cmderr in abstractcs 16, control bits of sbcs 38, sbaddress0 39,
sbdata0 3C. -/
def Dev.dm (s : Dev) (k : Nat) : Nat := (mapGet (fun _ => (0 : Word)) s.dbg.regs k).toNat

/-- The word at DMI address `k` is written. -/
def Dev.setDm (s : Dev) (k v : Nat) : Dev :=
  s.onDbg fun d => { d with regs := mapPut (fun _ => (0 : Word)) d.regs k (BitVec.ofNat 32 v) }

/-! ### Harts (rules R384 and R386) -/

/-- Can hart `h` be halted: a pair that runs, a link engine that runs, the mantle controller? -/
def Dev.hartUp (s : Dev) (h : Nat) : Bool :=
  if h < 2 then (s.pair h).run == .running
  else if h < 8 then s.up 5 && s.on (LE_STATE_RUNNING (h - 2))
  else h == 8

/-- The watchdog of a pair's role pauses while the pair is halted (rule R381). -/
def Dev.wdtPause (s : Dev) (h : Nat) : Dev :=
  let x := s.roleOf h
  let w := s.wdt x
  if h < 2 ∧ s.on (SYS_WDT_CFG_ENABLE x) ∧ w.paused = none then
    s.setWdt x { w with paused := some (if tsLe w.due s.now then 0 else (tsDiff w.due s.now).toNat) }
  else s

/-- The watchdog of a pair's role runs on. -/
def Dev.wdtResume (s : Dev) (h : Nat) : Dev :=
  let x := s.roleOf h
  match (s.wdt x).paused with
  | some c => if h < 2 then s.setWdt x { s.wdt x with due := tsAdd s.now c, paused := none } else s
  | none => s

/-- Hart `h` halts; both cores of a pair halt in step. -/
def Dev.hartHalt (s : Dev) (h : Nat) : Dev :=
  if s.hartUp h ∧ !s.hartHalted h then
    ((s.onDbg fun d => { d with halted := mapPut (fun _ => false) d.halted h true }).wdtPause h).svcEval
  else s

/-- Hart `h` is asked to resume: its acknowledgement shows whether it did. -/
def Dev.hartResume (s : Dev) (h : Nat) : Dev :=
  let was := s.hartHalted h
  let s := s.onDbg fun d => { d with halted := mapPut (fun _ => false) d.halted h false,
                                     resumeAck := mapPut (fun _ => false) d.resumeAck h was }
  if was then (s.wdtResume h).svcEval else s

/-- hartreset of hart `h`: a pair is reset and released at the entry of its role with CAUSE 4, a link engine restarts in place
(Table 10-7 and rules R236 and R370; assumption log 21). -/
def Dev.dmHartReset (s : Dev) (h : Nat) : Dev :=
  if h < 2 then (if (s.pair h).run = .off then s else s.pairRestart h 4)
  else if h < 8 then (if s.on (LE_STATE_RUNNING (h - 2)) then s.restartAct h 4 else s)
  else s

/-! ### dmcontrol and dmstatus -/

/-- A write of dmcontrol. While dmactive is 0 only that bit is taken, and clearing it returns the module to its reset
state; harts that are halted stay so. -/
def Dev.dmControl (s : Dev) (v : Nat) : Dev :=
  if !bitOf v 0 then
    s.onDbg fun d => { Debug.init with halted := d.halted, haveReset := d.haveReset }
  else if !s.dbg.active then s.onDbg fun d => { d with active := true }
  else
    let h := bits v 16 10 + 1024 * bits v 6 10
    let s := s.onDbg fun d => { d with hartsel := h, resetReq := bitOf v 1 }
    if 9 ≤ h then s
    else
      let s := if bitOf v 28 then s.onDbg fun d => { d with haveReset := mapPut (fun _ => false) d.haveReset h false } else s
      let s := if bitOf v 29 ∧ !s.dbg.hartReset then s.dmHartReset h else s
      let s := s.onDbg fun d => { d with hartReset := bitOf v 29 }
      if bitOf v 31 then s.hartHalt h else if bitOf v 30 then s.hartResume h else s

/-- The word of dmcontrol. -/
def Dev.dmControlWord (s : Dev) : Nat :=
  s.dbg.hartsel % 1024 * 2 ^ 16 + s.dbg.hartsel / 1024 % 1024 * 2 ^ 6 +
    (if s.dbg.hartReset then 2 ^ 29 else 0) + (if s.dbg.resetReq then 2 else 0) +
    (if s.dbg.active then 1 else 0)

/-- The word of dmstatus: version 2 (0.13) and authenticated; the state of the selected hart only once debug is unlocked
(rule R385). -/
def Dev.dmStatus (s : Dev) : Nat :=
  let h := s.dbg.hartsel
  let two (b : Bool) (i : Nat) : Nat := if b then 3 * 2 ^ i else 0
  let has := decide (h < 9)
  let halted := has && s.hartHalted h
  if !s.boot.debug then 2
  else
    2 + 2 ^ 7 + two halted 8 + two (has && !halted && s.hartUp h) 10 + two (has && !halted && !s.hartUp h) 12 + two (!has) 14 +
      two (has && mapGet (fun _ => false) s.dbg.resumeAck h) 16 + two (has && mapGet (fun _ => false) s.dbg.haveReset h) 18

/-! ### Accesses made for the debugger -/

/-- The initiator a hart's own accesses have. -/
def Dev.hartIni (s : Dev) (h : Nat) : Ini :=
  if h < 2 then (if s.roleOf h = 0 then 0 else 1)
  else Fin.ofNat 21 h

/-- A read or a write of `n` bytes at `a` by an initiator, moved as one burst. -/
def Dev.oneBurst (s : Dev) (f : Fuses) (ini : Ini) (a : Nat) (k : BurstKind) : Answer :=
  s.burstDo f { ini := ini, addr := BitVec.ofNat 32 a, kind := k, flips := [], waited := 0 }

/-- sberror: 2 for an address nothing is at, 7 for any other failure. -/
def sbError (st : Status) : Nat := if st = .ok then 0 else if st = .unmapped then 2 else 7

/-- A system bus access of 32 bits at sbaddress0 (initiator 0x14): a size or alignment it does not support is an error of
its own; after a success the address goes up where sbautoincrement says so. -/
def Dev.sbGo (s : Dev) (f : Fuses) (write : Bool) : Dev × Fuses :=
  let c := s.dm 0x38
  let a := s.dm 0x39
  let fail (s : Dev) (e : Nat) : Dev := s.setDm 0x38 (c + e * 2 ^ 12)
  if bits c 12 3 ≠ 0 then (s, f)
  else if bits c 17 3 ≠ 2 then (fail s 4, f)
  else if a % 4 ≠ 0 then (fail s 3, f)
  else
    let r := s.oneBurst f 0x14 a (if write then .write (leBytes 4 (s.dm 0x3C)) else .read 4)
    let e := sbError r.2.2.1
    if e ≠ 0 then (fail r.1 e, r.2.1)
    else
      let t := if write then r.1 else r.1.setDm 0x3C (ofLe r.2.2.2.1)
      (if bitOf c 16 then t.setDm 0x39 ((a + 4) % 2 ^ 32) else t, r.2.1)

/-- A write of sbcs: its control bits, and sberror cleared where 1 is written. -/
def Dev.sbControl (s : Dev) (v : Nat) : Dev :=
  let e := bits (s.dm 0x38) 12 3 &&& (7 - bits v 12 3)
  s.setDm 0x38 (bits v 15 6 * 2 ^ 15 + e * 2 ^ 12)

/-- The word of sbcs: version 1, 32 address bits, 32-bit accesses. -/
def Dev.sbWord (s : Dev) : Nat := 2 ^ 29 + s.dm 0x38 + 32 * 2 ^ 5 + 4

/-- An abstract command fails. -/
def Dev.cmdErr (s : Dev) (e : Nat) : Dev := s.setDm 0x16 e

/-- An abstract command on the selected hart: access register (a read gives an open value, since what a hart's registers
hold is no state of this block), access memory as the hart itself reaches it (rule R27) but for the window of Sarnis, which the
debug port reaches by no way (rule R15). Nothing runs while cmderr is not
0, or on a hart that is not halted. -/
def Dev.abstractCmd (s : Dev) (f : Fuses) (v : Nat) : Dev × Fuses :=
  let h := s.dbg.hartsel
  let size := bits v 20 3
  if s.dm 0x16 ≠ 0 then (s, f)
  else if v / 2 ^ 24 ≠ 0 ∧ v / 2 ^ 24 ≠ 2 then (s.cmdErr 2, f)
  else if 9 ≤ h ∨ !s.hartHalted h then (s.cmdErr 4, f)
  else if v / 2 ^ 24 = 0 then
    if bitOf v 18 ∨ (bitOf v 17 ∧ size ≠ 2) then (s.cmdErr 2, f)
    else if bitOf v 17 ∧ !bitOf v 16 then ((s.drew).setDm 0x04 (Config.hartWord s.freeCtr).toNat, f)
    else (s, f)
  else
    let n := 2 ^ size
    let a := s.dm 0x05
    if 3 ≤ size ∨ bitOf v 23 then (s.cmdErr 2, f)
    else if a % n ≠ 0 ∨ s.target (s.hartIni h) a = some (.win 11) then (s.cmdErr 5, f)
    else
      let r := s.oneBurst f (s.hartIni h) a (if bitOf v 16 then .write (leBytes n (s.dm 0x04)) else .read n)
      if r.2.2.1 ≠ .ok ∨ r.2.2.2.2 then (r.1.cmdErr 5, r.2.1)
      else
        let t := if bitOf v 16 then r.1 else r.1.setDm 0x04 (ofLe r.2.2.2.1)
        (if bitOf v 19 then t.setDm 0x05 ((a + n) % 2 ^ 32) else t, r.2.1)

/-! ### DMI -/

/-- A write to DMI address `a`. -/
def Dev.dmiWrite (s : Dev) (f : Fuses) (a v : Nat) : Dev × Fuses :=
  if a = 0x10 then
    let t := s.dmControl v
    -- ndmreset: a debug reset of the device (Table 11-20, CAUSE 2; assumption log 21)
    (if s.dbg.active ∧ !s.dbg.resetReq ∧ t.dbg.resetReq then t.deviceReset f 2 else t, f)
  else if !s.dbg.active then (s, f)
  else if a = 0x04 ∨ a = 0x05 then (s.setDm a v, f)
  else if a = 0x16 then (s.setDm 0x16 (s.dm 0x16 &&& (7 - bits v 8 3)), f)
  else if a = 0x17 then s.abstractCmd f v
  else if a = 0x38 then (s.sbControl v, f)
  else if a = 0x39 then
    let s := s.setDm 0x39 v
    if bitOf (s.dm 0x38) 20 then s.sbGo f false else (s, f)
  else if a = 0x3C then (s.setDm 0x3C v).sbGo f true
  else (s, f)

/-- The halted harts, a bit each (haltsum0). -/
def Dev.haltSum (s : Dev) : Nat := (List.range 9).foldl (fun x h => if s.hartHalted h then x + 2 ^ h else x) 0

/-- A read of DMI address `a`: the word, and what the read starts. -/
def Dev.dmiRead (s : Dev) (f : Fuses) (a : Nat) : Dev × Fuses × Nat :=
  if a = 0x10 then (s, f, s.dmControlWord)
  else if a = 0x11 then (s, f, s.dmStatus)
  else if a = 0x04 ∨ a = 0x05 ∨ a = 0x39 then (s, f, s.dm a)
  else if a = 0x16 then (s, f, s.dm 0x16 * 2 ^ 8 + 2)
  else if a = 0x38 then (s, f, s.sbWord)
  else if a = 0x40 then (s, f, s.haltSum)
  else if a = 0x3C then
    let v := s.dm 0x3C
    if bitOf (s.dm 0x38) 15 then
      let r := s.sbGo f false
      (r.1, r.2, v)
    else (s, f, v)
  else (s, f, 0)

/-- A DMI access: while debug is locked only a read of dmstatus is answered, and every other access is ignored
(rule R385). -/
def Dev.dmi (s : Dev) (f : Fuses) (write : Bool) (a v : Nat) : Dev × Fuses :=
  if !s.boot.debug then
    (if !write ∧ a = 0x11 then s.answer 0x14 a .ok (leBytes 4 s.dmStatus) false else s, f)
  else if write then
    let r := s.dmiWrite f a v
    (r.1.answer 0x14 a .ok [] false, r.2)
  else
    let r := s.dmiRead f a
    (r.1.answer 0x14 a .ok (leBytes 4 r.2.2) false, r.2.1)

/-- DEBUG_DMI_ACCESS (rules R384 to R386). -/
def execDebugDmiAccess (write : Bool) (a : BitVec 7) (v : Word) (s : State) : Host.Outcome State Fault Refusal :=
  let r := s.dev.dmi s.fuses write a.toNat v.toNat
  .next { s with dev := r.1, fuses := r.2 }

end Sys2Proof.Machine
end

