-- ==== Sys2Proof/Machine/Host.lean ====
section
/-!
DEFINITION. The Milxon host protocol (rules R449 to R458): requests that wait on the wired links, transactions on the CSP
slaves, and image operations in loader state. The commands MILXON_READ, MILXON_WRITE, MILXON_PING, IMG_ERASE, IMG_PROGRAM
and CSP_SEL_RELEASE.
-/

namespace Sys2Proof.Machine

/-! ### Windows and words (rule R449) -/

/-- The address behind the window of a request: the row of Table 01-4 that holds ADDR, its part where the row gives a
stride, the segment in frame memory and the array in flash. -/
def mxLimit (a : Nat) : Nat :=
  if a < 0x40000 then 0x40000
  else if 0x01000000 ≤ a ∧ a < 0x01080000 then pieceEnd 0x01000000 0x40000 a
  else if 0x08000000 ≤ a ∧ a < 0x08010000 then 0x08010000
  else if 0x10000000 ≤ a ∧ a < 0x10800000 then pieceEnd 0x10000000 0x400000 a
  else if 0x20000000 ≤ a ∧ a < 0x20200000 then pieceEnd 0x20000000 0x40000 a
  else if 0x40020000 ≤ a ∧ a < 0x40046000 then pieceEnd 0x40020000 0x1000 a
  else if 0x400A0000 ≤ a ∧ a < 0x400A8000 then pieceEnd 0x400A0000 0x400 a
  else match windowOf a with
    | some w => ((windows[w]?).map (·.2.1 + 1)).getD (2 ^ 32)
    | none => 2 ^ 32

/-- May loader state's CSP0 reach the address: the STR_ and PRS_ windows and its own (rule R458)? -/
def loaderWindow (a : Nat) : Bool :=
  (decide (0x40008000 ≤ a) && decide (a < 0x40010000)) || (decide (0x40048000 ≤ a) && decide (a < 0x40049000)) ||
    (decide (0x40030000 ≤ a) && decide (a < 0x40031000))

/-- One word of a request: read, or written with `w`. In loader state Sarnis serves it. -/
def Dev.mxWord (s : Dev) (f : Fuses) (ini : Ini) (a : Nat) (w : Option Word) : Dev × Fuses × Status × Nat :=
  if s.on STR_STATUS_LOADER_STATE ∧ ini = 0x11 then
    if !loaderWindow a then (s, f, .routeDenied, 0)
    else match w with
      | some v => let r := s.regWrite f ini a v.toNat; (r.1, r.2.1, r.2.2, 0)
      | none => let r := s.regRead ini a; (r.1, f, r.2.1, r.2.2)
  else
    let r := s.oneBurst f ini a (match w with | some v => .write (leBytes 4 v.toNat) | none => .read 4)
    (r.1, r.2.1, r.2.2.1, ofLe r.2.2.2.1)

/-- How a request stands: the state, the first failing status, whether a word ran past the window, the words done before,
and the words read. -/
structure MxRun where
  dev : Dev
  fuses : Fuses
  status : Status
  ovr : Bool
  done : Nat
  data : List Byte

/-- The words of a request in order, word `k` next. After a failing or overrun word none is accessed; words that are not
read return 0. -/
def mxWords (ini : Ini) (a : Nat) (noInc : Bool) : Nat → List (Option Word) → MxRun → MxRun
  | _, [], r => r
  | k, w :: l, r =>
    let x := mxAddr a k noInc
    let zero : List Byte := if w.isNone then leBytes 4 0 else []
    if r.status ≠ .ok ∨ r.ovr then mxWords ini a noInc (k + 1) l { r with data := r.data ++ zero }
    else if mxLimit a < x + 4 then mxWords ini a noInc (k + 1) l { r with ovr := true, data := r.data ++ zero }
    else
      let t := r.dev.mxWord r.fuses ini x w
      if t.2.2.1 = .ok then
        mxWords ini a noInc (k + 1) l
          { dev := t.1, fuses := t.2.1, status := .ok, ovr := false, done := r.done + 1,
            data := r.data ++ (if w.isNone then leBytes 4 t.2.2.2 else []) }
      else mxWords ini a noInc (k + 1) l { r with dev := t.1, fuses := t.2.1, status := t.2.2.1, data := r.data ++ zero }

/-- A READ or WRITE runs; a misaligned ADDR accesses nothing. -/
def Dev.mxRun (s : Dev) (f : Fuses) (ini : Ini) (a : Nat) (noInc : Bool) (l : List (Option Word)) : MxRun :=
  let z : MxRun := { dev := s, fuses := f, status := .ok, ovr := false, done := 0, data := [] }
  if a % 4 ≠ 0 then { z with status := .misaligned, data := leBytes (4 * (l.filter (·.isNone)).length) 0 }
  else mxWords ini a noInc 0 l z

/-- The STATUS of a request that ran. -/
def MxRun.st (r : MxRun) : Status := if r.status ≠ .ok then r.status else if r.ovr then .overrun else .ok

/-- Does a request read a flash array that works, so that it waits (rule R348)? -/
def Dev.mxStalled (s : Dev) (ini : Ini) (a : Nat) : Bool :=
  s.stalled { ini := ini, addr := BitVec.ofNat 32 a, kind := .read 4, flips := [], waited := 0 }

/-! ### The wired links (rules R451 to R453) -/

/-- A response header (Table 12-7). -/
def mxReply (op tag : Nat) (st : Status) (ovr done next : Nat) : List Byte :=
  leBytes 1 0x10 ++ leBytes 1 (op % 128 + 128) ++ leBytes 2 tag ++ leBytes 1 st.code ++ leBytes 1 ovr ++ leBytes 2 done ++
    leBytes 4 next

/-- The fields of a waiting request. -/
def MxReq.op (r : MxReq) : Nat := fieldAt r.body 1 1
def MxReq.tag (r : MxReq) : Nat := fieldAt r.body 2 2
def MxReq.addr (r : MxReq) : Nat := fieldAt r.body 4 4
def MxReq.count (r : MxReq) : Nat := fieldAt r.body 8 2
def MxReq.noInc (r : MxReq) : Bool := bitOf (fieldAt r.body 10 1) 0

/-- The first failing check of a request (rule R451). -/
def MxReq.refusal (r : MxReq) : Option Status :=
  if r.op = 3 then none
  else if (r.op ≠ 1 ∧ r.op ≠ 2) ∨ r.count = 0 ∨ (r.op = 2 ∧ r.body.length < 12 + 4 * r.count) then some .badOp
  else if 256 < r.count then some .tooLong
  else none

/-- The words of a WRITE request. -/
def MxReq.words (r : MxReq) : List (Option Word) :=
  (List.range r.count).map fun k => some (BitVec.ofNat 32 (fieldAt r.body (12 + 4 * k) 4))

/-- A response leaves on the port of arrival, to the source address, with the request's TCI (rule R452). -/
def Dev.mxSend (s : Dev) (r : MxReq) (octets : List Byte) : Dev := s.emit r.port (s.milxonFrame r.src r.tci octets)

/-- The words of a PING. -/
def Dev.pingWords (s : Dev) : List Byte :=
  [SYS_ID, SYS_ROLE, STR_STATUS, STR_SEQ].flatMap fun a => leBytes 4 (s.reg a).toNat

/-- A kept response, the newest of at most eight (rule R453). -/
def Dev.mxKeep (s : Dev) (r : MxReq) (octets : List Byte) : Dev :=
  s.onIo fun p => { p with kept := ({ src := r.src, tag := r.tag, octets := octets } :: p.kept).take 8 }

/-- The oldest waiting request is executed (rules R449 to R453): a WRITE that matches a kept response is answered with
it, a refused request is answered without data, and the response to a WRITE is kept. -/
def Dev.mxServe (s : Dev) (f : Fuses) (r : MxReq) : Dev × Fuses :=
  let kept := s.io.kept.find? fun k => k.src == r.src && k.tag == r.tag
  match r.op == 2, kept with
  | true, some k => ((s.mxSend r k.octets).bump FSW_CNT_MX_REPLAY_COUNT, f)
  | _, _ =>
    match r.refusal with
    | some st =>
      let o := mxReply r.op r.tag st 0 0 r.addr
      (if r.op = 2 then (s.mxSend r o).mxKeep r o else s.mxSend r o, f)
    | none =>
      if r.op = 3 then
        (s.drew.mxSend r (mxReply 3 r.tag .ok 0 4 (s.freeVal 32) ++ s.pingWords), f)
      else
        let l := if r.op = 1 then List.replicate r.count none else r.words
        let t := s.mxRun f 0x10 r.addr r.noInc l
        let ovr := if t.ovr then (if r.op = 1 then 1 else 2) else 0
        let o := mxReply r.op r.tag t.st ovr t.done (mxAddr r.addr t.done r.noInc) ++ t.data
        ((if r.op = 2 then (t.dev.mxSend r o).mxKeep r o else t.dev.mxSend r o), t.fuses)

/-- The head of the waiting requests runs where its OP is the command's, or is no OP at all; a READ of a flash array that
works waits. -/
def Dev.mxNext (s : Dev) (f : Fuses) (op : Nat) : Dev × Fuses :=
  match s.io.mx with
  | [] => (s, f)
  | r :: rest =>
    if (r.op = op ∨ r.op = 0 ∨ 3 < r.op) ∧ !(r.op == 1 && s.mxStalled 0x10 r.addr) then
      (s.onIo fun p => { p with mx := rest }).mxServe f r
    else (s, f)

/-! ### The CSP slaves (rules R455 to R458) -/

/-- The open transaction of port `n`. -/
def Dev.slvTx (s : Dev) (n : Nat) : Option SlvTx := mapGet (fun _ => none) s.io.slv n

/-- Port `n` has a transaction, or none any more; SEL_ACTIVE shows it. -/
def Dev.setSlvTx (s : Dev) (n : Nat) (t : Option SlvTx) : Dev :=
  (s.onIo fun p => { p with slv := mapPut (fun _ => none) p.slv n t }).put (CSP_STATUS_SEL_ACTIVE n) t.isSome

/-- Is port `n` a slave that serves the host, its bank not held (rule R413): in loader state CSP0 alone, else with its
transport bit (rules R455 and R458)? -/
def Dev.slvServes (s : Dev) (n : Nat) : Bool :=
  s.up 1 && !s.bit MNT_SEAM_HELD 1 && s.on (CSP_CFG_ENABLE n) && s.on (CSP_CFG_ROLE n) &&
    (if s.on STR_STATUS_LOADER_STATE then n == 0 else bitOf s.img.transports (n + 1))

/-- Is the transaction kept out of CSP_SLV_LAST: a READ of CSP_SLV_LAST and CSP_SLV_NEXT alone (rule R457)? -/
def slvSilent (n a words : Nat) : Bool :=
  decide (CSP_SLV_LAST n ≤ a) && decide (a + 4 * words ≤ CSP_SLV_NEXT n + 4)

/-- A READ or WRITE on port `n`. While an image operation runs, all but a READ of CSP0's window, STR_ or PRS_ is refused
with BUSY and not recorded. -/
def Dev.slvRun (s : Dev) (f : Fuses) (n op flags a : Nat) (l : List (Option Word)) : Dev × Fuses :=
  if !s.slvServes n ∨ (s.slvTx n).isSome ∨ (op = 1 ∧ s.mxStalled 0x11 a) then (s, f)
  else if s.imgBusy ∧ !(op == 1 && loaderWindow a) then
    ((s.setSlvTx n (some { op := op, status := .busy, flags := 0, words := 0, next := a, silent := true })).answer 0x11 a .busy []
      false, f)
  else
    let t := s.mxRun f 0x11 a (bitOf flags 0) l
    let ovr := if t.ovr then (if op = 1 then 2 else 4) else 0
    let tx : SlvTx := { op := op, status := t.st, flags := ovr, words := t.done, next := mxAddr a t.done (bitOf flags 0),
                        silent := op == 1 && slvSilent n a l.length }
    ((t.dev.setSlvTx n (some tx)).answer 0x11 a t.st t.data false, t.fuses)

/-- A PING on port `n`, of which the host clocks `count` words. -/
def Dev.slvPing (s : Dev) (n count : Nat) : Dev :=
  if !s.slvServes n ∨ (s.slvTx n).isSome then s
  else if s.imgBusy then
    (s.setSlvTx n (some { op := 3, status := .busy, flags := 0, words := 0, next := 0, silent := true })).answer 0x11 0 .busy [] false
  else
    let tx : SlvTx := { op := 3, status := .ok, flags := 0, words := count, next := s.freeVal 32, silent := false }
    (s.drew.setSlvTx n (some tx)).answer 0x11 0 .ok (s.pingWords.take (4 * count)) false

/-- A transaction's outcome is recorded: FLAGS are [0] TORN, [1] READ_OVERRUN, [2] WRITE_OVERRUN, [3] BAD_OP
(rule R457). -/
def Dev.slvRecord (s : Dev) (n : Nat) (st : Status) (flags words next : Nat) : Dev :=
  let s := ((s.st (CSP_SLV_LAST_STATUS n) st).wr (CSP_SLV_LAST_FLAGS n) flags).wr (CSP_SLV_LAST_WORDS n) words
  let s := (s.wr (CSP_SLV_NEXT_ADDR n) next).set (CSP_EVENTS_SLV_DONE n)
  let s := if bitOf flags 1 ∨ bitOf flags 2 then s.set (CSP_EVENTS_OVERRUN n) else s
  if bitOf flags 3 then s.set (CSP_EVENTS_BAD_OP n) else s

/-- A torn word, or a torn header, is raised and counted. -/
def Dev.slvTorn (s : Dev) (n : Nat) : Dev := (s.set (CSP_EVENTS_TORN n)).bump (CSP_CNT_TORN_COUNT n)

/-- CSPn_SEL is released. A word cut by the release sets TORN: a WRITE's is discarded, a READ's counts as read. With no
transaction executed, the header was cut short (`op` none) or named another OP: its ADDR, and so NEXT_ADDR, is open here. -/
def Dev.selRelease (s : Dev) (n : Nat) (op : Option Byte) (cut : Bool) : Dev :=
  match s.slvTx n with
  | some t =>
    let torn := cut || bitOf t.flags 0
    let s := s.setSlvTx n none
    let s := if torn then s.slvTorn n else s
    let st := if cut ∧ t.op = 2 ∧ t.status = .ok then Status.torn else t.status
    if t.silent then s else s.slvRecord n st (t.flags / 2 * 2 + (if torn then 1 else 0)) t.words t.next
  | none =>
    if !s.slvServes n ∨ s.imgBusy then s
    else match op with
      | none => (s.drew.slvTorn n).slvRecord n .torn 1 0 (s.freeVal 32)
      | some o =>
        if o = 1 ∨ o = 2 ∨ o = 3 ∨ (s.on STR_STATUS_LOADER_STATE ∧ (o = 0x20 ∨ o = 0x21)) then s
        else s.drew.slvRecord n .badOp 8 0 (s.freeVal 32)

/-! ### Image operations in loader state (rule R458) -/

/-- An image operation is refused on CSP0: the outcome is recorded when SEL is released. -/
def Dev.imgRefuse (s : Dev) (op : Nat) (a : Nat) (st : Status) (flags : Nat) : Dev :=
  s.setSlvTx 0 (some { op := op, status := st, flags := flags, words := 0, next := a, silent := false })

/-- An image operation runs: the transaction itself records nothing. -/
def Dev.imgRuns (s : Dev) (op a : Nat) : Dev :=
  s.setSlvTx 0 (some { op := op, status := .ok, flags := 0, words := 0, next := a, silent := true })

/-- IMG_ERASE of the slot at `a`: at once where a grant is in force, else after a press in the presence window. -/
def Dev.imgErase (s : Dev) (a : Nat) : Dev :=
  if !s.on STR_STATUS_LOADER_STATE ∨ !s.slvServes 0 ∨ (s.slvTx 0).isSome then s
  else if s.imgBusy then
    s.setSlvTx 0 (some { op := 0x20, status := .busy, flags := 0, words := 0, next := a, silent := true })
  else if a ≠ 0x10000000 ∧ a ≠ 0x10400000 then s.imgRefuse 0x20 a Config.imgStatus 0
  else
    let b := a == 0x10400000
    if s.imgEraseBusy b then s.imgRefuse 0x20 a .busy 0
    else if s.granted then (s.imgRuns 0x20 a).imgEraseGo b
    else if s.boot.op.isSome ∨ s.on PRS_STATUS_WAITING then s.imgRefuse 0x20 a .busy 0
    else ((s.imgRuns 0x20 a).onBoot fun x => { x with imgErase := some b }).windowOpen

/-- May the slot be programmed: a grant in force, or an IMG_ERASE granted since the reset? -/
def Dev.imgMay (s : Dev) (b : Bool) : Bool := s.granted || s.boot.imgGrant.contains b

/-- The first failing condition of rule R350 for an IMG_PROGRAM, with the host's words as source. -/
def Dev.imgFlash (s : Dev) (a : Nat) : Status :=
  let x := (a - 0x10000000) / 0x400000
  let o := (a - 0x10000000) % 0x400000
  let b := o / 0x10000
  let p := o % 0x10000 / 512
  if a < 0x10000000 ∨ 0x10800000 ≤ a then .badCommand
  else if !s.flashReady x then .busy
  else if a % 512 ≠ 0 ∨ 8 ≤ b then .badCommand
  else if s.slotLocked x b then .structureLocked
  else if s.blockHeld x b then .busy
  else if p < s.pagePtr x b then .order
  else if !s.pageBlank x b p then .notBlank
  else .ok

/-- What an IMG_PROGRAM is refused with: rule R350 and presence stand in no order, so the lower code counts (rule R12). -/
def Dev.imgCheck (s : Dev) (a : Nat) : Status :=
  worse (s.imgFlash a) (if s.imgMay (0x10400000 ≤ a) then .ok else .presenceRequired)

/-- IMG_PROGRAM of the page at `a` with the words the host sent. -/
def Dev.imgProgram (s : Dev) (a : Nat) (data : List Word) : Dev :=
  if !s.on STR_STATUS_LOADER_STATE ∨ !s.slvServes 0 ∨ (s.slvTx 0).isSome then s
  else if s.imgBusy then
    s.setSlvTx 0 (some { op := 0x21, status := .busy, flags := 0, words := 0, next := a, silent := true })
  else if data.length < 128 then s.imgRefuse 0x21 a .torn 1
  else if 128 < data.length then s.imgRefuse 0x21 a .badOp 8
  else if s.imgCheck a ≠ .ok then s.imgRefuse 0x21 a (s.imgCheck a) 0
  else
    let x := (a - 0x10000000) / 0x400000
    let o := (a - 0x10000000) % 0x400000
    let l := data.flatMap fun w => leBytes 4 w.toNat
    let s := (s.rebuildPtr x (o / 0x10000)).onArr x fun r => { r with holder := 9 }
    let s := s.flashAccept x (if (s.arr x).susp.isSome then 4 else 1)
      { op := 1, block := o / 0x10000, page := o % 0x10000 / 512, data := l, chk := chkOf l, off := 0 }
    (s.imgRuns 0x21 a).onBoot fun b => { b with imgProg := some a }

/-! ### Meanings -/

/-- A meaning over the device and the fuse bank. -/
def onHost (g : Fuses → Dev → Dev × Fuses) (s : State) : Host.Outcome State Fault Refusal :=
  let r := g s.fuses s.dev
  .next { s with dev := r.1, fuses := r.2 }

/-- MILXON_READ (rules R449 to R453 and R455 to R458). -/
def execMilxonRead (src : MxFrom) (count : BitVec 16) (s : State) : Host.Outcome State Fault Refusal :=
  onHost (fun f d => match src with
    | .wired => d.mxNext f 1
    | .csp n flags _ addr => d.slvRun f n 1 flags.toNat addr.toNat (List.replicate count.toNat none)) s
/-- MILXON_WRITE (rules R449 to R453 and R455 to R458). -/
def execMilxonWrite (src : MxFrom) (data : List Word) (s : State) : Host.Outcome State Fault Refusal :=
  onHost (fun f d => match src with
    | .wired => d.mxNext f 2
    | .csp n flags _ addr => d.slvRun f n 2 flags.toNat addr.toNat (data.map some)) s
/-- MILXON_PING (rules R449 to R453 and R455 to R458). -/
def execMilxonPing (src : MxFrom) (count : Fin 5) (s : State) : Host.Outcome State Fault Refusal :=
  onHost (fun f d => match src with
    | .wired => d.mxNext f 3
    | .csp n _ _ _ => (d.slvPing n count, f)) s
/-- IMG_ERASE (rule R458). -/
def execImgErase (addr : Word) (s : State) : Host.Outcome State Fault Refusal := onDev (fun s => s.imgErase addr.toNat) s
/-- IMG_PROGRAM (rules R350 and R458). -/
def execImgProgram (addr : Word) (data : List Word) (s : State) : Host.Outcome State Fault Refusal :=
  onDev (fun s => s.imgProgram addr.toNat data) s
/-- CSP_SEL_RELEASE (rules R455 and R457). -/
def execCspSelRelease (n : Fin 2) (op : Option Byte) (cut : Bool) (s : State) : Host.Outcome State Fault Refusal :=
  onDev (fun s => s.selRelease n op cut) s

end Sys2Proof.Machine
end

