-- ==== Sys2Proof/Machine/Dispatch.lean ====
section
/-!
DEFINITION. The dispatch of a command to its meaning: one arm for every command of the table.
-/

namespace Sys2Proof.Machine

def exec (i : Instr) (s : State) : Host.Outcome State Fault Refusal :=
  match i with
  | .memoryAccess port arrivals => Sys2Proof.Machine.execMemoryAccess port arrivals s
  | .registerWrite ini a v same => Sys2Proof.Machine.execRegisterWrite ini a v same s
  | .rsCounterRead ini a => Sys2Proof.Machine.execRsCounterRead ini a s
  | .strLockLogRead ini => Sys2Proof.Machine.execStrLockLogRead ini s
  | .latchingLoRead ini r => Sys2Proof.Machine.execLatchingLoRead ini r s
  | .powerOnReset => Sys2Proof.Machine.execPowerOnReset s
  | .resetRelease strap => Sys2Proof.Machine.execResetRelease strap s
  | .imageCmacDone => Sys2Proof.Machine.execImageCmacDone s
  | .imageLoadLock => Sys2Proof.Machine.execImageLoadLock s
  | .strConfirm ini key => Sys2Proof.Machine.execStrConfirm ini key s
  | .strArm ini slot => Sys2Proof.Machine.execStrArm ini slot s
  | .strWarmRestructure ini slot => Sys2Proof.Machine.execStrWarmRestructure ini slot s
  | .strFullRestructure ini slot auto => Sys2Proof.Machine.execStrFullRestructure ini slot auto s
  | .strUnlockDebug ini => Sys2Proof.Machine.execStrUnlockDebug ini s
  | .strFactoryReset ini => Sys2Proof.Machine.execStrFactoryReset ini s
  | .strEraseAllPockets ini => Sys2Proof.Machine.execStrEraseAllPockets ini s
  | .strVerifyDone => Sys2Proof.Machine.execStrVerifyDone s
  | .presBtnPress => Sys2Proof.Machine.execPresBtnPress s
  | .presBtnHold => Sys2Proof.Machine.execPresBtnHold s
  | .presenceWindowExpiry => Sys2Proof.Machine.execPresenceWindowExpiry s
  | .warmCommit => Sys2Proof.Machine.execWarmCommit s
  | .sealCheck same => Sys2Proof.Machine.execSealCheck same s
  | .sealGrantExpiry => Sys2Proof.Machine.execSealGrantExpiry s
  | .gainBlock b c peak => Sys2Proof.Machine.execGainBlock b c peak s
  | .gainClip b c => Sys2Proof.Machine.execGainClip b c s
  | .narrowHop ini b khz => Sys2Proof.Machine.execNarrowHop ini b khz s
  | .deferredHopStart b => Sys2Proof.Machine.execDeferredHopStart b s
  | .retuneLock b => Sys2Proof.Machine.execRetuneLock b s
  | .synthUnlock b sent => Sys2Proof.Machine.execSynthUnlock b sent s
  | .txDecisionPoint p die energy seen ring => Sys2Proof.Machine.execTxDecisionPoint p die energy seen ring s
  | .txFirstSymbol p => Sys2Proof.Machine.execTxFirstSymbol p s
  | .vswrFoldback p rl => Sys2Proof.Machine.execVswrFoldback p rl s
  | .txFrameEnd p rl fwd => Sys2Proof.Machine.execTxFrameEnd p rl fwd s
  | .txReadFailCut p sent unit => Sys2Proof.Machine.execTxReadFailCut p sent unit s
  | .turnRxDone b => Sys2Proof.Machine.execTurnRxDone b s
  | .txpDisable ini p v => Sys2Proof.Machine.execTxpDisable ini p v s
  | .calRequest ini b deadline item => Sys2Proof.Machine.execCalRequest ini b deadline item s
  | .calItemStart b item => Sys2Proof.Machine.execCalItemStart b item s
  | .calItemDone b => Sys2Proof.Machine.execCalItemDone b s
  | .calDeadline b item => Sys2Proof.Machine.execCalDeadline b item s
  | .recalDue b die => Sys2Proof.Machine.execRecalDue b die s
  | .startCalDone b => Sys2Proof.Machine.execStartCalDone b s
  | .bandRestoreDone b => Sys2Proof.Machine.execBandRestoreDone b s
  | .preambleDetect n branch ts => Sys2Proof.Machine.execPreambleDetect n branch ts s
  | .diversityDecision n snrA snrB => Sys2Proof.Machine.execDiversityDecision n snrA snrB s
  | .syncMatch n branch seen ts m => Sys2Proof.Machine.execSyncMatch n branch seen ts m s
  | .syncTimeout n ring => Sys2Proof.Machine.execSyncTimeout n ring s
  | .liningFire n branch seen before det ts m stronger => Sys2Proof.Machine.execLiningFire n branch seen before det ts m stronger s
  | .headerDone n phr tail staged ring => Sys2Proof.Machine.execHeaderDone n phr tail staged ring s
  | .researchReachLive n => Sys2Proof.Machine.execResearchReachLive n s
  | .sleeveFrameEnd n e psdu m => Sys2Proof.Machine.execSleeveFrameEnd n e psdu m s
  | .slvChanWrite ini n v => Sys2Proof.Machine.execSlvChanWrite ini n v s
  | .slvDeferredApply n => Sys2Proof.Machine.execSlvDeferredApply n s
  | .reportRingSizeWrite ini k v => Sys2Proof.Machine.execReportRingSizeWrite ini k v s
  | .reportRingOff k => Sys2Proof.Machine.execReportRingOff k s
  | .sleeveArm w => Sys2Proof.Machine.execSleeveArm w s
  | .sleeveDisarm n => Sys2Proof.Machine.execSleeveDisarm n s
  | .sleeveStateTimeout n buffer => Sys2Proof.Machine.execSleeveStateTimeout n buffer s
  | .sleeveRestartDone n => Sys2Proof.Machine.execSleeveRestartDone n s
  | .sleeveSelftestStart => Sys2Proof.Machine.execSleeveSelftestStart s
  | .sleeveSelftestDone p pass => Sys2Proof.Machine.execSleeveSelftestDone p pass s
  | .sleeveRotationSwap p => Sys2Proof.Machine.execSleeveRotationSwap p s
  | .sleeveRotationTimeout p => Sys2Proof.Machine.execSleeveRotationTimeout p s
  | .completionRingSizeWrite ini p k v => Sys2Proof.Machine.execCompletionRingSizeWrite ini p k v s
  | .completionRingOff p k => Sys2Proof.Machine.execCompletionRingOff p k s
  | .slowIncMeasure counts => Sys2Proof.Machine.execSlowIncMeasure counts s
  | .slowSourceHandover => Sys2Proof.Machine.execSlowSourceHandover s
  | .trefGate counts => Sys2Proof.Machine.execTrefGate counts s
  | .trefClkLost => Sys2Proof.Machine.execTrefClkLost s
  | .trefPhaseAdjWrite ini v => Sys2Proof.Machine.execTrefPhaseAdjWrite ini v s
  | .slewDone => Sys2Proof.Machine.execSlewDone s
  | .trefStep ini v => Sys2Proof.Machine.execTrefStep ini v s
  | .ppsInEdge rising frac => Sys2Proof.Machine.execPpsInEdge rising frac s
  | .ppsOutPulse => Sys2Proof.Machine.execPpsOutPulse s
  | .ppsOutWidthEnd => Sys2Proof.Machine.execPpsOutWidthEnd s
  | .seRun ini v => Sys2Proof.Machine.execSeRun ini v s
  | .slotBoundary => Sys2Proof.Machine.execSlotBoundary s
  | .prepEvent k asn plans upset => Sys2Proof.Machine.execPrepEvent k asn plans upset s
  | .prepDone k => Sys2Proof.Machine.execPrepDone k s
  | .nextEntryFetch sf i1 => Sys2Proof.Machine.execNextEntryFetch sf i1 s
  | .txCompletionProcess p k => Sys2Proof.Machine.execTxCompletionProcess p k s
  | .ackWindowEnd k => Sys2Proof.Machine.execAckWindowEnd k s
  | .agingWrap => Sys2Proof.Machine.execAgingWrap s
  | .expectedExchangeMiss p => Sys2Proof.Machine.execExpectedExchangeMiss p s
  | .leTick k => Sys2Proof.Machine.execLeTick k s
  | .leSpareReady k => Sys2Proof.Machine.execLeSpareReady k s
  | .leRestartDone k => Sys2Proof.Machine.execLeRestartDone k s
  | .leSelftestStart => Sys2Proof.Machine.execLeSelftestStart s
  | .leSelftestDone pass => Sys2Proof.Machine.execLeSelftestDone pass s
  | .leRotationSwap => Sys2Proof.Machine.execLeRotationSwap s
  | .ptAdd ini => Sys2Proof.Machine.execPtAdd ini s
  | .ptUpdate ini => Sys2Proof.Machine.execPtUpdate ini s
  | .ptDelete ini => Sys2Proof.Machine.execPtDelete ini s
  | .ptReenter ini => Sys2Proof.Machine.execPtReenter ini s
  | .ptLookup ini => Sys2Proof.Machine.execPtLookup ini s
  | .keyIndexRebuild => Sys2Proof.Machine.execKeyIndexRebuild s
  | .rxReportProcess k req upset => Sys2Proof.Machine.execRxReportProcess k req upset s
  | .rxVerdict k p preamble ack frags => Sys2Proof.Machine.execRxVerdict k p preamble ack frags s
  | .reassemblyTimeout p origin kind txn => Sys2Proof.Machine.execReassemblyTimeout p origin kind txn s
  | .submission sub frags => Sys2Proof.Machine.execSubmission sub frags s
  | .submissionRelease sub frags => Sys2Proof.Machine.execSubmissionRelease sub frags s
  | .txnTimeout txn frags => Sys2Proof.Machine.execTxnTimeout txn frags s
  | .txnResend txn frags => Sys2Proof.Machine.execTxnResend txn frags s
  | .mlCompletionRelease sub => Sys2Proof.Machine.execMlCompletionRelease sub s
  | .descFree ini v => Sys2Proof.Machine.execDescFree ini v s
  | .mlEnable ini v => Sys2Proof.Machine.execMlEnable ini v s
  | .ceSubmit ini r a upset => Sys2Proof.Machine.execCeSubmit ini r a upset s
  | .ceRequestStart e upset => Sys2Proof.Machine.execCeRequestStart e upset s
  | .ceStreamOutput e => Sys2Proof.Machine.execCeStreamOutput e s
  | .ceRequestDone e => Sys2Proof.Machine.execCeRequestDone e s
  | .ceAccessFail e => Sys2Proof.Machine.execCeAccessFail e s
  | .ceEngineFault e => Sys2Proof.Machine.execCeEngineFault e s
  | .ceRotationTest pass => Sys2Proof.Machine.execCeRotationTest pass s
  | .ceRotationSwap => Sys2Proof.Machine.execCeRotationSwap s
  | .pocketWriteWrapped ini => Sys2Proof.Machine.execPocketWriteWrapped ini s
  | .pocketWriteClear ini => Sys2Proof.Machine.execPocketWriteClear ini s
  | .pocketGenerate ini => Sys2Proof.Machine.execPocketGenerate ini s
  | .pocketExport ini => Sys2Proof.Machine.execPocketExport ini s
  | .pocketErase ini => Sys2Proof.Machine.execPocketErase ini s
  | .pocketEraseComplete n => Sys2Proof.Machine.execPocketEraseComplete n s
  | .pocketEraseNow ini => Sys2Proof.Machine.execPocketEraseNow ini s
  | .entropyStartupTest samples => Sys2Proof.Machine.execEntropyStartupTest samples s
  | .entropyTestFail apt => Sys2Proof.Machine.execEntropyTestFail apt s
  | .entropyRetry => Sys2Proof.Machine.execEntropyRetry s
  | .drbgReseed samples => Sys2Proof.Machine.execDrbgReseed samples s
  | .randomRefill => Sys2Proof.Machine.execRandomRefill s
  | .pckRandomRead ini => Sys2Proof.Machine.execPckRandomRead ini s
  | .pckFailsRead ini => Sys2Proof.Machine.execPckFailsRead ini s
  | .patrolTick => Sys2Proof.Machine.execPatrolTick s
  | .wvRetireCmd ini a => Sys2Proof.Machine.execWvRetireCmd ini a s
  | .wvTestKey ini key => Sys2Proof.Machine.execWvTestKey ini key s
  | .writeRaw ini => Sys2Proof.Machine.execWriteRaw ini s
  | .readRaw ini => Sys2Proof.Machine.execReadRaw ini s
  | .segmentScrubDone m => Sys2Proof.Machine.execSegmentScrubDone m s
  | .flashProgram a ini raw => Sys2Proof.Machine.execFlashProgram a ini raw s
  | .flashErase a ini => Sys2Proof.Machine.execFlashErase a ini s
  | .blankCheck a ini => Sys2Proof.Machine.execBlankCheck a ini s
  | .marginPgm a ini => Sys2Proof.Machine.execMarginPgm a ini s
  | .marginErs a ini => Sys2Proof.Machine.execMarginErs a ini s
  | .flashRetire a ini => Sys2Proof.Machine.execFlashRetire a ini s
  | .flashProgramDone a pulses ok => Sys2Proof.Machine.execFlashProgramDone a pulses ok s
  | .flashEraseDone a pulses ok => Sys2Proof.Machine.execFlashEraseDone a pulses ok s
  | .flashCheckDone a shifted => Sys2Proof.Machine.execFlashCheckDone a shifted s
  | .retireCopyDone a => Sys2Proof.Machine.execRetireCopyDone a s
  | .flashSuspend a ini verified => Sys2Proof.Machine.execFlashSuspend a ini verified s
  | .flashResume a ini => Sys2Proof.Machine.execFlashResume a ini s
  | .lockstepMismatch x => Sys2Proof.Machine.execLockstepMismatch x s
  | .pairSelftestStart => Sys2Proof.Machine.execPairSelftestStart s
  | .pairSelftestDone pass => Sys2Proof.Machine.execPairSelftestDone pass s
  | .pairHandover ini => Sys2Proof.Machine.execPairHandover ini s
  | .icacheLock ini x v => Sys2Proof.Machine.execIcacheLock ini x v s
  | .icacheLockDone x => Sys2Proof.Machine.execIcacheLockDone x s
  | .plicClaim ini => Sys2Proof.Machine.execPlicClaim ini s
  | .plicComplete ini id => Sys2Proof.Machine.execPlicComplete ini id s
  | .mailboxWrite ini v => Sys2Proof.Machine.execMailboxWrite ini v s
  | .mailboxRead ini => Sys2Proof.Machine.execMailboxRead ini s
  | .wdtKick ini x key => Sys2Proof.Machine.execWdtKick ini x key s
  | .wdtWarn x => Sys2Proof.Machine.execWdtWarn x s
  | .wdtExpire x => Sys2Proof.Machine.execWdtExpire x s
  | .engineWdtExpire e => Sys2Proof.Machine.execEngineWdtExpire e s
  | .debugDmiAccess write a v => Sys2Proof.Machine.execDebugDmiAccess write a v s
  | .gtWrap k => Sys2Proof.Machine.execGtWrap k s
  | .gtCompareMatch k c => Sys2Proof.Machine.execGtCompareMatch k c s
  | .gtCapture k c rising ticks => Sys2Proof.Machine.execGtCapture k c rising ticks s
  | .gtReloadCommit ini k v ticks => Sys2Proof.Machine.execGtReloadCommit ini k v ticks s
  | .gtCntWrite ini k v => Sys2Proof.Machine.execGtCntWrite ini k v s
  | .gtValWrite ini k c v => Sys2Proof.Machine.execGtValWrite ini k c v s
  | .gtLoRead ini k c ticks => Sys2Proof.Machine.execGtLoRead ini k c ticks s
  | .gtValHiRead ini k c => Sys2Proof.Machine.execGtValHiRead ini k c s
  | .gtCaptureReadTimeout k c => Sys2Proof.Machine.execGtCaptureReadTimeout k c s
  | .domainRequest ini v => Sys2Proof.Machine.execDomainRequest ini v s
  | .enterRun ini => Sys2Proof.Machine.execEnterRun ini s
  | .enterDoze ini => Sys2Proof.Machine.execEnterDoze ini s
  | .enterSleep ini => Sys2Proof.Machine.execEnterSleep ini s
  | .enterSniff ini => Sys2Proof.Machine.execEnterSniff ini s
  | .enterHibernate ini => Sys2Proof.Machine.execEnterHibernate ini s
  | .sleepEntryStart => Sys2Proof.Machine.execSleepEntryStart s
  | .sleepCommit => Sys2Proof.Machine.execSleepCommit s
  | .wakeArm levels => Sys2Proof.Machine.execWakeArm levels s
  | .wakeSource src => Sys2Proof.Machine.execWakeSource src s
  | .dozeExit => Sys2Proof.Machine.execDozeExit s
  | .regulatorReady => Sys2Proof.Machine.execRegulatorReady s
  | .regulatorTimeout => Sys2Proof.Machine.execRegulatorTimeout s
  | .oscReady => Sys2Proof.Machine.execOscReady s
  | .oscTimeout => Sys2Proof.Machine.execOscTimeout s
  | .pllLocked => Sys2Proof.Machine.execPllLocked s
  | .pllTimeout => Sys2Proof.Machine.execPllTimeout s
  | .wakeRelease => Sys2Proof.Machine.execWakeRelease s
  | .ladderRetry => Sys2Proof.Machine.execLadderRetry s
  | .retryXtal ini ready => Sys2Proof.Machine.execRetryXtal ini ready s
  | .sniffWindowOpen => Sys2Proof.Machine.execSniffWindowOpen s
  | .sniffWindowClose => Sys2Proof.Machine.execSniffWindowClose s
  | .seamRelease ini mask => Sys2Proof.Machine.execSeamRelease ini mask s
  | .slowXtalReady => Sys2Proof.Machine.execSlowXtalReady s
  | .slowXtalTimeout => Sys2Proof.Machine.execSlowXtalTimeout s
  | .supplyWarn verified => Sys2Proof.Machine.execSupplyWarn verified s
  | .supplyRecovered => Sys2Proof.Machine.execSupplyRecovered s
  | .vinMeasure mv => Sys2Proof.Machine.execVinMeasure mv s
  | .wlFrameRx l octets cut ts frac => Sys2Proof.Machine.execWlFrameRx l octets cut ts frac s
  | .linkUp l ability => Sys2Proof.Machine.execLinkUp l ability s
  | .linkDown l cause => Sys2Proof.Machine.execLinkDown l cause s
  | .anTimeout l => Sys2Proof.Machine.execAnTimeout l s
  | .searchRateSwitch l => Sys2Proof.Machine.execSearchRateSwitch l s
  | .sfpModuleChange l absent => Sys2Proof.Machine.execSfpModuleChange l absent s
  | .moduleSettled l => Sys2Proof.Machine.execModuleSettled l s
  | .linkTxFault l => Sys2Proof.Machine.execLinkTxFault l s
  | .linkFaultRelease l => Sys2Proof.Machine.execLinkFaultRelease l s
  | .fdbAgeOut mac vid => Sys2Proof.Machine.execFdbAgeOut mac vid s
  | .ringCheckTimer => Sys2Proof.Machine.execRingCheckTimer s
  | .ringCheckTimeout => Sys2Proof.Machine.execRingCheckTimeout s
  | .ringPortUnblockTimeout l => Sys2Proof.Machine.execRingPortUnblockTimeout l s
  | .ringModeWrite ini v => Sys2Proof.Machine.execRingModeWrite ini v s
  | .internalTx => Sys2Proof.Machine.execInternalTx s
  | .milxonRead src count => Sys2Proof.Machine.execMilxonRead src count s
  | .milxonWrite src data => Sys2Proof.Machine.execMilxonWrite src data s
  | .milxonPing src count => Sys2Proof.Machine.execMilxonPing src count s
  | .imgErase addr => Sys2Proof.Machine.execImgErase addr s
  | .imgProgram addr data => Sys2Proof.Machine.execImgProgram addr data s
  | .milxonEvent => Sys2Proof.Machine.execMilxonEvent s
  | .milxonEventGapEnd => Sys2Proof.Machine.execMilxonEventGapEnd s
  | .cspSelRelease n op cut => Sys2Proof.Machine.execCspSelRelease n op cut s
  | .cspMasterStart ini n v => Sys2Proof.Machine.execCspMasterStart ini n v s
  | .cspMasterDone n data => Sys2Proof.Machine.execCspMasterDone n data s
  | .cspRdyTimeout n data => Sys2Proof.Machine.execCspRdyTimeout n data s
  | .uartRxByte u b framing parity brk => Sys2Proof.Machine.execUartRxByte u b framing parity brk s
  | .uartDataWrite ini u v => Sys2Proof.Machine.execUartDataWrite ini u v s
  | .uartDataRead ini u => Sys2Proof.Machine.execUartDataRead ini u s
  | .uartRxTimeout u => Sys2Proof.Machine.execUartRxTimeout u s
  | .uartDeRelease u => Sys2Proof.Machine.execUartDeRelease u s
  | .i2cStart ini i1 v => Sys2Proof.Machine.execI2cStart ini i1 v s
  | .i2cDone i1 outcome wdone data => Sys2Proof.Machine.execI2cDone i1 outcome wdone data s
  | .i2cTimeout i1 wdone data => Sys2Proof.Machine.execI2cTimeout i1 wdone data s
  | .gpioEdge l rising => Sys2Proof.Machine.execGpioEdge l rising s
  | .gpioSet ini m => Sys2Proof.Machine.execGpioSet ini m s
  | .gpioClr ini m => Sys2Proof.Machine.execGpioClr ini m s
  | .gpioToggle ini m => Sys2Proof.Machine.execGpioToggle ini m s
  | .fltRetire ini unit => Sys2Proof.Machine.execFltRetire ini unit s
  | .fltAckLasting ini => Sys2Proof.Machine.execFltAckLasting ini s
  | .outageMeterTick => Sys2Proof.Machine.execOutageMeterTick s
  | .plannedIntervalEnd => Sys2Proof.Machine.execPlannedIntervalEnd s
  | .supplyRise => Sys2Proof.Machine.execSupplyRise s
  | .recoveringStart => Sys2Proof.Machine.execRecoveringStart s
  | .trefClkRestored => Sys2Proof.Machine.execTrefClkRestored s
  | .slotGateChange b gate => Sys2Proof.Machine.execSlotGateChange b gate s
  | .pairRestartDone x => Sys2Proof.Machine.execPairRestartDone x s
  | .ceRestartDone e => Sys2Proof.Machine.execCeRestartDone e s
  | .sarnisRestartDone => Sys2Proof.Machine.execSarnisRestartDone s
  | .cePowerupTestDone pass0 pass1 => Sys2Proof.Machine.execCePowerupTestDone pass0 pass1 s
  | .uartTxCharSent u => Sys2Proof.Machine.execUartTxCharSent u s
  | .egressFrameSent p ts frac => Sys2Proof.Machine.execEgressFrameSent p ts frac s

end Sys2Proof.Machine
end

