-- ==== Sys2Proof/Safety.lean ====
section
/-!
DEFINITION. What the claims hold runs against: the fuse bank that no step takes back, and memory in its canonical form.
-/

namespace Sys2Proof.Machine

/-- The fuse bank as the one-way device it is (rules R48 to R50): keys stand, the floor never falls, a raise counts up and
never beyond 128, and a revoked key stays revoked. -/
structure FusesKeep (f g : Fuses) : Prop where
  key0 : g.key0 = f.key0
  key1 : g.key1 = f.key1
  device : g.device = f.device
  floor : f.floor ≤ g.floor
  raises : f.raises ≤ g.raises
  limit : f.raises ≤ 128 → g.raises ≤ 128
  spent : f.floor ≠ g.floor → g.raises = f.raises + 1
  revoked0 : f.revoked0 = true → g.revoked0 = true
  revoked1 : f.revoked1 = true → g.revoked1 = true

/-- A state that a run may reach: at most 128 floor raises, memory and check bytes in canonical form. -/
structure State.Sound (s : State) : Prop where
  raises : s.fuses.raises ≤ 128
  memory : Memory.wf s.dev = true

/-- Command `c` completes on `s`: it answers a next state, the queue as it was, whose device has `P`. -/
def Does (c : Instr) (s : State) (P : Dev → Prop) : Prop :=
  ∃ t, exec c s = .next t ∧ t.pending = s.pending ∧ P t.dev

/-- May initiator `ini` reach the register at `a` now: a window it has a route to, powered (rules R28 to R31)? -/
def Open (s : State) (ini a : Nat) : Prop := ∃ w, s.dev.reach ini a = (.ok, some (.win w))

/-- Every register but the ones at the addresses named is as it was. -/
def RegsKeep (s t : Dev) (but : List Nat) : Prop := ∀ a, a ∉ but → t.reg a = s.reg a

/-- Every byte of every memory, and every check byte, is as it was. -/
def MemKeeps (s t : Dev) : Prop := t.mem = s.mem ∧ t.chk = s.chk

/-- Registers but the ones named, memory and check bytes are as they were. -/
def Keeps (s t : Dev) (but : List Nat) : Prop := RegsKeep s t but ∧ MemKeeps s t

/-- No sleeve of band `b` is inside a frame or a re-search or has just ended one, and no retirement of an aerial waits. -/
abbrev Quiet (s : Dev) (b : Nat) : Prop :=
  (∀ n ∈ s.ofBand b, s.on (SLV_STATE_IN_FRAME n) = false ∧ (s.sleeve n).frame = none ∧ (s.sleeve n).research = false ∧
    ∀ e, (s.sleeve n).ended = some e → e.1 ≠ s.now) ∧ (s.band b).retire = []

/-- A record of up to 64 bytes at `a` lies below the register windows. -/
abbrev BelowWindows (a : Nat) : Prop := a + 64 ≤ 0x40000000

/-- The registers whose write does something of its own beside what Table 00-6 says: commands, rings, and what the timers, sleeves
and slot engine defer. -/
def ownWrite (a : Nat) : Bool :=
  [SYS_PAIR_CTL, SYS_MBOX, SYS_WDT_CFG 0, SYS_WDT_CFG 1, SYS_WDT_KICK 0, SYS_WDT_KICK 1, SYS_ICLOCK_SIZE 0, SYS_ICLOCK_SIZE 1,
   STR_CMD, STR_CONFIRM, MNT_ENTER, MNT_DOMAIN, MNT_SEAM, MNT_LADDER, GPIO_SET, GPIO_CLR, GPIO_TOGGLE, TREF_CTRL,
   TREF_RATE_ADJ, TREF_PHASE_ADJ, TREF_STEP, FLC_CMD 0, FLC_CMD 1, FLC_SUSPEND 0, FLC_SUSPEND 1, WV_RETIRE_CMD, WV_TEST_KEY,
   WV_TEST_CMD, PCK_CMD, SE_CTRL, SE_SOURCE, ML_CFG, ML_DESC_FREE, PT_CMD, ML_RA_CFG, WL_CFG 0, WL_CFG 1, FSW_CFG, FSW_RING,
   FSW_IRX_SIZE, FSW_ITX_SIZE, FSW_IRX_BASE, FSW_ITX_BASE, FLT_CMD, FLT_CFG, FLT_LOG_RD].contains a || mlFixed.contains a ||
  (List.range 2).any (fun b => [RF_CHAINS b, RF_NARROW b, RF_GAIN b, RF_CAL_REQ b, TXP_CONFIG b, I2C_CFG b, I2C_CMD b].contains a) ||
  (List.range 4).any (fun u => [UART_DATA u, UART_CFG u, UART_RS485 u].contains a) ||
  (List.range 8).any (fun n => [CSP_CFG n, CSP_M_CMD n].contains a) ||
  (List.range 10).any (fun r => a == CE_SUB_ADDR r) ||
  (List.range 6).any (fun k => [TXP_CQ_SIZE 0 k, TXP_CQ_BASE 0 k, TXP_CQ_SIZE 1 k, TXP_CQ_BASE 1 k, SLV_RQ_SIZE k, SLV_RQ_BASE k].contains a) ||
  (List.range 9).any (fun j => [ML_RING_SIZE j, ML_RING_BASE j].contains a) ||
  (decide (GT_CTRL 0 ≤ a ∧ a < GT_CTRL 8) && decide (a % 0x1000 < 0x60)) ||
  (decide (SLV_ASSIGN 0 ≤ a ∧ a < SLV_ASSIGN 32) &&
    (let n := (a - SLV_ASSIGN 0) / 0x400
     a == SLV_CHAN n || a == SLV_CTRL n || decide (SLV_FSK n ≤ a ∧ a ≤ SLV_MAX_PSDU n))) ||
  decide (SE_ANCHOR_ASN_LO ≤ a ∧ a ≤ SE_TEMPLATE1) || decide (SE_SF_CFG 0 ≤ a ∧ a < SE_SF_CFG 8)

/-- The registers whose read does something of its own beside what rule R7 says. -/
def ownRead (a : Nat) : Bool :=
  [TREF_TIME_LO, TREF_PPS_CAP_LO, SE_ASN_LO, PCK_FAILS, PCK_RANDOM].contains a ||
  (List.range 4).any (fun u => a == UART_DATA u) ||
  (decide (GT_CTRL 0 ≤ a ∧ a < GT_CTRL 8) && decide (a % 0x1000 < 0x60))

/-- Nothing waits for a flash operation: no image program, no record or erase of the journal, no structure operation. -/
abbrev FlashQuiet (s : Dev) : Prop :=
  s.boot.imgProg = none ∧ s.sec.journal = [] ∧ s.sec.jErase = [] ∧ s.sec.jNext < 1024 ∧ s.boot.op = none

/-- No line of the trigger matrix names a source. -/
abbrev NoLines (s : Dev) : Prop := ∀ l < 16, s.rd (GT_TRIG_SOURCE l) = 0xFF

/-- The control registers of the timers: GATED and CLK_EXT follow the lines. -/
abbrev timerCtls : List Nat := (List.range 8).map GT_CTRL

/-- The registers that a new evaluation of the delivered service writes (rules R482 to R484). -/
abbrev svcRegs : List Nat :=
  [FLT_SVC_NOW_0, FLT_SVC_NOW_1, FLT_SVC_NOW_2, FLT_STATUS, FLT_EVENTS, FLT_OUTAGE_MAX, FLT_LOG_WR, FLT_LOG_RD, FLT_LOG_LOST,
   GPIO_HOST_EVT]

/-- No frame of wired port `p` carries a descriptor that waits for its time stamp. -/
def NoStamps (s : Dev) (p : Nat) : Prop :=
  (∀ q f, f ∈ (s.eport p).queue q → f.tx = none) ∧ ∀ f, (s.eport p).sending = some f → f.tx = none

/-- What the slot engine issues for engine `k` and the entry that link `l` names, in slot `n` (rule R218). -/
def Dev.issueOf (s : Dev) (l : Link) (k n : Nat) : Issued :=
  { path := l.band - 1, le := k, link := l.addr, entry := l.next, desc := s.qDesc l.next, partner := l.partner, asn := n,
    ts := s.sendAt l.partner n, ackReq := s.qAckReq l.next, shared := l.shared, charges := [] }

end Sys2Proof.Machine
end

