-- ==== Sys2Proof/Certificates/Slice0/Obligations.lean ====
section
/-!
DEFINITION. The statements about the block.
-/

open Sys2Proof Sys2Proof.Machine

/-! ### The block as a machine -/

/-- The interface of the block (DESIGN CHOICE, assumption log 10, for the idle step): a step runs the command at the front of
the queue on the state with the queue's rest. -/
def Obligations.StepRunsFront : Prop :=
  ∀ (c : Instr) (s : State), step { s with pending := c :: s.pending } = exec c s

/-- Every command answers a next state and leaves the queue to the step: one command leaves it, none joins it. -/
def Obligations.EveryCommandCompletes : Prop :=
  ∀ (c : Instr) (s : State), ∃ t, exec c s = .next t ∧ t.pending = s.pending

/-- Rules R48 to R50: no step takes back anything of the fuse bank. Keys stand, the rollback floor never falls, a change
of it spends one of at most 128 raises, and a revoked key stays revoked. -/
def Obligations.FusesAreOneWay : Prop :=
  ∀ (s t : State), step s = .next t → FusesKeep s.fuses t.fuses

/-- Right after reset at most 128 floor raises are spent and memory is in its canonical form. -/
def Obligations.ResetIsSound : Prop := State.Sound .reset

/-- On an empty queue a step is one edge of the clock that drives the timebase (DESIGN CHOICE, assumption log 10): a cycle of the
40 MHz reference, of which a count takes 5, or 4 or 6 where the rate asks for it (rule R185), or a tick of the slow clock, which
adds TREF_SLOW_INC in units of 2^-22 count (rule R186). While a DELETE of the partner table waits for no request, nothing but the
timebase and the phase correction changes. -/
def Obligations.IdleStepCounts : Prop :=
  ∀ s : State, s.pending = [] → s.dev.boot.held = false → s.dev.ml.ptOp = none →
    ∃ t, step s = .next t ∧ t.pending = [] ∧ t.fuses = s.fuses ∧
      RegsKeep s.dev t.dev [TREF_PHASE_ADJ, TREF_STATUS, TREF_EVENTS] ∧ MemKeeps s.dev t.dev ∧
      (s.dev.tb.onSlow = false → s.dev.tb.cyc + 1 < s.dev.tb.period →
        t.dev.now = s.dev.now ∧ t.dev.tb.cyc = s.dev.tb.cyc + 1 ∧ t.dev.tb.period = s.dev.tb.period) ∧
      (s.dev.tb.onSlow = false → s.dev.tb.period ≤ s.dev.tb.cyc + 1 →
        t.dev.now = (s.dev.now + 1) % 2 ^ 48 ∧ t.dev.tb.cyc = 0 ∧ t.dev.tb.period ∈ [4, 5, 6]) ∧
      (s.dev.tb.onSlow = true →
        t.dev.now = (s.dev.now * 2 ^ 22 + s.dev.tb.acc + s.dev.rd TREF_SLOW_INC_INC) / 2 ^ 22 % 2 ^ 48 ∧
        t.dev.tb.acc = (s.dev.now * 2 ^ 22 + s.dev.tb.acc + s.dev.rd TREF_SLOW_INC_INC) % 2 ^ 22)


/-! ### Registers and the fabric -/

/-- Rules R58 and R59: a write that would change an ST field changes no field of any register; it is counted in STR_LOCK_LOG,
its address logged where it is the first since the log was read, and completes with STRUCTURE_LOCKED, a core taking a
fault. -/
def Obligations.StWriteRefused : Prop :=
  ∀ (ini : Ini) (a : BitVec 32) (v same : Word) (s : State),
    a.toNat % 4 = 0 → Open s ini a.toNat →
    s.dev.stChange (gtShared a.toNat) (sameCycle a.toNat v.toNat same.toNat) = true →
    Does (.registerWrite ini a v same) s fun t =>
      RegsKeep s.dev t [STR_LOCK_LOG, STR_LOCK_ADDR] ∧ MemKeeps s.dev t ∧
      t.rd STR_LOCK_LOG_COUNT = min (s.dev.rd STR_LOCK_LOG_COUNT + 1) 255 ∧
      (s.dev.rd STR_LOCK_LOG_COUNT = 0 → t.rd STR_LOCK_ADDR_ADDR = a.toNat ∧ t.rd STR_LOCK_LOG_INITIATOR = ini) ∧
      t.resp.status = .structureLocked ∧ t.resp.fault = isCore ini


/-- Table 00-6 and rules R4 to R6, R30 and R58: a write that changes no ST field, to a register that asks for nothing more, sets the RW bits as
written and clears the W1C bits written as 1, those that hardware set in the same cycle apart; every other bit of it, every other
register and all memory stay, and it answers OK. Where the address names no register, nothing changes. -/
def Obligations.PlainWriteTakes : Prop :=
  ∀ (ini : Ini) (a : BitVec 32) (v same : Word) (s : State), a.toNat % 4 = 0 → Open s ini a.toNat →
    (∀ r, regFind a.toNat = some r → ownWrite a.toNat = false → a.toNat < 0x40004000 ∨ 0x40008000 ≤ a.toNat →
      s.dev.stChange a.toNat (sameCycle a.toNat v.toNat same.toNat) = false →
      Does (.registerWrite ini a v same) s fun t =>
        (∀ i < 32, (t.reg a.toNat).getLsbD i =
          if (rwMask r a.toNat).testBit i then v.getLsbD i
          else if r.w1c.testBit i then (s.dev.reg a.toNat).getLsbD i && !(v.getLsbD i && !same.getLsbD i)
          else (s.dev.reg a.toNat).getLsbD i) ∧
        RegsKeep s.dev t [a.toNat] ∧ MemKeeps s.dev t ∧ t.resp.status = .ok ∧ t.resp.fault = false) ∧
    (a.toNat = FSW_EVENTS →
      Does (.registerWrite ini a v same) s fun t =>
        t.reg FSW_EVENTS = s.dev.reg FSW_EVENTS &&& ~~~(v &&& ~~~same &&& 0x1FF) ∧ RegsKeep s.dev t [FSW_EVENTS] ∧
        MemKeeps s.dev t) ∧
    (a.toNat = FLT_INT_EN →
      Does (.registerWrite ini a v same) s fun t =>
        t.rd FLT_INT_EN_EN = v.toNat % 64 ∧ RegsKeep s.dev t [FLT_INT_EN] ∧ MemKeeps s.dev t) ∧
    (regFind (gtShared a.toNat) = none → ownWrite a.toNat = false → a.toNat < 0x40004000 ∨ 0x40008000 ≤ a.toNat →
      Does (.registerWrite ini a v same) s fun t => Keeps s.dev t [] ∧ t.resp.status = .ok)


/-- Rules R7 and R59: a read of a register with RS fields answers its value and leaves those fields at 0, nothing else changed; a
read of STR_LOCK_LOG answers count and initiator and frees the log for the next first refusal. -/
def Obligations.CounterReadClears : Prop :=
  ∀ (ini : Ini) (s : State),
    (∀ (a : BitVec 32) r, a.toNat % 4 = 0 → Open s ini a.toNat → regFind a.toNat = some r → r.rs ≠ 0 → ownRead a.toNat = false →
      Does (.rsCounterRead ini a) s fun t =>
        t.resp.data = leBytes 4 (s.dev.reg a.toNat).toNat ∧ t.resp.status = .ok ∧
        t.reg a.toNat = s.dev.reg a.toNat &&& ~~~(BitVec.ofNat 32 r.rs) ∧ RegsKeep s.dev t [a.toNat] ∧ MemKeeps s.dev t) ∧
    (Open s ini SYS_FAB_DARN_COUNT →
      Does (.rsCounterRead ini (BitVec.ofNat 32 SYS_FAB_DARN_COUNT)) s fun t =>
        t.resp.data = leBytes 4 (s.dev.reg SYS_FAB_DARN_COUNT).toNat ∧ t.rd SYS_FAB_DARN_COUNT_COUNT = 0 ∧
        RegsKeep s.dev t [SYS_FAB_DARN_COUNT] ∧ MemKeeps s.dev t) ∧
    (Open s ini STR_LOCK_LOG →
      Does (.strLockLogRead ini) s fun t =>
        t.resp.data = leBytes 4 (s.dev.reg STR_LOCK_LOG).toNat ∧ t.rd STR_LOCK_LOG_COUNT = 0 ∧
        t.rd STR_LOCK_LOG_INITIATOR = s.dev.rd STR_LOCK_LOG_INITIATOR ∧ RegsKeep s.dev t [STR_LOCK_LOG] ∧ MemKeeps s.dev t)


/-- Rules R25 and R28: an 8-byte aligned write of 8 bytes by an initiator with a route to a live segment stores those bytes with
their check bytes; every byte of every memory outside the unit's place reads as before, and so does every register. -/
def Obligations.SegmentStore : Prop :=
  ∀ (ini : Ini) (a : BitVec 32) (d : BitVec 64) (n : Nat) (s : State),
    a.toNat % 8 = 0 → s.dev.fab.waiting = [] → s.dev.reach ini a.toNat = (.ok, some (.seg n)) → n < 8 →
    Does (.memoryAccess (Fin.ofNat 15 (4 + n)) [{ ini := ini, addr := a, kind := .write (leBytes 8 d.toNat), flips := [], waited := 0 }]) s
      fun t =>
        t.unitAt (s.dev.place (.seg n) a.toNat) = woven d ∧ t.resp.status = .ok ∧
        (∀ k, (k < s.dev.place (.seg n) a.toNat ∨ s.dev.place (.seg n) a.toNat + 8 ≤ k) → t.byte k = s.dev.byte k) ∧
        (∀ b, t.reg b = s.dev.reg b)

/-- Rules R28 and R29: a read burst of at most 8 bytes to an address that the map does not hold for its initiator, or that it has no
route to, returns zeros with UNMAPPED or ROUTE_DENIED, changes no memory, and a core takes an access fault. -/
def Obligations.DeniedRead : Prop :=
  ∀ (ini : Ini) (a : BitVec 32) (n : Nat) (st : Status) (s : State),
    a.toNat % 8 + n ≤ 8 → 0 < n → s.dev.fab.waiting = [] → s.dev.reach ini a.toNat = (st, none) → st ≠ .notReady →
    s.dev.isWin ini (a.toNat / 8 * 8) = false → s.dev.reach ini (a.toNat / 8 * 8) = (st, none) →
    Does (.memoryAccess 14 [{ ini := ini, addr := a, kind := .read n, flips := [], waited := 0 }]) s fun t =>
      t.resp.status = st ∧ t.resp.data = List.replicate n 0 ∧ t.resp.fault = isCore ini ∧ MemKeeps s.dev t

/-- Rule R188: a read of a latching LO register answers the low 32 bits and leaves the high ones in the HI register. -/
def Obligations.LoReadLatches : Prop :=
  ∀ (ini : Ini) (s : State),
    (Open s ini TREF_TIME_LO → Does (.latchingLoRead ini .time) s fun t =>
      t.resp.data = leBytes 4 (s.dev.now % 2 ^ 32) ∧ t.rd TREF_TIME_HI_TIME = s.dev.now / 2 ^ 32 % 2 ^ 16 ∧
      RegsKeep s.dev t [TREF_TIME_HI]) ∧
    (Open s ini TREF_PPS_CAP_LO → Does (.latchingLoRead ini .ppsCap) s fun t =>
      t.resp.data = leBytes 4 (s.dev.tb.cap % 2 ^ 32) ∧ t.rd TREF_PPS_CAP_HI_TIME = s.dev.tb.cap / 2 ^ 32 % 2 ^ 16 ∧
      RegsKeep s.dev t [TREF_PPS_CAP_HI]) ∧
    (Open s ini SE_ASN_LO → Does (.latchingLoRead ini .asn) s fun t =>
      t.resp.data = leBytes 4 (s.dev.se.asn % 2 ^ 32) ∧ t.rd SE_ASN_HI_ASN = s.dev.se.asn / 2 ^ 32 % 2 ^ 8 ∧
      RegsKeep s.dev t [SE_ASN_HI])


/-! ### Timebase and time-reference port -/

/-- Rules R187, R189 and R190: what a measurement of the slow clock, a gate of TREF_CLK_IN and the loss and return of TREF_CLK_IN do. The first
measurement of a source replaces TREF_SLOW_INC, every later one moves it a quarter of the way; a gate within 10 ppm moves
TREF_RATE_ADJ back by a quarter of its error, inside the clamp of 200 ppm. -/
def Obligations.TimebaseDiscipline : Prop :=
  ∀ s : State,
    (∀ counts, s.dev.boot.held = false → s.dev.tb.onSlow = false → s.dev.tb.fresh = true →
      Does (.slowIncMeasure counts) s fun t => t.rd TREF_SLOW_INC_INC = min 0xFFFFFFFF (counts.toNat * 1024) ∧
        t.tb.fresh = false ∧ t.now = s.dev.now ∧ Keeps s.dev t [TREF_SLOW_INC]) ∧
    (∀ counts, s.dev.boot.held = false → s.dev.tb.onSlow = false → s.dev.tb.fresh = false →
      Does (.slowIncMeasure counts) s fun t =>
        (s.dev.rd TREF_SLOW_INC_INC ≤ counts.toNat * 1024 → counts.toNat * 1024 < 2 ^ 32 →
          t.rd TREF_SLOW_INC_INC = s.dev.rd TREF_SLOW_INC_INC + (counts.toNat * 1024 - s.dev.rd TREF_SLOW_INC_INC) / 4) ∧
        (counts.toNat * 1024 ≤ s.dev.rd TREF_SLOW_INC_INC →
          t.rd TREF_SLOW_INC_INC = s.dev.rd TREF_SLOW_INC_INC - (s.dev.rd TREF_SLOW_INC_INC - counts.toNat * 1024) / 4) ∧
        Keeps s.dev t [TREF_SLOW_INC]) ∧
    (∀ counts : BitVec 24, s.dev.up 1 = true → s.dev.rd TREF_CTRL_MODE = 1 → s.dev.rd TREF_STATUS_CLK_PRESENT = 1 →
      7999920 ≤ counts.toNat → counts.toNat ≤ 8000080 →
      Does (.trefGate counts) s fun t => t.rd TREF_EVENTS_GATE = 1 ∧ t.rd TREF_STATUS_LOCKED = 1 ∧
        t.rd TREF_STATUS_HOLDOVER = 0 ∧ signed 32 (t.rd TREF_CLK_ERR_ERR) = ((counts.toNat : Int) - 8000000) * 128000 ∧
        signed 32 (t.rd TREF_RATE_ADJ_ADJ) = max (-204800000) (min 204800000
          (signed 32 (s.dev.rd TREF_RATE_ADJ_ADJ) - ((counts.toNat : Int) - 8000000) * 32000)) ∧
        Keeps s.dev t [TREF_EVENTS, TREF_STATUS, TREF_CLK_ERR, TREF_RATE_ADJ]) ∧
    (s.dev.up 1 = true → s.dev.rd TREF_CTRL_MODE = 1 →
      Does .trefClkLost s fun t => t.rd TREF_EVENTS_CLK_LOST = 1 ∧ t.rd TREF_STATUS_HOLDOVER = 1 ∧
        t.rd TREF_STATUS_CLK_PRESENT = 0 ∧ Keeps s.dev t [TREF_EVENTS, TREF_STATUS]) ∧
    (s.dev.up 1 = true →
      Does .trefClkRestored s fun t => t.rd TREF_STATUS_CLK_PRESENT = 1 ∧ Keeps s.dev t [TREF_STATUS])

/-- Rules R191 and R192: a phase correction replaces what remained of the last and slews; used up, it reports SLEW_DONE; a step
moves the timebase at once while the slot engine is stopped and is refused with BUSY while it runs. Rules R193 and R194: an edge of
the selected polarity captures the timebase with its fraction; TREF_PPS_OUT rises, where it is enabled, at a count c for which
(c - PHASE) mod PERIOD is 0, and falls at the end of its width, at most half the period. -/
def Obligations.PhaseStepAndPulses : Prop :=
  (∀ (s : State) (ini : Ini) (v : Word),
    (Open s ini TREF_PHASE_ADJ →
      Does (.trefPhaseAdjWrite ini v) s fun t => t.rd TREF_PHASE_ADJ_COUNTS = v.toNat ∧
        t.rd TREF_STATUS_SLEWING = (if v = 0 then 0 else 1) ∧ t.now = s.dev.now ∧ t.resp.status = .ok ∧
        Keeps s.dev t [TREF_PHASE_ADJ, TREF_STATUS]) ∧
    (s.dev.rd TREF_STATUS_SLEWING = 1 → s.dev.tb.onSlow = false →
      Does .slewDone s fun t => t.rd TREF_PHASE_ADJ_COUNTS = 0 ∧ t.rd TREF_STATUS_SLEWING = 0 ∧
        t.rd TREF_EVENTS_SLEW_DONE = 1 ∧ Keeps s.dev t [TREF_PHASE_ADJ, TREF_STATUS, TREF_EVENTS]) ∧
    (s.dev.tb.onSlow = true → Does .slewDone s fun t => t = s.dev) ∧
    (Open s ini TREF_STEP → s.dev.rd SE_CTRL_RUN = 0 →
      Does (.trefStep ini v) s fun t => t.now = unsigned 48 (s.dev.now + signed 32 v.toNat) ∧ t.resp.status = .ok ∧
        Keeps s.dev t []) ∧
    (Open s ini TREF_STEP → s.dev.rd SE_CTRL_RUN = 1 →
      Does (.trefStep ini v) s fun t => t.now = s.dev.now ∧ t.resp.status = .busy ∧ t.rd TREF_EVENTS_STEP_REFUSED = 1 ∧
        Keeps s.dev t [TREF_EVENTS])) ∧
  (∀ s : State,
    (∀ rising frac, s.dev.up 1 = true → s.dev.rd TREF_CTRL_PPS_IN_EN = 1 →
      s.dev.rd TREF_CTRL_EDGE = (if rising then 0 else 1) →
      Does (.ppsInEdge rising frac) s fun t => t.tb.cap = s.dev.now ∧ t.tb.capFrac = frac ∧ t.rd TREF_EVENTS_PPS = 1 ∧
        Keeps s.dev t [TREF_EVENTS]) ∧
    (∀ rising frac, s.dev.rd TREF_CTRL_PPS_IN_EN = 0 → Does (.ppsInEdge rising frac) s fun t => t = s.dev) ∧
    (s.dev.up 1 = true → s.dev.rd TREF_CTRL_PPS_OUT_EN = 1 →
      ((s.dev.now : Int) - (s.dev.rd TREF_PPS_OUT_PHASE_PHASE : Nat)) % (s.dev.ppsPeriod : Int) = 0 →
      Does .ppsOutPulse s fun t => t.tb.ppsOut = true ∧
        t.tb.ppsEnd = tsAdd s.dev.now (min (8 * s.dev.rd TREF_PPS_OUT_WIDTH_WIDTH_US) (s.dev.ppsPeriod / 2) : Nat) ∧
        Keeps s.dev t []) ∧
    (s.dev.rd TREF_CTRL_PPS_OUT_EN = 0 → Does .ppsOutPulse s fun t => t = s.dev) ∧
    (tsLe s.dev.tb.ppsEnd s.dev.now = true →
      Does .ppsOutWidthEnd s fun t => t.tb.ppsOut = false ∧ Keeps s.dev t []) ∧
    (tsLe s.dev.tb.ppsEnd s.dev.now = false → Does .ppsOutWidthEnd s fun t => t = s.dev))


/-! ### Bands: gain, hops, calibration -/

/-- Rules R78 to R82: a block above -HIGH_DBFS steps the chain down by one, UP_HOLD_US of blocks below the low level step it
up, a block in between leaves it; a clip steps it down at once, is counted and reported. Nothing else changes. -/
def Obligations.GainGovernor : Prop :=
  ∀ (s : State) (b c : Fin 2),
    s.dev.manual b c = false → s.dev.govHeld b c = false → (∀ n < 32, s.dev.inFrameOn b c n = false) →
    (∀ peak : Int, -((100 * s.dev.rd (RF_GOV_HIGH_DBFS b) : Nat) : Int) < peak →
      Does (.gainBlock b c peak) s fun t =>
        t.rd (stepFld b c) = s.dev.rd (stepFld b c) - 1 ∧ Keeps s.dev t [RF_GAIN b]) ∧
    (∀ peak : Int, peak < -((100 * s.dev.lowLevel b : Nat) : Int) →
      s.dev.upHold b ≤ (if c.val = 0 then (s.dev.band b).upA else (s.dev.band b).upB) + 2 → s.dev.rd (stepFld b c) < 11 →
      Does (.gainBlock b c peak) s fun t =>
        t.rd (stepFld b c) = s.dev.rd (stepFld b c) + 1 ∧ Keeps s.dev t [RF_GAIN b]) ∧
    (∀ peak : Int, -((100 * s.dev.lowLevel b : Nat) : Int) ≤ peak →
      peak ≤ -((100 * s.dev.rd (RF_GOV_HIGH_DBFS b) : Nat) : Int) →
      Does (.gainBlock b c peak) s fun t => Keeps s.dev t []) ∧
    (Does (.gainClip b c) s fun t =>
      t.rd (stepFld b c) = s.dev.rd (stepFld b c) - 1 ∧ t.rd (RF_EVENTS_CLIP b) = 1 ∧
      t.rd (RF_CLIP_COUNT_COUNT b) = min (s.dev.rd (RF_CLIP_COUNT_COUNT b) + 1) 0xFFFFFFFF ∧
      Keeps s.dev t [RF_GAIN b, RF_CLIP_COUNT b, RF_EVENTS b])

/-- Rules R73 and R74: a write of RFx_NARROW in narrow mode starts a hop from LISTEN or IDLE and waits in the states that
defer it; in wideband mode it is ignored; a hop that waited starts; the lock ends RETUNE. The slot engine writes it where rule R213
has it hop. -/
def Obligations.NarrowHops : Prop :=
  ∀ (s : State) (ini : Ini) (b : Fin 2) (khz : BitVec 24), Quiet s.dev b →
    (Open s ini (RF_NARROW b) → ini ≠ 0x0C ∨ s.dev.hopWanted b khz.toNat = true → s.dev.narrow b = true →
      s.dev.rd (RF_STATE_STATE b) = 4 ∨ s.dev.rd (RF_STATE_STATE b) = 8 →
      Does (.narrowHop ini b khz) s fun t => t.rd (RF_NARROW_CHANNEL_KHZ b) = khz.toNat ∧ (t.band b).target = khz.toNat ∧
        t.rd (RF_STATE_STATE b) = 3 ∧ t.rd (RF_STATE_LOCKED b) = 0 ∧ t.rd (RF_STATE_VCO_BAND b) = vcoBand b khz.toNat ∧
        (∀ n < 32, s.dev.rd (SLV_ASSIGN_BAND n) = b + 1 → t.rd (SLV_CHAN_CHANNEL_KHZ n) = khz.toNat) ∧
        MemKeeps s.dev t) ∧
    (Open s ini (RF_NARROW b) → ini ≠ 0x0C ∨ s.dev.hopWanted b khz.toNat = true → s.dev.narrow b = true →
      s.dev.rd (RF_STATE_STATE b) ∈ [1, 3, 5, 6, 7, 9] →
      Does (.narrowHop ini b khz) s fun t => (t.band b).hop = some khz.toNat ∧ t.rd (RF_NARROW_CHANNEL_KHZ b) = khz.toNat ∧
        Keeps s.dev t [RF_NARROW b]) ∧
    (Open s ini (RF_NARROW b) → s.dev.narrow b = false →
      Does (.narrowHop ini b khz) s fun t => Keeps s.dev t [] ∧ t.bands = s.dev.bands ∧ t.resp.status = .ok) ∧
    (Open s ini (RF_NARROW b) → ini = 0x0C → s.dev.hopWanted b khz.toNat = false →
      Does (.narrowHop ini b khz) s fun t => Keeps s.dev t [] ∧ t.bands = s.dev.bands) ∧
    (∀ f, (s.dev.band b).hop = some f → s.dev.rd (RF_STATE_STATE b) = 4 ∨ s.dev.rd (RF_STATE_STATE b) = 8 →
      Does (.deferredHopStart b) s fun t => (t.band b).hop = none ∧ (t.band b).target = f ∧ t.rd (RF_STATE_STATE b) = 3 ∧
        t.rd (RF_STATE_LOCKED b) = 0 ∧ MemKeeps s.dev t) ∧
    (s.dev.rd (RF_STATE_STATE b) = 3 →
      Does (.retuneLock b) s fun t => t.rd (RF_STATE_STATE b) = s.dev.bandRest b ∧ t.rd (RF_STATE_LOCKED b) = 1 ∧
        t.rd (RF_EVENTS_RETUNE_DONE b) = 1 ∧ (t.band b).savedLo = (s.dev.band b).target ∧ MemKeeps s.dev t)


/-- Rules R101 and R102: a request of RFx_CAL_REQ is queued with its deadline, or refused with NOT_READY, in limp state too, or BUSY;
a die temperature that moved by RECAL_DELTA queues items 1 to 6 without a deadline; a deadline that passes reports CAL_DEFERRED,
the item staying pending. -/
def Obligations.CalibrationQueue : Prop :=
  ∀ (s : State) (ini : Ini) (b : Fin 2) (dl : BitVec 16) (item : Fin 8), 0 < item.val →
    (Open s ini (RF_CAL_REQ b) → s.dev.rd (RF_STATE_STATE b) ≠ 0 → s.dev.rd (RF_STATE_STATE b) ≠ 10 →
      s.dev.rd MNT_STATE_LIMP = 0 → s.dev.calPending b item = false →
      Does (.calRequest ini b dl (item.castLE (by decide))) s fun t =>
        (t.band b).cal = (s.dev.band b).cal ++ [(item.val, dl.toNat, false)] ∧
        t.bit (RF_CAL_STATUS_PENDING b) (item - 1) = true ∧ t.rd (RF_CAL_REQ_DEADLINE_MS b) = dl.toNat ∧
        Keeps s.dev t [RF_CAL_STATUS b, RF_CAL_REQ b]) ∧
    (Open s ini (RF_CAL_REQ b) → s.dev.rd (RF_STATE_STATE b) ≠ 0 → s.dev.rd (RF_STATE_STATE b) ≠ 10 →
      s.dev.rd MNT_STATE_LIMP = 0 → s.dev.calPending b item = true →
      Does (.calRequest ini b dl (item.castLE (by decide))) s fun t => (t.band b).cal = (s.dev.band b).cal ∧
        t.rd (RF_CAL_STATUS_LAST_STATUS b) = Status.busy.code ∧ t.rd (RF_CAL_STATUS_LAST_ITEM b) = item ∧
        Keeps s.dev t [RF_CAL_STATUS b, RF_CAL_REQ b]) ∧
    (Open s ini (RF_CAL_REQ b) →
      s.dev.rd (RF_STATE_STATE b) = 0 ∨ s.dev.rd (RF_STATE_STATE b) = 10 ∨ s.dev.rd MNT_STATE_LIMP = 1 →
      Does (.calRequest ini b dl (item.castLE (by decide))) s fun t => (t.band b).cal = (s.dev.band b).cal ∧
        t.rd (RF_CAL_STATUS_LAST_STATUS b) = Status.notReady.code ∧ t.rd (RF_CAL_STATUS_LAST_ITEM b) = item ∧
        Keeps s.dev t [RF_CAL_STATUS b, RF_CAL_REQ b]) ∧
    ((∃ c ∈ (s.dev.band b).cal, c.1 = item.val ∧ c.2.1 ≠ 0) →
      Does (.calDeadline b item) s fun t => t.calPending b item = true ∧ t.rd (RF_EVENTS_CAL_DEFERRED b) = 1 ∧
        t.rd (RF_CAL_STATUS_LAST_STATUS b) = Status.calDeferred.code ∧ t.rd (RF_CAL_STATUS_LAST_ITEM b) = item ∧
        Keeps s.dev t [RF_CAL_STATUS b, RF_EVENTS b]) ∧
    (∀ die : BitVec 8, s.dev.rd (RF_STATE_STATE b) ≠ 0 → s.dev.rd (RF_STATE_STATE b) ≠ 10 →
      s.dev.recalDelta b ≤ (signed 8 die.toNat - signed 8 (s.dev.rd (RF_CAL_TEMP_LAST_CAL_C b))).natAbs →
      Does (.recalDue b die) s fun t => t.rd (RF_EVENTS_RECAL_DUE b) = 1 ∧ t.rd (RF_CAL_TEMP_DIE_C b) = die.toNat ∧
        (∀ i, 1 ≤ i → i ≤ 6 → t.calPending b i = true) ∧ Keeps s.dev t [RF_CAL_STATUS b, RF_EVENTS b, RF_CAL_TEMP b]) ∧
    (∀ die : BitVec 8,
      (signed 8 die.toNat - signed 8 (s.dev.rd (RF_CAL_TEMP_LAST_CAL_C b))).natAbs < s.dev.recalDelta b →
      Does (.recalDue b die) s fun t => t.rd (RF_CAL_TEMP_DIE_C b) = die.toNat ∧ t.bands = s.dev.bands ∧
        Keeps s.dev t [RF_CAL_TEMP b])


/-- Rules R100, R105 and R107: a pending chain item starts in the gap of its chain and leaves the band listening, a band item
applies the blank, item 7 in START_CAL; a done item reports OK and the die temperature it was taken at, a done item of a start-up
calibration starts the next of its order; after start-up calibration or restore the band retunes. -/
def Obligations.CalibrationRuns : Prop :=
  ∀ (s : State) (b : Fin 2), Quiet s.dev b →
    (∀ item : Fin 8, s.dev.calPending b item = true → 1 ≤ item.val → item.val ≤ 2 → s.dev.calGap b item = true →
      Does (.calItemStart b item) s fun t => t.rd (RF_STATE_CAL_ITEM b) = item ∧ t.calPending b item = false ∧
        t.rd (RF_STATE_STATE b) = s.dev.rd (RF_STATE_STATE b) ∧ Keeps s.dev t [RF_CAL_STATUS b, RF_STATE b]) ∧
    (∀ item : Fin 8, s.dev.calPending b item = true → 3 ≤ item.val → s.dev.calGap b item = true →
      Does (.calItemStart b item) s fun t => t.rd (RF_STATE_CAL_ITEM b) = item ∧ t.calPending b item = false ∧
        t.rd (RF_STATE_STATE b) = (if item.val = 7 then 2 else 9) ∧ t.rd (RF_STATE_BLANK b) = 1 ∧ t.rd (TXP_STATUS_STATE b) = 6) ∧
    (∀ item, s.dev.rd (RF_STATE_CAL_ITEM b) = item → 1 ≤ item → item ≤ 2 → s.dev.startUp b = false →
      Does (.calItemDone b) s fun t => t.rd (RF_CAL_STATUS_LAST_STATUS b) = Status.ok.code ∧
        t.rd (RF_CAL_STATUS_LAST_ITEM b) = item ∧ t.rd (RF_EVENTS_CAL_DONE b) = 1 ∧ t.rd (RF_STATE_CAL_ITEM b) = 0 ∧
        t.rd (RF_CAL_TEMP_LAST_CAL_C b) = s.dev.rd (RF_CAL_TEMP_DIE_C b) ∧
        Keeps s.dev t [RF_CAL_STATUS b, RF_EVENTS b, RF_STATE b, RF_CAL_TEMP b]) ∧
    (∀ item, s.dev.rd (RF_STATE_CAL_ITEM b) = item → 3 ≤ item → item ≤ 6 → s.dev.startUp b = false →
      (s.dev.band b).relock = false →
      Does (.calItemDone b) s fun t => t.rd (RF_CAL_STATUS_LAST_STATUS b) = Status.ok.code ∧
        t.rd (RF_CAL_STATUS_LAST_ITEM b) = item ∧ t.rd (RF_EVENTS_CAL_DONE b) = 1 ∧ t.rd (RF_STATE_CAL_ITEM b) = 0 ∧
        t.rd (RF_STATE_BLANK b) = 0 ∧ t.rd (RF_STATE_LOCKED b) = 1 ∧ t.rd (RF_STATE_STATE b) = s.dev.bandRest b ∧
        t.rd (TXP_STATUS_STATE b) = 1 ∧ MemKeeps s.dev t) ∧
    (∀ i, s.dev.startUp b = true → nextCal (s.dev.rd (RF_STATE_CAL_ITEM b)) = some i →
      Does (.calItemDone b) s fun t => t.rd (RF_STATE_CAL_ITEM b) = i ∧ t.rd (RF_EVENTS_CAL_DONE b) = 1 ∧
        Keeps s.dev t [RF_EVENTS b, RF_STATE b]) ∧
    (s.dev.rd (RF_STATE_STATE b) = 2 → s.dev.rd (RF_STATE_CAL_ITEM b) ≠ 0 → s.dev.rd MNT_STATE_LIMP = 0 →
      (s.dev.band b).outOfService = false →
      Does (.startCalDone b) s fun t => t.rd (RF_STATE_STATE b) = 3 ∧ t.rd (RF_STATE_BLANK b) = 0 ∧
        (t.band b).target = s.dev.firstLo b ∧ (t.band b).savedOk = true ∧
        t.rd (RF_CAL_TEMP_LAST_CAL_C b) = s.dev.rd (RF_CAL_TEMP_DIE_C b) ∧ t.rd (RF_EVENTS_CAL_DONE b) = 1) ∧
    (s.dev.rd (RF_STATE_STATE b) = 1 → s.dev.rd MNT_STATE_LIMP = 0 → (s.dev.band b).outOfService = false →
      Does (.bandRestoreDone b) s fun t => t.rd (RF_STATE_STATE b) = 3 ∧ (t.band b).target = (s.dev.band b).savedLo) ∧
    (s.dev.rd (RF_CHAINS_SLOT_GATE b) = 1 → s.dev.rd (RF_STATE_STATE b) = 4 →
      Does (.slotGateChange b true) s fun t => t.rd (RF_STATE_STATE b) = 8 ∧ MemKeeps s.dev t) ∧
    (s.dev.rd (RF_CHAINS_SLOT_GATE b) = 1 → s.dev.rd (RF_STATE_STATE b) = 8 →
      Does (.slotGateChange b false) s fun t => t.rd (RF_STATE_STATE b) = 4 ∧ MemKeeps s.dev t)


/-! ### Transmit paths -/

/-- Rules R84, R94 and R97: at its decision point an armed command that meets every condition goes on at the capped power and
asserts the band blank; under WARN it is refused: it leaves the path and its report is written to its ring. -/
def Obligations.TxDecision : Prop :=
  ∀ (s : State) (p : Fin 2) (c : TxCmd) (die energy : Int) (seen : CcaSeen) (ring : RingRead),
    (s.dev.path p).cmds = [c] → c.phase = .armed →
    (s.dev.rd MNT_SUPPLY_STAT_WARN = 0 → s.dev.txDown p = false → s.dev.rd (RF_STATE_LOCKED p) = 1 →
      s.dev.rd (RF_STATE_CAL_ITEM p) = 0 → (∀ e, (s.dev.path p).prevEnd = some e → tsLe (tsAdd e 128) c.ts = true) →
      s.dev.narrow p = false ∨ dChannel c.bytes = (s.dev.band p).target → c.readSt = .ok →
      dCcaMode c.bytes = 0 → c.lbt = false → Quiet s.dev p →
      Does (.txDecisionPoint p die energy seen ring) s fun t =>
        (∃ d, (t.path p).cmds = [d] ∧ d.phase = .decided ∧ d.ts = c.ts ∧ d.power = min (dPower c.bytes) (s.dev.capNow p die) ∧
          d.capped = decide (s.dev.capNow p die < dPower c.bytes) ∧ d.aerial = s.dev.txAerial p c.bytes) ∧
        t.rd (TXP_STATUS_STATE p) = 3 ∧ t.rd (RF_STATE_STATE p) = 5 ∧ t.rd (RF_STATE_BLANK p) = 1 ∧ MemKeeps s.dev t) ∧
    (s.dev.rd MNT_SUPPLY_STAT_WARN = 1 → c.le < 6 → (ringGet (s.dev.path p).rings c.le).off = false →
      0 < s.dev.rd (TXP_CQ_SIZE_ENTRIES p c.le) →
      BelowWindows (s.dev.rd (TXP_CQ_BASE_ADDR p c.le) * 32 + s.dev.rd (TXP_CQ_WR_WR p c.le) * 32) →
      Does (.txDecisionPoint p die energy seen ring) s fun t => (t.path p).cmds = [] ∧
        t.rd (TXP_CQ_WR_WR p c.le) = (s.dev.rd (TXP_CQ_WR_WR p c.le) + 1) % s.dev.rd (TXP_CQ_SIZE_ENTRIES p c.le) ∧
        t.rd (RF_STATE_STATE p) = s.dev.rd (RF_STATE_STATE p))


/-- Rules R90, R95, R96 and R179: the first symbol, not before t_s, counts the frame, puts path and band in transmission and the
frame on air; a fold-back is kept for the rest of the frame; at t_s plus the airtime, the rest of the buffer read, the frame is
reported, the turn to receive starts and the measured return loss is stored; the end of the turn releases the blank. -/
def Obligations.TxOnAir : Prop :=
  ∀ (s : State) (p : Fin 2) (c : TxCmd), (s.dev.path p).cmds = [c] →
    (c.phase = .decided → tsLe c.ts s.dev.now = true →
      Does (.txFirstSymbol p) s fun t => (t.path p).cmds = [{ c with phase := .onAir }] ∧
        (t.path p).air = some (s.dev.onAir p c.bytes c.buf) ∧
        t.rd (TXP_FRAMES_COUNT p) = min (s.dev.rd (TXP_FRAMES_COUNT p) + 1) 0xFFFFFFFF ∧ t.rd (TXP_STATUS_STATE p) = 4 ∧
        t.rd (RF_STATE_STATE p) = 6 ∧ Keeps s.dev t [TXP_FRAMES p, TXP_STATUS p, RF_STATE p]) ∧
    (c.phase = .decided → tsLe c.ts s.dev.now = false → Does (.txFirstSymbol p) s fun t => t = s.dev) ∧
    (∀ rl : BitVec 8, c.phase = .onAir → 0x50 ≤ c.power → rl.toNat < s.dev.rd (TXP_VSWR_FOLD_RL p) →
      Does (.vswrFoldback p rl) s fun t => (t.path p).cmds = [{ c with folded := true }] ∧ Keeps s.dev t []) ∧
    (∀ rl fwd : BitVec 8, c.phase = .onAir → tsLe (tsAdd c.ts (s.dev.airtime p c.bytes : Nat)) s.dev.now = true →
      ((s.dev.txReadRest p).path p).cmds = [c] → c.le < 6 → (ringGet ((s.dev.txReadRest p).path p).rings c.le).off = false →
      0 < (s.dev.txReadRest p).rd (TXP_CQ_SIZE_ENTRIES p c.le) →
      BelowWindows ((s.dev.txReadRest p).rd (TXP_CQ_BASE_ADDR p c.le) * 32 + (s.dev.txReadRest p).rd (TXP_CQ_WR_WR p c.le) * 32) →
      Does (.txFrameEnd p rl fwd) s fun t => (t.path p).cmds = [] ∧
        (t.path p).prevEnd = some (tsAdd c.ts (s.dev.airtime p c.bytes : Nat)) ∧
        (t.path p).turning = true ∧ t.rd (TXP_STATUS_STATE p) = 5 ∧ t.rd (RF_STATE_STATE p) = 7 ∧
        t.rd (TXP_CQ_WR_WR p c.le) =
          ((s.dev.txReadRest p).rd (TXP_CQ_WR_WR p c.le) + 1) % (s.dev.txReadRest p).rd (TXP_CQ_SIZE_ENTRIES p c.le) ∧
        (0x50 ≤ c.power → (s.dev.txReadRest p).rd (TXP_VSWR_RL_LIMIT p) ≤ rl.toNat →
          t.rd (if c.aerial = 0 then TXP_LAST_MEAS_RL_A p else TXP_LAST_MEAS_RL_B p) = rl.toNat ∧
          t.rd (if c.aerial = 0 then TXP_LAST_MEAS_FAILS_A p else TXP_LAST_MEAS_FAILS_B p) = 0)) ∧
    (c.phase = .onAir → dPsdu c.bytes - dFcsLen c.bytes ≤ 256 → s.dev.txReadRest p = s.dev) ∧
    (s.dev.rd (RF_STATE_STATE p) = 7 → (s.dev.band p).relock = false → Quiet s.dev p →
      Does (.turnRxDone p) s fun t => t.rd (RF_STATE_BLANK p) = 0 ∧ t.rd (RF_STATE_STATE p) = s.dev.bandRest p ∧
        (t.path p).turning = false ∧ t.rd (TXP_STATUS_STATE p) = 2 ∧ MemKeeps s.dev t)


/-- Rules R109, R171 and R174: a buffer unit beyond the octets read ahead that cannot be read cuts the frame on air and the band
turns to receive; TXP_CONFIG written with ENABLE 0 completes a command whose decision point has not come; a synthesiser that loses
lock while the band listens relocks, and the event is charged to the path. -/
def Obligations.TxCuts : Prop :=
  ∀ (s : State) (p : Fin 2),
    (∀ (c : TxCmd) (sent : BitVec 11) (u : BitVec 8), (s.dev.path p).cmds = [c] → c.phase = .onAir → 32 ≤ u.toNat →
      8 * u.toNat < dPsdu c.bytes - dFcsLen c.bytes → dBuf c.bytes % 8 = 0 →
      s.dev.reach (0x0E + p) (dBuf c.bytes + 8 * u.toNat) = (.routeDenied, none) →
      Does (.txReadFailCut p sent u) s fun t => (t.path p).cmds = [] ∧ (t.path p).turning = true ∧
        t.rd (TXP_STATUS_STATE p) = 5 ∧ t.rd (RF_STATE_STATE p) = 7) ∧
    (∀ (c : TxCmd) (ini : Ini) (v : Word), (s.dev.path p).cmds = [c] → c.phase = .armed → v.getLsbD 24 = false →
      Open s ini (TXP_CONFIG p) → c.le < 6 → (ringGet (s.dev.path p).rings c.le).off = false →
      0 < s.dev.rd (TXP_CQ_SIZE_ENTRIES p c.le) →
      BelowWindows (s.dev.rd (TXP_CQ_BASE_ADDR p c.le) * 32 + s.dev.rd (TXP_CQ_WR_WR p c.le) * 32) →
      Does (.txpDisable ini p v) s fun t => (t.path p).cmds = [] ∧ t.rd (TXP_CONFIG_ENABLE p) = 0 ∧
        t.rd (TXP_CQ_WR_WR p c.le) = (s.dev.rd (TXP_CQ_WR_WR p c.le) + 1) % s.dev.rd (TXP_CQ_SIZE_ENTRIES p c.le)) ∧
    (∀ (ini : Ini) (v : Word), v.getLsbD 24 = true → Open s ini (TXP_CONFIG p) →
      Does (.txpDisable ini p v) s fun t => (t.path p).cmds = (s.dev.path p).cmds ∧ t.rd (TXP_CONFIG_ENABLE p) = 1 ∧
        t.rd (TXP_CONFIG_CAP p) = v.toNat / 256 % 256 ∧ t.rd (TXP_CONFIG_AERIAL p) = v.toNat % 4 ∧ MemKeeps s.dev t) ∧
    (∀ sent, s.dev.rd (RF_STATE_LOCKED p) = 1 → s.dev.rd (RF_STATE_STATE p) = 4 → Quiet s.dev p →
      Does (.synthUnlock p sent) s fun t => t.rd (RF_STATE_STATE p) = 3 ∧ t.rd (RF_STATE_LOCKED p) = 0 ∧
        t.rd (RF_EVENTS_UNLOCK p) = 1 ∧ (t.band p).target = (s.dev.band p).target ∧
        (t.unit (0x1A + p)).total = min ((s.dev.unit (0x1A + p)).total + 1) 0xFFFFFFFF)


/-- Rules R142 and R182: a write of ENTRIES enables a ring that is off and resets WR and RD, a write of 0 turns a ring with nothing
reserved off, and any other write to a ring that is on is ignored with RING_WRITE_IGNORED. A ring being turned off is off once
nothing reserved is left. -/
def Obligations.RingSizeWrites : Prop :=
  ∀ (s : State) (ini : Ini) (p : Fin 2) (k : Fin 6) (v : Word),
    (Open s ini (TXP_CQ_SIZE p k) →
      (s.dev.rd (TXP_CQ_SIZE_ENTRIES p k) = 0 → v.toNat % 65536 ≠ 0 →
        Does (.completionRingSizeWrite ini p k v) s fun t => t.rd (TXP_CQ_SIZE_ENTRIES p k) = ringSize 256 (v.toNat % 65536) ∧
          t.rd (TXP_CQ_WR_WR p k) = 0 ∧ t.rd (TXP_CQ_RD_RD p k) = 0 ∧
          Keeps s.dev t [TXP_CQ_SIZE p k, TXP_CQ_WR p k, TXP_CQ_RD p k]) ∧
      (s.dev.rd (TXP_CQ_SIZE_ENTRIES p k) ≠ 0 → v.toNat % 65536 ≠ 0 →
        Does (.completionRingSizeWrite ini p k v) s fun t => t.rd (TXP_EVENTS_RING_WRITE_IGNORED p) = 1 ∧
          Keeps s.dev t [TXP_EVENTS p]) ∧
      (s.dev.rd (TXP_CQ_SIZE_ENTRIES p k) ≠ 0 → v.toNat % 65536 = 0 → (ringGet (s.dev.path p).rings k).resv = 0 →
        Does (.completionRingSizeWrite ini p k v) s fun t => t.rd (TXP_CQ_SIZE_ENTRIES p k) = 0 ∧
          Keeps s.dev t [TXP_CQ_SIZE p k, TXP_CQ_WR p k, TXP_CQ_RD p k]) ∧
      (s.dev.rd (TXP_CQ_SIZE_ENTRIES p k) ≠ 0 → v.toNat % 65536 = 0 → (ringGet (s.dev.path p).rings k).resv ≠ 0 →
        Does (.completionRingSizeWrite ini p k v) s fun t => (ringGet (t.path p).rings k).off = true ∧ Keeps s.dev t [])) ∧
    ((ringGet (s.dev.path p).rings k).off = true → (ringGet (s.dev.path p).rings k).resv = 0 →
      Does (.completionRingOff p k) s fun t => t.rd (TXP_CQ_SIZE_ENTRIES p k) = 0 ∧ t.rd (TXP_CQ_WR_WR p k) = 0 ∧
        t.rd (TXP_CQ_RD_RD p k) = 0 ∧ (ringGet (t.path p).rings k).off = false ∧
        Keeps s.dev t [TXP_CQ_SIZE p k, TXP_CQ_WR p k, TXP_CQ_RD p k]) ∧
    (Open s ini (SLV_RQ_SIZE k) →
      (s.dev.rd (SLV_RQ_SIZE_ENTRIES k) = 0 → v.toNat % 65536 ≠ 0 →
        Does (.reportRingSizeWrite ini k v) s fun t => t.rd (SLV_RQ_SIZE_ENTRIES k) = ringSize 1024 (v.toNat % 65536) ∧
          t.rd (SLV_RQ_WR_WR k) = 0 ∧ t.rd (SLV_RQ_RD_RD k) = 0 ∧
          Keeps s.dev t [SLV_RQ_SIZE k, SLV_RQ_WR k, SLV_RQ_RD k]) ∧
      (s.dev.rd (SLV_RQ_SIZE_ENTRIES k) ≠ 0 → v.toNat % 65536 = 0 → (ringGet s.dev.bank.rings k).resv = 0 →
        Does (.reportRingSizeWrite ini k v) s fun t => t.rd (SLV_RQ_SIZE_ENTRIES k) = 0 ∧
          Keeps s.dev t [SLV_RQ_SIZE k, SLV_RQ_WR k, SLV_RQ_RD k]) ∧
      (s.dev.rd (SLV_RQ_SIZE_ENTRIES k) ≠ 0 → v.toNat % 65536 ≠ 0 →
        Does (.reportRingSizeWrite ini k v) s fun t => t.rd SLV_EVENTS_RING_WRITE_IGNORED = 1 ∧ Keeps s.dev t [SLV_EVENTS])) ∧
    ((ringGet s.dev.bank.rings k).off = true → (ringGet s.dev.bank.rings k).resv = 0 →
      Does (.reportRingOff k) s fun t => t.rd (SLV_RQ_SIZE_ENTRIES k) = 0 ∧ t.rd (SLV_RQ_WR_WR k) = 0 ∧
        t.rd (SLV_RQ_RD_RD k) = 0 ∧ Keeps s.dev t [SLV_RQ_SIZE k, SLV_RQ_WR k, SLV_RQ_RD k])


/-! ### Sleeves: reception -/

/-- Rules R118, R120, R121, R127 and R128: a detection takes a searching sleeve to ACQUIRE, or to SYNC where it has one branch; the
decision takes the better branch to SYNC; the sync point, found within its waiting time, is stamped and the header is read, and in a
sniff window it is the wake source; a lining that fires continues with the stronger frame. Outside the sleeve's own state and counts
no register changes. -/
def Obligations.SleeveToHeader : Prop :=
  ∀ (s : State) (n : Fin 32) (c : Fin 2),
    (∀ ts : BitVec 48, s.dev.rd (SLV_STATE_STATE n) ∈ [2, 7] → c.val ∈ s.dev.branches n → s.dev.detectBad n c ts.toNat = false →
      s.dev.sniffs n = false →
      Does (.preambleDetect n c ts) s fun t =>
        t.rd (SLV_STATE_STATE n) = (if (s.dev.branches n).length = 1 then 4 else 3) ∧ t.rd (SLV_STATE_IN_FRAME n) = 1 ∧
        t.rd (SLV_STATE_BRANCH n) = c ∧
        (∃ f, (t.sleeve n).frame = some f ∧ f.tsDetect = ts.toNat ∧ f.branch = c ∧ f.fromRing = (s.dev.sleeve n).research) ∧
        t.rd (SLV_CNT_DETECT_COUNT n) = min (s.dev.rd (SLV_CNT_DETECT_COUNT n) + 1) 0xFFFFFFFF ∧
        Keeps s.dev t [SLV_STATE n, SLV_CNT_DETECT n]) ∧
    (∀ ts : BitVec 48, s.dev.rd (SLV_STATE_STATE n) ∈ [2, 7] → s.dev.detectBad n c ts.toNat = true →
      Does (.preambleDetect n c ts) s fun t => t = s.dev) ∧
    (∀ f a b, s.dev.rd (SLV_STATE_STATE n) = 3 → (s.dev.sleeve n).frame = some f →
      (s.dev.divWait n : Int) ≤ tsDiff (s.dev.readPoint n) f.tsDetect →
      Does (.diversityDecision n a b) s fun t => t.rd (SLV_STATE_STATE n) = 4 ∧
        t.rd (SLV_STATE_BRANCH n) = betterBranch f a b ∧
        (∃ g, (t.sleeve n).frame = some g ∧ g.branch = betterBranch f a b ∧ g.diversity = true) ∧ Keeps s.dev t [SLV_STATE n]) ∧
    (∀ f seen k ts m, s.dev.rd (SLV_STATE_STATE n) = 4 → s.dev.rd (SLV_STATE_BRANCH n) = c →
      s.dev.syncOf n seen = some k → c.val ∈ s.dev.branches n → s.dev.sniffs n = false → (s.dev.sleeve n).frame = some f →
      tsDiff ts.toNat f.tsDetect ≤ (s.dev.syncWait n : Int) →
      Does (.syncMatch n c seen ts m) s fun t => t.rd (SLV_STATE_STATE n) = 5 ∧
        (t.sleeve n).frame = some (s.dev.synced n c f k ts.toNat m) ∧ Keeps s.dev t [SLV_STATE n]) ∧
    (∀ f seen k ts m, s.dev.rd (SLV_STATE_STATE n) = 3 → s.dev.syncOf n seen = some k → c.val ∈ s.dev.branches n →
      s.dev.sniffs n = false → (s.dev.sleeve n).frame = some f → tsDiff ts.toNat f.tsDetect ≤ (s.dev.syncWait n : Int) →
      Does (.syncMatch n c seen ts m) s fun t => t.rd (SLV_STATE_STATE n) = 5 ∧ t.rd (SLV_STATE_BRANCH n) = c ∧
        (∃ g, (t.sleeve n).frame = some g ∧ g.branch = c ∧ g.diversity = false ∧ g.tsRef = ts.toNat ∧ g.coded = k.1 ∧
          g.errs = k.2) ∧ Keeps s.dev t [SLV_STATE n]) ∧
    (∀ f seen k ts m, s.dev.rd (SLV_STATE_STATE n) = 4 → s.dev.rd (SLV_STATE_BRANCH n) = c →
      s.dev.syncOf n seen = some k → c.val ∈ s.dev.branches n → s.dev.sniffs n = true → (s.dev.sleeve n).frame = some f →
      (s.dev.sleeve n).waiting = [] → tsDiff ts.toNat f.tsDetect ≤ (s.dev.syncWait n : Int) →
      Does (.syncMatch n c seen ts m) s fun t => t.bit MNT_WAKE_SRC_SRC 17 = true ∧ t.rd MNT_WAKE_SRC_FIRST = 17 ∧
        t.mnt.stage = .waking ∧ (t.sleeve n).frame = none ∧ Keeps s.dev t [MNT_WAKE_SRC, SLV_STATE n, SLV_CHAN n]) ∧
    (∀ f seen k before det ts m stronger, s.dev.rd (SLV_STATE_STATE n) ∈ [3, 4, 5] → s.dev.rd (SLV_CTRL_LINING_EN n) = 1 →
      s.dev.syncOf n seen = some k → s.dev.liningFull n before = true → c.val ∈ s.dev.branches n →
      max 1 (s.dev.rd (SLV_ACQ_MARGIN n)) ≤ stronger → (s.dev.sleeve n).frame = some f →
      (s.dev.rd (SLV_STATE_STATE n) = 5 → ts.toNat ≠ f.tsRef) →
      Does (.liningFire n c seen before det ts m stronger) s fun t => t.rd (SLV_STATE_STATE n) = 5 ∧
        t.rd (SLV_STATE_BRANCH n) = c ∧
        (∃ g, (t.sleeve n).frame = some g ∧ g.lined = true ∧ g.tsRef = ts.toNat ∧ g.tsDetect = det.toNat ∧ g.branch = c ∧
          g.coded = k.1) ∧
        t.rd (SLV_CNT_LINING_COUNT n) = min (s.dev.rd (SLV_CNT_LINING_COUNT n) + 1) 0xFFFFFFFF ∧
        Keeps s.dev t [SLV_STATE n, SLV_CNT_LINING n])


/-- Rules R129 to R132: a reception whose waiting time for the sync point is over counts, leaves its frame and re-searches the ring
from the first usable sample where re-search is on and one lies before live; a re-search whose read point reaches live goes on as the
sleeve rests. Rules R144 and R473: a state held too long is charged to the physical sleeve, which below its threshold restarts in
place; the restart's end returns it to service. -/
def Obligations.SleeveRecovery : Prop :=
  (∀ (s : State) (n : Fin 32),
    (∀ f, s.dev.rd (SLV_STATE_STATE n) = 4 → s.dev.sniffs n = false → (s.dev.sleeve n).waiting = [] →
      (s.dev.sleeve n).frame = some f → (s.dev.syncWait n : Int) ≤ tsDiff (s.dev.readPoint n) f.tsDetect →
      Does (.syncTimeout n { darn := false, uncorr := none }) s fun t =>
        t.rd (SLV_CNT_HDR_FAIL_COUNT n) = min (s.dev.rd (SLV_CNT_HDR_FAIL_COUNT n) + 1) 0xFFFFFFFF ∧
        (t.sleeve n).frame = none ∧
        (s.dev.rd (SLV_CTRL_RESEARCH_EN n) = 0 ∨ s.dev.researchFrom n f = none →
          t.rd (SLV_STATE_STATE n) = s.dev.slvRest n ∧ (t.sleeve n).research = false) ∧
        (∀ a late, s.dev.rd (SLV_CTRL_RESEARCH_EN n) = 1 → s.dev.researchFrom n f = some (a, late) → s.dev.slvRest n = 2 →
          t.rd (SLV_STATE_STATE n) = 7 ∧ (t.sleeve n).research = true ∧ t.rd (SLV_STATE_FROM_RING n) = 1 ∧
          (t.sleeve n).start = tsAdd s.dev.now (-(a : Int)) ∧ (t.sleeve n).trunc = late ∧
          (late = true → t.rd SLV_EVENTS_RESEARCH_TRUNC = 1)) ∧
        Keeps s.dev t [SLV_STATE n, SLV_CHAN n, SLV_CNT_HDR_FAIL n, SLV_CNT_RESEARCH n, SLV_CNT_TRUNC n, SLV_EVENTS]) ∧
    (∀ f, s.dev.rd (SLV_STATE_STATE n) = 4 → (s.dev.sleeve n).frame = some f →
      tsDiff (s.dev.readPoint n) f.tsDetect < (s.dev.syncWait n : Int) →
      ∀ ring, Does (.syncTimeout n ring) s fun t => t = s.dev) ∧
    ((s.dev.sleeve n).research = true → s.dev.rd (SLV_STATE_STATE n) = 7 → s.dev.readPoint n = s.dev.now →
      Does (.researchReachLive n) s fun t => (t.sleeve n).research = false ∧ t.rd (SLV_STATE_FROM_RING n) = 0 ∧
        t.rd (SLV_STATE_STATE n) = s.dev.slvRest n ∧ Keeps s.dev t [SLV_STATE n]) ∧
    (s.dev.readPoint n ≠ s.dev.now → Does (.researchReachLive n) s fun t => t = s.dev)) ∧
  (∀ (s : State) (n : Fin 32),
    (∀ buffer, s.dev.rd (SLV_ASSIGN_UNSERVED n) = 0 →
      s.dev.uncounted (0x20 + s.dev.phys n) (if buffer then .bufferUncorr else .stateTimeout) 0 = false →
      (s.dev.counted (s.dev.unit (0x20 + s.dev.phys n))).length < (s.dev.unit (0x20 + s.dev.phys n)).threshold →
      Does (.sleeveStateTimeout n buffer) s fun t => s.dev.phys n ∈ t.bank.restarting ∧ t.rd SLV_EVENTS_RESTARTED = 1 ∧
        (t.unit (0x20 + s.dev.phys n)).total = min ((s.dev.unit (0x20 + s.dev.phys n)).total + 1) 0xFFFFFFFF) ∧
    (s.dev.phys n ∈ s.dev.bank.restarting →
      Does (.sleeveRestartDone n) s fun t => s.dev.phys n ∉ t.bank.restarting ∧
        (t.unit (0x20 + s.dev.phys n)).state = (if s.dev.bit SLV_SPARES_MASK (s.dev.phys n) then 2 else 0) ∧
        Keeps s.dev t [SLV_STATE n]))


/-- Rules R134 and R135: a header that passes, of an armed assignment, with a free report entry and a descriptor granted,
takes the sleeve to PAYLOAD for the arming engine with reason 0; a header that fails counts, and the sleeve leaves its frame. -/
def Obligations.HeaderPasses : Prop :=
  ∀ (s : State) (n : Fin 32) (f : RxFrame) (phr : List Byte) (tail : Bool) (staged : List Byte) (ring : RingRead),
    s.dev.rd (SLV_STATE_STATE n) = 5 → (s.dev.sleeve n).frame = some f →
    (∀ (len : Nat) (fcs2 white : Bool) (mcs k i : Nat), s.dev.rd (SLV_ASSIGN_MODE n) ≠ 2 →
      phrCheck (s.dev.rd (SLV_ASSIGN_MODE n)) f.coded tail phr = some (len, fcs2, white, mcs) → len ≤ s.dev.maxPsdu n →
      s.dev.armOf n = some k →
      (∀ key, (macOf (whiten white (staged.take 64))).key = some key → s.dev.ml.rebuilding = true ∨ s.dev.ptFind key ≠ none) →
      s.dev.rqFree (s.dev.lePhys k) = true →
      (s.dev.poolRequest (s.dev.rangeOf (s.dev.lePhys k))
        ((macOf (whiten white (staged.take 64))).ftype == 2 || (macOf (whiten white (staged.take 64))).ftype == 3) len).2 = some i →
      Does (.headerDone n phr tail staged ring) s fun t =>
        t.rd (SLV_STATE_STATE n) = 6 ∧ (t.desc i).holder = .engine ∧
        ∃ g, (t.sleeve n).frame = some g ∧ g.psduLen = len ∧ g.white = white ∧ g.le = s.dev.lePhys k ∧ g.reason = 0 ∧
          g.desc = some i ∧ g.ring = some (s.dev.lePhys k)) ∧
    (phrCheck (s.dev.rd (SLV_ASSIGN_MODE n)) f.coded tail phr = none → (s.dev.sleeve n).waiting = [] →
      Does (.headerDone n phr tail staged { darn := false, uncorr := none }) s fun t =>
        t.rd (SLV_CNT_HDR_FAIL_COUNT n) = min (s.dev.rd (SLV_CNT_HDR_FAIL_COUNT n) + 1) 0xFFFFFFFF ∧
        (t.sleeve n).frame = none ∧ MemKeeps s.dev t)


/-- Rules R136 to R138: a frame whose FCS checks after its whitening is removed is counted, its report is written to its ring and WR
advances, and the sleeve rests; a failed FCS is counted apart; a frame that ends early is reported with the status of its end. -/
def Obligations.SleeveFrameEnds : Prop :=
  ∀ (s : State) (n : Fin 32) (f : RxFrame) (psdu : List Byte) (m : EndMeas) (k : Nat),
    s.dev.rd (SLV_STATE_IN_FRAME n) = 1 → (s.dev.sleeve n).frame = some f → (s.dev.sleeve n).waiting = [] → f.ring = some k →
    k < 6 → (ringGet s.dev.bank.rings k).off = false → 0 < s.dev.rd (SLV_RQ_SIZE_ENTRIES k) →
    BelowWindows (s.dev.rd (SLV_RQ_BASE_ADDR k) * 64 + s.dev.rd (SLV_RQ_WR_WR k) * 64) →
    (∀ i, f.desc = some i → s.dev.bufAddr i + f.psduLen ≤ 0x40000000) →
    (s.dev.rd (SLV_STATE_STATE n) = 6 → f.psduLen ≤ psdu.length → fcsOk f.fcs2 (whiten f.white (psdu.take f.psduLen)) = true →
      Does (.sleeveFrameEnd n .complete psdu m) s fun t =>
        t.rd (SLV_CNT_OK_COUNT n) = min (s.dev.rd (SLV_CNT_OK_COUNT n) + 1) 0xFFFFFFFF ∧ (t.sleeve n).frame = none ∧
        t.rd (SLV_RQ_WR_WR k) = (s.dev.rd (SLV_RQ_WR_WR k) + 1) % s.dev.rd (SLV_RQ_SIZE_ENTRIES k) ∧
        t.rd (SLV_STATE_LAST_STATUS n) = Status.ok.code ∧ t.rd (SLV_STATE_STATE n) = s.dev.slvRest n) ∧
    (s.dev.rd (SLV_STATE_STATE n) = 6 → f.psduLen ≤ psdu.length → fcsOk f.fcs2 (whiten f.white (psdu.take f.psduLen)) = false →
      Does (.sleeveFrameEnd n .complete psdu m) s fun t =>
        t.rd (SLV_CNT_FCS_FAIL_COUNT n) = min (s.dev.rd (SLV_CNT_FCS_FAIL_COUNT n) + 1) 0xFFFFFFFF ∧
        (t.sleeve n).frame = none ∧ t.rd (SLV_STATE_LAST_STATUS n) = Status.fcsFail.code) ∧
    (∀ e, e ≠ .complete →
      Does (.sleeveFrameEnd n e psdu m) s fun t => (t.sleeve n).frame = none ∧
        t.rd (SLV_RQ_WR_WR k) = (s.dev.rd (SLV_RQ_WR_WR k) + 1) % s.dev.rd (SLV_RQ_SIZE_ENTRIES k) ∧
        t.rd (SLV_STATE_LAST_STATUS n) = e.status.code)


/-! ### Sleeves: writes, restarts and rotation -/

/-- Rules R114 and R115: a write of SLV_CHAN takes effect outside a frame, and ends a re-search, waits inside one, and is refused with
CHAN_OUTSIDE outside the band window; in narrow mode it is ignored; the writes that wait take effect together. -/
def Obligations.SleeveChannelWrites : Prop :=
  ∀ (s : State) (ini : Ini) (n : Fin 32) (v : Word),
    (Open s ini (SLV_CHAN n) → s.dev.narrow (s.dev.slvBand n) = false →
      (s.dev.inWindow (s.dev.slvBand n) (v.toNat % 2 ^ 24) = true → s.dev.rd (SLV_STATE_IN_FRAME n) = 0 →
        Does (.slvChanWrite ini n v) s fun t => t.rd (SLV_CHAN_CHANNEL_KHZ n) = v.toNat % 2 ^ 24 ∧ t.resp.status = .ok ∧
          (t.sleeve n).research = false ∧
          ((s.dev.sleeve n).research = true → t.rd (SLV_STATE_STATE n) = s.dev.slvRest n ∧ t.rd (SLV_STATE_FROM_RING n) = 0) ∧
          ((s.dev.sleeve n).research = false → t.rd (SLV_STATE_STATE n) = s.dev.rd (SLV_STATE_STATE n)) ∧
          Keeps s.dev t [SLV_CHAN n, SLV_STATE n]) ∧
      (s.dev.inWindow (s.dev.slvBand n) (v.toNat % 2 ^ 24) = true → s.dev.rd (SLV_STATE_IN_FRAME n) = 1 →
        Does (.slvChanWrite ini n v) s fun t => (SLV_CHAN n, v.toNat % 2 ^ 24) ∈ (t.sleeve n).waiting ∧
          t.rd (SLV_CHAN_PENDING n) = 1 ∧ t.rd (SLV_CHAN_CHANNEL_KHZ n) = s.dev.rd (SLV_CHAN_CHANNEL_KHZ n) ∧
          t.resp.status = .ok ∧ Keeps s.dev t [SLV_CHAN n]) ∧
      (s.dev.inWindow (s.dev.slvBand n) (v.toNat % 2 ^ 24) = false →
        Does (.slvChanWrite ini n v) s fun t => t.resp.status = .chanOutside ∧ t.rd SLV_EVENTS_CHAN_REFUSED = 1 ∧
          Keeps s.dev t [SLV_EVENTS])) ∧
    (Open s ini (SLV_CHAN n) → s.dev.narrow (s.dev.slvBand n) = true → s.dev.rd (SLV_ASSIGN_BAND n) ≠ 0 →
      Does (.slvChanWrite ini n v) s fun t => t.resp.status = .ok ∧ Keeps s.dev t []) ∧
    (∀ khz, s.dev.rd (SLV_STATE_IN_FRAME n) = 0 → (s.dev.sleeve n).waiting = [(SLV_CHAN n, khz)] → khz < 2 ^ 24 →
      Does (.slvDeferredApply n) s fun t => t.rd (SLV_CHAN_CHANNEL_KHZ n) = khz ∧ t.rd (SLV_CHAN_PENDING n) = 0 ∧
        (t.sleeve n).waiting = [] ∧ Keeps s.dev t [SLV_CHAN n, SLV_STATE n])


/-- Rule R147: the rotation of the sleeves. Every physical spare is tested each ROT_PERIOD_S; one that passes, 8 ms per mode later, is
ready and searches beside the next assignment; a failed one is charged; at a moment without a frame the roles swap; an assignment
without one for 10 s is passed over. -/
def Obligations.SleeveRotation : Prop :=
  ∀ (s : State) (p : Fin 32),
    (0 < s.dev.rd SLV_COMMON_ROT_PERIOD_S → s.dev.waited .slvTest (us (1000000 * s.dev.rd SLV_COMMON_ROT_PERIOD_S)) = true →
      s.dev.bit SLV_SPARES_MASK p = true → s.dev.bit SLV_RETIRED_MASK p = false →
      Does .sleeveSelftestStart s fun t => p.val ∈ t.bank.testing ∧ (t.unit (0x20 + p)).state = 3 ∧ MemKeeps s.dev t) ∧
    (s.dev.waited .slvTest (us (1000000 * s.dev.rd SLV_COMMON_ROT_PERIOD_S)) = false →
      Does .sleeveSelftestStart s fun t => t = s.dev) ∧
    (p.val ∈ s.dev.bank.testing → s.dev.waited .slvTest (us (if 24 ≤ p.val then 24000 else 16000)) = true →
      Does (.sleeveSelftestDone p true) s fun t => p.val ∉ t.bank.testing ∧ (t.unit (0x20 + p)).state = 2 ∧
        (∀ n, s.dev.nextRotation p = some n → (p.val, n) ∈ t.bank.swap) ∧ MemKeeps s.dev t) ∧
    (p.val ∈ s.dev.bank.testing → s.dev.waited .slvTest (us (if 24 ≤ p.val then 24000 else 16000)) = true →
      Does (.sleeveSelftestDone p false) s fun t => p.val ∉ t.bank.testing ∧
        (t.unit (0x20 + p)).total = min ((s.dev.unit (0x20 + p)).total + 1) 0xFFFFFFFF) ∧
    (∀ n : Fin 32, s.dev.bank.swap = [(p.val, n.val)] → s.dev.rd (SLV_STATE_IN_FRAME n) = 0 → s.dev.rotates p n = true →
      s.dev.bit SLV_SPARES_MASK p = true → s.dev.phys n ≠ p →
      Does (.sleeveRotationSwap p) s fun t => t.phys n = p ∧ t.bit SLV_SPARES_MASK p = false ∧
        t.bit SLV_SPARES_MASK (s.dev.phys n) = true ∧ t.rd SLV_EVENTS_ROTATED = 1 ∧ t.bank.swap = [] ∧ MemKeeps s.dev t) ∧
    (s.dev.waited (.swap p) (us 10000000) = true →
      Does (.sleeveRotationTimeout p) s fun t => (∀ n, (p.val, n) ∉ t.bank.swap) ∧ Keeps s.dev t []) ∧
    (s.dev.waited (.swap p) (us 10000000) = false → Does (.sleeveRotationTimeout p) s fun t => t = s.dev)


/-! ### The slot engine and its arms -/

/-- Rules R197, R198, R200, R218 and R224: RUN starts the engine before its first slot and stops it; a boundary advances the ASN onto
the grid; a written source takes effect there, or is refused where no served engine follows it; a preparation is queued at its engine
with the entry it plans, and its completion hands the entry over and adjusts the catch-up advance. The tables read are taken to be
read without error. -/
def Obligations.SlotEngineRuns : Prop :=
  ∀ s : State,
    (∀ (ini : Ini) (v : Word), Open s ini SE_CTRL → v.getLsbD 0 = true → s.dev.rd SE_CTRL_RUN = 0 →
      Does (.seRun ini v) s fun t => t.rd SE_CTRL_RUN = 1 ∧ t.rd SE_STATUS_STATE = 1 ∧
        (t.se.asn + 1) % 2 ^ 40 = s.dev.firstSlot % 2 ^ 40 ∧ t.resp.status = .ok ∧
        Keeps s.dev t [SE_CTRL, SE_STATUS, SE_NEXT_WORK_LO, SE_NEXT_WORK_HI]) ∧
    (∀ (ini : Ini) (v : Word), Open s ini SE_CTRL → v.getLsbD 0 = false → s.dev.rd SE_CTRL_RUN = 1 →
      Does (.seRun ini v) s fun t => t.rd SE_CTRL_RUN = 0 ∧ t.rd SE_STATUS_STATE = 0 ∧ t.se.asn = s.dev.se.asn ∧
        Keeps s.dev t [SE_CTRL, SE_STATUS]) ∧
    (s.dev.seRuns = true → s.dev.touchTables = s.dev → s.dev.se.source = none → s.dev.se.srcWrite = none →
      s.dev.se.sfWait = [] →
      Does .slotBoundary s fun t => t.se.asn = (s.dev.se.asn + 1) % 2 ^ 40 ∧
        t.se.bound = s.dev.gridRaw ((s.dev.se.asn + 1) % 2 ^ 40) ∧
        Keeps s.dev t [SE_EVENTS, SE_STATUS, SE_NEXT_WORK_LO, SE_NEXT_WORK_HI]) ∧
    (∀ q, s.dev.seRuns = true → s.dev.touchTables = s.dev → s.dev.se.source = none → s.dev.se.srcWrite = some (some q) →
      s.dev.se.sfWait = [] → s.dev.sourceOk q = false →
      Does .slotBoundary s fun t => t.se.asn = (s.dev.se.asn + 1) % 2 ^ 40 ∧ t.se.source = none ∧ t.se.srcWrite = none ∧
        t.reg SE_SOURCE = s.dev.se.srcOld ∧ t.rd SE_EVENTS_SOURCE_REFUSED = 1 ∧ MemKeeps s.dev t) ∧
    (∀ q, s.dev.seRuns = true → s.dev.touchTables = s.dev → s.dev.se.source = none → s.dev.se.srcWrite = some (some q) →
      s.dev.se.sfWait = [] → s.dev.sourceOk q = true → s.dev.rd SE_STATUS_STATE = 1 →
      Does .slotBoundary s fun t => t.se.asn = (s.dev.se.asn + 1) % 2 ^ 40 ∧ t.se.source = some q ∧ t.se.srcWrite = none ∧
        t.rd SE_EVENTS_SOURCE_CHANGED = 1 ∧ MemKeeps s.dev t) ∧
    (∀ (k : Fin 6) (n : BitVec 40) plans upset, plans = [] ∨ s.dev.rd SE_STATUS_STATE = 2 → s.dev.seRuns = true →
      s.dev.leRuns k = true → (s.dev.eng k).ready = true →
      ((s.dev.slotLinks n.toNat).any fun l => s.dev.linkLe l == some k.val) = true →
      Does (.prepEvent k n plans upset) s fun t =>
        (t.eng k).preps = (s.dev.eng k).preps ++ [{ asn := n.toNat, bound := s.dev.gridAt n.toNat, items := [] }] ∧
        Keeps s.dev t []) ∧
    (∀ (k : Fin 6) (n : BitVec 40) p upset e, s.dev.seRuns = true → s.dev.leRuns k = true → (s.dev.eng k).ready = true →
      s.dev.rd SE_STATUS_STATE ≠ 2 → p.desc = none → p.req = none →
      let l := s.dev.linkAt p.sf p.link.toNat
      ((s.dev.touch (2 + k) [(l.addr, 16)]).touchPartner (2 + k) l.partner).touchQueue k l.queue = s.dev → l.tx = true →
      l.beacon = false → l.shared = false → l ∈ s.dev.slotLinks n.toNat → s.dev.linkLe l = some k.val →
      (s.dev.qList l.queue).any s.dev.qInFlight = false → (s.dev.qList l.queue).find? (s.dev.mayGo l n.toNat) = some e →
      let d := putAt (s.dev.peekBytes (2 + k) (s.dev.qDesc e) 32) 0x0C (leBytes 4 (s.dev.linkChannel l n.toNat))
      let u := s.dev.put8 (2 + k) (s.dev.qDesc e) d
      let x : PrepItem := { link := l.addr, entry := e, req := none, ts := u.sendAt l.partner n.toNat }
      u.fits (u.airtime (l.band - 1) d) (u.qAckReq e) = true →
      Does (.prepEvent k n [p] upset) s fun t =>
        (t.eng k).preps = (u.eng k).preps ++ [{ asn := n.toNat, bound := u.gridAt n.toNat, items := [x] }] ∧ Keeps u t []) ∧
    (∀ (k : Fin 6) p l, (s.dev.eng k).preps = p :: l → p.items = [] → s.dev.leRuns k = true →
      tsLe s.dev.now (tsAdd p.bound ((s.dev.txOffset : Int) - us 100)) = false →
      Does (.prepDone k) s fun t => (t.eng k).preps = l ∧
        (t.eng k).adv = min ((s.dev.eng k).adv + s.dev.prepLead / s.dev.catchDiv) (s.dev.slotLen / 2) ∧
        t.rd (LE_CNT_LATE_COUNT k) = min (s.dev.rd (LE_CNT_LATE_COUNT k) + 1) 0xFFFFFFFF ∧
        Keeps s.dev t [LE_LAG k, LE_STATE k, SE_STATUS, LE_CNT_LATE k]) ∧
    (∀ (k : Fin 6) p l, (s.dev.eng k).preps = p :: l → p.items = [] → s.dev.leRuns k = true → (s.dev.eng k).adv = 0 →
      tsLe s.dev.now (tsAdd p.bound ((s.dev.txOffset : Int) - us 100)) = true →
      Does (.prepDone k) s fun t => (t.eng k).preps = l ∧ (t.eng k).adv = 0 ∧ Keeps s.dev t []) ∧
    (∀ (k : Fin 6) p l x, (s.dev.eng k).preps = p :: l → p.items = [x] → s.dev.leRuns k = true → (s.dev.eng k).adv = 0 →
      tsLe s.dev.now (tsAdd x.ts (-(us 100 : Int))) = true → s.dev.itemReady x = true →
      let u := (s.dev.setEng k { s.dev.eng k with preps := l }).qw k x.link 0x0C 4 x.entry
      tsLe u.now (tsAdd p.bound ((u.txOffset : Int) - us 100)) = true → (u.eng k).adv = 0 →
      Does (.prepDone k) s fun t => t = u)


/-- Rules R215, R218, R219 and R223: at t_s - 100 us the entry planned on a link is marked in flight, NEXT_ENTRY is cleared and the
start command issued; a report is read and RD of its ring advances, and a frame that asked for an acknowledgement awaits it; an
acknowledgement whose window closes leaves the list, and with a try left its entry stays for another, else it completes. Rules R221,
R230 and R232: as AGE_SF passes offset 0 an entry ages by one and is promoted past its LIMIT; a missed exchange counts in MISSES, in
SE_CNT_MISS for the source, and a child is QUIET at its limit. -/
def Obligations.SlotEngineSends : Prop :=
  (∀ s : State,
    (∀ (sf : Fin 8) (i : BitVec 11) k,
      let l := s.dev.linkAt sf i.toNat
      let u := s.dev.put8 0x0C (l.addr + 0x0C) (leBytes 4 0)
      let x := u.issueOf l k s.dev.se.asn
      s.dev.touch 0x0C [(l.addr, 16)] = s.dev → s.dev.seRuns = true → l.tx = true → l ∈ s.dev.slotLinks s.dev.se.asn →
      l.next ≠ 0 → u.linkLe l = some k → u.hartHalted (2 + k) = false → u.rd SE_STATUS_STATE ≠ 2 →
      (l.band - 1, s.dev.se.asn) ∉ u.se.sent → u.outranked l s.dev.se.asn = false →
      ((u.qMark k l.next true).seStart k x).2 = (.none, .ok) →
      Does (.nextEntryFetch sf i) s fun t => t = ((u.qMark k l.next true).seStart k x).1 ∧
        ∃ c, { x with charges := c } ∈ t.se.issued) ∧
    (∀ (p : Fin 2) (k : Fin 6), s.dev.rd (TXP_CQ_SIZE_ENTRIES p k) ≠ 0 → s.dev.leRuns k = true →
      s.dev.rd (TXP_CQ_WR_WR p k) ≠ s.dev.rd (TXP_CQ_RD_RD p k) →
      let m := s.dev.rdMem (2 + k) (s.dev.rd (TXP_CQ_BASE_ADDR p k) * 32 + s.dev.rd (TXP_CQ_RD_RD p k) * 32) 32
      ((m.1.se.issued.find? fun x => x.path == p.val && x.desc == fieldAt m.2.2 0x1C 4) = none →
        Does (.txCompletionProcess p k) s fun t => t.se.issued = m.1.se.issued ∧
          t.rd (TXP_CQ_RD_RD p k) = (s.dev.rd (TXP_CQ_RD_RD p k) + 1) % s.dev.rd (TXP_CQ_SIZE_ENTRIES p k)) ∧
      (∀ x, (m.1.se.issued.find? fun x => x.path == p.val && x.desc == fieldAt m.2.2 0x1C 4) = some x → x.entry ≠ 0 →
        x.ackReq = true → x.charges = [] → BelowWindows x.entry → fieldAt m.2.2 0 1 = Status.ok.code →
        Does (.txCompletionProcess p k) s fun t => x ∉ t.se.issued ∧
          t.rd (TXP_CQ_RD_RD p k) = (s.dev.rd (TXP_CQ_RD_RD p k) + 1) % s.dev.rd (TXP_CQ_SIZE_ENTRIES p k) ∧
          ∃ a ∈ t.se.acks, a.le = x.le ∧ a.entry = x.entry ∧ a.partner = x.partner ∧ a.ts = fieldAt m.2.2 8 8 ∧
            a.tsEnd = fieldAt m.2.2 0x10 8)) ∧
    (∀ (k : Fin 6) a, (s.dev.se.acks.find? fun x => x.le == k.val) = some a → a.shared = false →
      tsLe (tsAdd (s.dev.ackAt a) (s.dev.ackGuard : Nat)) s.dev.now = true →
      let v := s.dev.onSe fun y => { y with acks := y.acks.filter fun z => z != a }
      let u := (v.qw k a.entry 8 1 (min 255 (s.dev.qTries a.entry + 1))).qw k a.entry 0x0A 1 Status.noAck.code
      (min 255 (s.dev.qTries a.entry + 1) < max 1 (u.rd SE_ACCESS_MAX_TRIES) →
        Does (.ackWindowEnd k) s fun t => t = u.qMark k a.entry false) ∧
      (max 1 (u.rd SE_ACCESS_MAX_TRIES) ≤ min 255 (s.dev.qTries a.entry + 1) →
        Does (.ackWindowEnd k) s fun t => t = u.entryDone k a.entry .noAck)) ∧
    (∀ (k : Fin 6) a, (s.dev.se.acks.find? fun x => x.le == k.val) = some a →
      tsLe (tsAdd (s.dev.ackAt a) (s.dev.ackGuard : Nat)) s.dev.now = false → Does (.ackWindowEnd k) s fun t => t = s.dev)) ∧
  (∀ s : State, s.dev.seRuns = true →
    (∀ (k : Fin 6) a e, (∀ j < 6, s.dev.leRuns j = decide (j = k.val)) → s.dev.rd (LE_RANGE_COUNT k) = 0 →
      s.dev.bqsOf k = [a] → s.dev.qList a = [e] → s.dev.touchQueue k a = s.dev →
      let n := min 255 (s.dev.qAge e + 1)
      (s.dev.qClass e = 3 ∨ n ≤ s.dev.ageLimit (s.dev.qClass e) → Does .agingWrap s fun t => t = s.dev.qw k e 7 1 n) ∧
      (s.dev.qClass e < 3 → s.dev.ageLimit (s.dev.qClass e) < n →
        Does .agingWrap s fun t => t = (s.dev.qw k e 6 1 (s.dev.qFlags e + 1)).qw k e 7 1 0)) ∧
    (∀ p : BitVec 12, s.dev.pValid p.toNat = true → s.dev.touchPartner 0x0C p.toNat = s.dev →
      let m := min 31 (s.dev.pMisses p.toNat + 1)
      let u := s.dev.pfw p.toNat 0x22 1 m
      (u.se.source ≠ some p.toNat → m < missLimit (u.rd SE_MISS_QUIET_AFTER) → m < missLimit (u.rd SE_MISS_REMOVE_AFTER) →
        Does (.expectedExchangeMiss p) s fun t => t = u) ∧
      (u.se.source ≠ some p.toNat → missLimit (u.rd SE_MISS_QUIET_AFTER) ≤ m → m < missLimit (u.rd SE_MISS_REMOVE_AFTER) →
        bitOf (u.pf p.toNat 0x21 1) 4 = false →
        Does (.expectedExchangeMiss p) s fun t => t.rd SE_EVENTS_CHILD_QUIET = 1 ∧ t.rd SE_EVENT_PARTNER_PARTNER = p.toNat) ∧
      (u.se.source = some p.toNat → s.dev.pMisses p.toNat ≠ 2 →
        Does (.expectedExchangeMiss p) s fun t => t.rd SE_EVENTS_MISS = 1 ∧
          t.rd SE_CNT_MISS_COUNT = min (u.rd SE_CNT_MISS_COUNT + 1) 0xFFFFFFFF ∧ Keeps u t [SE_EVENTS, SE_CNT_MISS, SE_STATUS])))


/-- Rules R117, R208, R213 to R215: an arm from the start of its window on names the link engine, starts the search of an idle
assignment and stands until its detection span after the window; a window inside a transmission's blank is skipped, one without an
assignment counted; a disarm clears it, and a search without an arm ends. -/
def Obligations.SleeveArms : Prop :=
  ∀ s : State,
    (∀ (k : Fin 6) (n : Nat) a, s.dev.seRuns = true → (s.dev.se.acks.find? fun x => x.le == k.val) = some a →
      tsLe (tsAdd (s.dev.ackAt a) (-(s.dev.ackGuard : Int))) s.dev.now = true →
      s.dev.armPick (fieldAt (s.dev.peekBytes 0x0C a.link 16) 8 4) (bits (fieldAt (s.dev.peekBytes 0x0C a.link 16) 3 1) 6 2)
        a.chan = some (n, false) →
      Does (.sleeveArm (.ack k)) s fun t => t.rd (SLV_ROUTE_ARMED n) = 1 ∧ t.rd (SLV_ROUTE_ARM_LE n) = s.dev.rangeOf k % 8 ∧
        (n, tsAdd (tsAdd (s.dev.ackAt a) (s.dev.ackGuard : Nat)) (s.dev.spanOf n : Nat)) ∈ t.se.arms ∧
        Keeps s.dev t [SLV_ROUTE n, SLV_STATE n]) ∧
    (∀ (sf : Fin 8) (i : BitVec 11), s.dev.seRuns = true →
      let l := s.dev.linkAt sf i.toNat
      let e := s.dev.expected l.partner s.dev.se.asn
      let h := s.dev.hem l.partner e
      l.rx = true → l ∈ s.dev.slotLinks s.dev.se.asn → l.next = 0 →
      (s.dev.se.issued.any fun x => x.link == l.addr && x.asn == s.dev.se.asn) = false →
      (s.dev.touch 0x0C [(l.addr, 16)]).touchPartner 0x0C l.partner = s.dev → tsLe (tsAdd e (-(h : Int))) s.dev.now = true →
      (∀ n, s.dev.blankCovers (l.band - 1) (tsAdd e (-(h : Int))) (tsAdd e (h : Nat)) = false →
        s.dev.armPick l.sleeves l.band (s.dev.linkChannel l s.dev.se.asn) = some (n, false) →
        Does (.sleeveArm (.link sf i)) s fun t => t.rd (SLV_ROUTE_ARMED n) = 1 ∧ t.rd (SLV_ROUTE_ARM_LE n) = s.dev.armLe l % 8 ∧
          (n, tsAdd (tsAdd e (h : Nat)) (s.dev.spanOf n : Nat)) ∈ t.se.arms ∧ Keeps s.dev t [SLV_ROUTE n, SLV_STATE n]) ∧
      (s.dev.blankCovers (l.band - 1) (tsAdd e (-(h : Int))) (tsAdd e (h : Nat)) = false →
        s.dev.armPick l.sleeves l.band (s.dev.linkChannel l s.dev.se.asn) = none →
        Does (.sleeveArm (.link sf i)) s fun t =>
          t.rd SE_CNT_NO_SLEEVE_COUNT = min (s.dev.rd SE_CNT_NO_SLEEVE_COUNT + 1) 0xFFFFFFFF ∧ Keeps s.dev t [SE_CNT_NO_SLEEVE]) ∧
      (s.dev.blankCovers (l.band - 1) (tsAdd e (-(h : Int))) (tsAdd e (h : Nat)) = true →
        Does (.sleeveArm (.link sf i)) s fun t =>
          t.rd SE_CNT_BLANK_SKIP_COUNT = min (s.dev.rd SE_CNT_BLANK_SKIP_COUNT + 1) 0xFFFFFFFF ∧
          Keeps s.dev t [SE_CNT_BLANK_SKIP])) ∧
    (∀ n : Fin 32, (s.dev.se.arms.any fun a => a.1 == n.val && !tsLe a.2 s.dev.now) = false → s.dev.rd SE_STATUS_STATE ≠ 2 →
      s.dev.rd (SLV_CTRL_SLOT_ARMED n) = 1 → (s.dev.sleeve n).released = false → s.dev.rd (SLV_STATE_STATE n) ∈ [2, 7] →
      Does (.sleeveDisarm n) s fun t => t.rd (SLV_ROUTE_ARMED n) = 0 ∧ t.rd (SLV_STATE_STATE n) = 1 ∧
        (t.sleeve n).research = false ∧ Keeps s.dev t [SLV_ROUTE n, SLV_STATE n]) ∧
    (∀ n : Fin 32, (s.dev.se.arms.any fun a => a.1 == n.val && !tsLe a.2 s.dev.now) = false → s.dev.rd SE_STATUS_STATE ≠ 2 →
      s.dev.rd (SLV_STATE_STATE n) = 6 →
      Does (.sleeveDisarm n) s fun t => t.rd (SLV_ROUTE_ARMED n) = 0 ∧ Keeps s.dev t [SLV_ROUTE n]) ∧
    (∀ n : Fin 32, (s.dev.se.arms.any fun a => a.1 == n.val && !tsLe a.2 s.dev.now) = true →
      Does (.sleeveDisarm n) s fun t => t = s.dev)


/-! ### Link engines -/

/-- Rules R225, R234 and R236: a tick that falls due starts with the lag the arithmetic gives; a released spare is ready with the code
it holds, an engine restarted in place runs again with its code loaded. -/
def Obligations.EngineTicks : Prop :=
  ∀ (s : State) (k : Fin 6),
    (∀ lag due low, s.dev.leRuns k = true →
      tickStart s.dev.now (tickTimes (s.dev.rd (LE_TICK_TICK_US k)) 100 (s.dev.rd SE_CATCHUP_STEP_SHIFT)).1
        (tickTimes (s.dev.rd (LE_TICK_TICK_US k)) 100 (s.dev.rd SE_CATCHUP_STEP_SHIFT)).2 (s.dev.eng k).due (s.dev.eng k).tickMin =
          some (lag, due, low) →
      Does (.leTick k) s fun t => (t.eng k).due = some due ∧ (t.eng k).tickMin = low ∧
        t.rd (LE_LAG_TICK_LAG_US k) = min 0xFFFF (lag / 8) ∧ Keeps s.dev t [LE_LAG k, LE_STATE k]) ∧
    (s.dev.rd (LE_STATE_ROLE k) = 1 → s.dev.rd (LE_STATE_RUNNING k) = 0 → (s.dev.eng k).ready = false → s.dev.up 5 = true →
      (Does (.leSpareReady k) s fun t => t.rd (LE_STATE_RUNNING k) = 1 ∧ t.hartHalted (2 + k) = false ∧
        (t.eng k).code = true ∧ (t.eng k).ready = true ∧ 2 + k.val ∉ t.mnt.pending) ∧
      (Does (.leRestartDone k) s fun t => t.rd (LE_STATE_RUNNING k) = 1 ∧ t.hartHalted (2 + k) = false ∧
        (t.eng k).code = true ∧ (t.eng k).ready = true ∧ t.rd (LE_STATE_ROLE k) = 1)) ∧
    (s.dev.rd (LE_STATE_ROLE k) = 1 → s.dev.rd (LE_STATE_RUNNING k) = 1 → (s.dev.eng k).ready = false → s.dev.up 5 = true →
      Does (.leSpareReady k) s fun t => t.rd (LE_STATE_RUNNING k) = 1 ∧ (t.eng k).ready = true ∧ 2 + k.val ∉ t.mnt.pending ∧
        MemKeeps s.dev t) ∧
    (s.dev.rd (LE_STATE_ROLE k) ≠ 1 ∨ (s.dev.eng k).ready = true ∨ s.dev.up 5 = false →
      Does (.leRestartDone k) s fun t => t = s.dev)


/-- Rule R237: the spare engine is tested each LE_ROT_PERIOD_S; a pass, 20 ms later, lets it swap with the next active engine while that
one is idle, which hands over its range and becomes the spare; a failed test is charged. -/
def Obligations.EngineRotation : Prop :=
  ∀ (s : State) (j : Nat), s.dev.leSpare = some j →
    (s.dev.rd LE_ROT_PERIOD_S ≠ 0 → s.dev.rd (LE_STATE_SELFTEST j) = 0 → s.dev.up 5 = true →
      s.dev.waited .leTest (us (1000000 * s.dev.rd LE_ROT_PERIOD_S)) = true →
      Does .leSelftestStart s fun t => t.rd (LE_STATE_SELFTEST j) = 1 ∧ (t.unit (2 + j)).state = 3 ∧ Keeps s.dev t [LE_STATE j]) ∧
    (s.dev.waited .leTest (us (1000000 * s.dev.rd LE_ROT_PERIOD_S)) = false →
      Does .leSelftestStart s fun t => t = s.dev) ∧
    (s.dev.rd (LE_STATE_SELFTEST j) = 1 → s.dev.waited .leTest (us 20000) = true →
      Does (.leSelftestDone true) s fun t => t.rd (LE_STATE_SELFTEST j) = 0 ∧ t.se.rotate = true ∧ (t.unit (2 + j)).state = 2 ∧
        Keeps s.dev t [LE_STATE j]) ∧
    (s.dev.rd (LE_STATE_SELFTEST j) = 1 → s.dev.waited .leTest (us 20000) = true →
      Does (.leSelftestDone false) s fun t => t.rd LE_EVENTS_SELFTEST_FAIL = 1 ∧
        (t.unit (2 + j)).total = min ((s.dev.unit (2 + j)).total + 1) 0xFFFFFFFF) ∧
    (∀ k, s.dev.leNext = some k → s.dev.se.rotate = true → s.dev.leIdle k = true → s.dev.up 5 = true →
      Does .leRotationSwap s fun t => t.rd (LE_STATE_ROLE j) = 1 ∧ t.rd (LE_STATE_RUNNING j) = 1 ∧ t.rd (LE_STATE_ROLE k) = 2 ∧
        t.reg (LE_RANGE j) = s.dev.reg (LE_RANGE k) ∧ t.reg (LE_RANGE k) = 0 ∧ t.se.rotate = false ∧
        t.se.nextLe = (k + 1) % 6 ∧ t.rd LE_EVENTS_ROTATED = 1)


/-! ### Partners -/

/-- Rules R240 and R242: ADD writes a free entry from the arguments with its keys and counts it, UPDATE rewrites a valid one, REENTER
clears REMOVED, QUIET and MISSES, LOOKUP answers the entry of one key. Each ends with its result and CMD_DONE. The entry is taken to be
read without error. -/
def Obligations.PartnerCommands : Prop :=
  ∀ (s : State) (ini : Ini),
    let i := s.dev.rd PT_INDEX_INDEX
    Open s ini PT_CMD → s.dev.rd PT_CMD_PENDING = 0 →
    (∀ l, s.dev.touchPartner (s.dev.ownerOf i) i = s.dev → s.dev.served i = true → s.dev.pValid i = false → s.dev.ptConflict i = false →
      keysAdd (keysDrop s.dev.ml.keys i) i s.dev.ptKeys = some l →
      let u := ((s.dev.ptScrub i).ptWrite i).pfBits i 0x0D 0 1 1
      Does (.ptAdd ini) s fun t => t.rd PT_CMD_RESULT = Status.ok.code ∧ t.rd PT_CMD_PENDING = 0 ∧ t.rd PT_EVENTS_CMD_DONE = 1 ∧
        t.ml.keys = l ∧ t.mem = u.mem ∧ t.rd PT_STATUS_VALID_COUNT = (u.rd PT_STATUS_VALID_COUNT + 1) % 2 ^ 13) ∧
    (∀ l, s.dev.touchPartner (s.dev.ownerOf i) i = s.dev → s.dev.served i = true → s.dev.pValid i = true → s.dev.ptConflict i = false →
      keysAdd (keysDrop s.dev.ml.keys i) i s.dev.ptKeys = some l →
      Does (.ptUpdate ini) s fun t => t.rd PT_CMD_RESULT = Status.ok.code ∧ t.rd PT_CMD_PENDING = 0 ∧
        t.rd PT_EVENTS_CMD_DONE = 1 ∧ t.ml.keys = l ∧ t.mem = (s.dev.ptWrite i).mem) ∧
    (s.dev.touchPartner (s.dev.ownerOf i) i = s.dev → s.dev.served i = true → s.dev.pValid i = true →
      Does (.ptReenter ini) s fun t => t.rd PT_CMD_RESULT = Status.ok.code ∧ t.rd PT_EVENTS_CMD_DONE = 1 ∧
        t.mem = (((s.dev.pfBits i 0x0D 1 1 0).pfBits i 0x21 4 1 0).pfw i 0x22 1 0).mem) ∧
    (∀ k j, s.dev.ptKeys = [k] → s.dev.ptFind k = some j → j < 4096 →
      Does (.ptLookup ini) s fun t => t.rd PT_CMD_RESULT = Status.ok.code ∧ t.rd PT_INDEX_INDEX = j ∧
        t.rd PT_EVENTS_CMD_DONE = 1 ∧ Keeps s.dev t [PT_CMD, PT_INDEX, PT_EVENTS]) ∧
    (∀ k, s.dev.ptKeys = [k] → s.dev.ptFind k = none →
      Does (.ptLookup ini) s fun t => t.rd PT_CMD_RESULT = Status.noPartner.code ∧
        t.rd PT_CNT_MISS_COUNT = min (s.dev.rd PT_CNT_MISS_COUNT + 1) 0xFFFFFFFF ∧ Keeps s.dev t [PT_CMD, PT_CNT_MISS, PT_EVENTS])


/-- Rules R242, R243 and R245: DELETE completes at once where no cipher request of the partner is outstanding, else it stays pending;
a command for an entry in the wrong state, or with keys that another entry holds, ends with its refusal and changes no memory; after
PD5 was off the key index is rebuilt from the valid entries. The entries are taken to be read without error. -/
def Obligations.PartnerDeleteRebuild : Prop :=
  ∀ (s : State) (ini : Ini),
    let i := s.dev.rd PT_INDEX_INDEX
    (Open s ini PT_CMD → s.dev.rd PT_CMD_PENDING = 0 → s.dev.served i = true → s.dev.touchPartner (s.dev.ownerOf i) i = s.dev →
      s.dev.pValid i = true →
      let u := s.dev.queueEmpty i .partnerRemoved
      (((u.ptRequests i).any fun a => u.sec.queue.any fun q => q.addr == a) = false →
        Does (.ptDelete ini) s fun t => t.rd PT_CMD_RESULT = Status.ok.code ∧ t.rd PT_CMD_PENDING = 0 ∧
          t.rd PT_EVENTS_CMD_DONE = 1 ∧ t.ml.ptOp = none) ∧
      (((u.ptRequests i).any fun a => u.sec.queue.any fun q => q.addr == a) = true →
        Does (.ptDelete ini) s fun t => t.rd PT_CMD_PENDING = 1 ∧ t.ml.ptOp = some (3, i) ∧ MemKeeps u t)) ∧
    (Open s ini PT_CMD → s.dev.rd PT_CMD_PENDING = 0 → s.dev.served i = true → s.dev.touchPartner (s.dev.ownerOf i) i = s.dev →
      (s.dev.pValid i = true →
        Does (.ptAdd ini) s fun t => t.rd PT_CMD_RESULT = Status.busy.code ∧ Keeps s.dev t [PT_CMD, PT_EVENTS]) ∧
      (s.dev.pValid i = false → ∀ c ∈ [Instr.ptDelete ini, .ptReenter ini],
        Does c s fun t => t.rd PT_CMD_RESULT = Status.noPartner.code ∧ Keeps s.dev t [PT_CMD, PT_EVENTS]) ∧
      (s.dev.ptConflict i = true →
        Does (.ptUpdate ini) s fun t => t.rd PT_CMD_RESULT = Status.keyConflict.code ∧ Keeps s.dev t [PT_CMD, PT_EVENTS])) ∧
    (s.dev.ml.rebuilding = true → s.dev.up 5 = true → s.dev.touch 0x0C [(partnerAddr 0, 4096 * 64)] = s.dev →
      Does .keyIndexRebuild s fun t => t.ml.rebuilding = false ∧ t.rd PT_EVENTS_INDEX_REBUILT = 1 ∧
        t.rd PT_STATUS_VALID_COUNT = ((List.range 4096).filter s.dev.pValid).length % 2 ^ 13 ∧
        Keeps s.dev t [PT_STATUS, PT_EVENTS, ML_STATUS])


/-! ### The message layer -/

/-- Rules R246, R247, R249, R250 and R255: an engine takes the next report of its ring, passing over a receiver's failure and setting
a frame of a valid partner down for its verdict, a secured one with its cipher request; a frame that failed authentication is
counted, scrubbed and freed; an accepted acknowledgement completes its frame, an accepted MAC command goes to its consumer, an
accepted fragment joins its message; a reassembly that takes too long gives up its context and its descriptors. -/
def Obligations.MessageReception : Prop :=
  ∀ s : State,
    (∀ (k : Fin 6) req upset,
      let n := s.dev.rd (SLV_RQ_SIZE_ENTRIES k)
      let r := s.dev.rd (SLV_RQ_RD_RD k)
      let m := s.dev.rdMem (2 + k) (s.dev.rd (SLV_RQ_BASE_ADDR k) * 64 + r * 64) 64
      let p := fieldAt m.2.2 0x12 2
      let u := m.1.wr (SLV_RQ_RD_RD k) ((r + 1) % n)
      n ≠ 0 → s.dev.rd (SLV_RQ_WR_WR k) ≠ r → s.dev.leRuns k = true → ((s.dev.eng k).rx.any fun w => w.partner == p) = false →
      (fieldAt m.2.2 0 1 ≠ Status.ok.code →
        Does (.rxReportProcess k req upset) s fun t => t.rd (SLV_RQ_RD_RD k) = (r + 1) % n ∧
          t = u.setEng k { u.eng k with badReports := (u.eng k).badReports + 1 }) ∧
      (∀ v, fieldAt m.2.2 0 1 = Status.ok.code → u.touch (2 + k) [(u.bufAddr (repDesc m.2.2), fieldAt m.2.2 6 2)] = u →
        u.touchPartner (2 + k) p = u → u.pValid p = true → u.seen m.2.2 = some v →
        let w : RxWait := { partner := p, dup := false, desc := repDesc m.2.2, report := m.2.2, req := none, group := false,
                            fc := none, asn := u.slotOf (repTs m.2.2), early := false }
        (v.aux = none → u.allows (u.pf p 0x0C 1 % 64) 5 = true →
          Does (.rxReportProcess k req upset) s fun t => t.rd (SLV_RQ_RD_RD k) = (r + 1) % n ∧ Keeps u t [] ∧
            (t.eng k).rx = (u.eng k).rx ++
              [{ w with dup := !v.mac.seqSup && bitOf (u.pf p 0x0D 1) 5 && v.mac.seq == u.pf p 0x0E 1 }]) ∧
        (∀ a c g d, v.aux = some a → u.rxSpace p a = some (c, g) → u.rxClass p g v.mac a.fc = some d →
          let x := req.toNat / 64 * 64
          Does (.rxReportProcess k req upset) s fun t =>
            t = (u.decipher s.fuses.device k p v a c x m.2.2 upset).rxWait k
              { w with dup := d, req := some x, group := g, fc := some a.fc }))) ∧
    (∀ (k : Fin 6) (p : BitVec 12) pre ack plans w v,
      ((s.dev.eng k).rx.find? fun x => x.partner == p.toNat) = some w →
      (w.req.any fun a => s.dev.sec.queue.any fun q => q.addr == a) = false → s.dev.leRuns k = true →
      let u := s.dev.setEng k { s.dev.eng k with rx := (s.dev.eng k).rx.filter fun x => x != w }
      let st := w.req.elim 0 fun a => u.peek 0x0C (a + 4) 1
      let x := (u.entryHeard w v.mac).rxSync w pre.toNat
      let y := if v.mac.ar ∧ w.req.isSome then x.ackSend k w v.mac (u.rxError w pre.toNat) ack else x
      u.seen w.report = some v →
      (st = Status.authFail.code → w.early = false →
        Does (.rxVerdict k p pre ack plans) s fun t => (t.desc w.desc).holder = .free ∧
          t = ((u.bump ML_CNT_AUTH_FAIL_COUNT).set ML_EVENTS_AUTH_FAIL).descScrub k w.desc) ∧
      (st = Status.ok.code → u.macPayload w v ≠ none → w.dup = false →
        (v.mac.ftype = 2 →
          Does (.rxVerdict k p pre ack plans) s fun t => t = ((u.entryHeard w v.mac).ackTaken w v).poolFree w.desc) ∧
        (v.mac.ftype = 3 →
          Does (.rxVerdict k p pre ack plans) s fun t => t = y.deliverRaw (y.rd ML_CFG_MAC) w.partner w.asn w.report) ∧
        (∀ f, v.mac.ftype = 1 → u.carried w v = some f →
          (u.needsCtx p.toNat f = true → u.ml.ctxs.length < u.ctxLimit) →
          Does (.rxVerdict k p pre ack plans) s fun t => t = y.fragment w.partner w.desc f w.early w.asn plans))) ∧
    (∀ (p : BitVec 12) (o : BitVec 16) (kind : Fin 16) (x : BitVec 16) c,
      (s.dev.ml.ctxs.find? fun c => c.partner == p.toNat && c.origin == o.toNat && c.kind == kind.val && c.txn == x.toNat) = some c →
      ((max 1 (s.dev.rd ML_RA_CFG_TIMEOUT_100MS) * 800000 : Nat) : Int) ≤ tsDiff s.dev.now c.opened → c.streamed = false →
      s.dev.rd ML_CFG_SCRUB_ON_FREE = 0 → BelowWindows (s.dev.rd ML_RA_BASE_ADDR * 64 + 64 * c.slot) →
      (∀ d ∈ c.parts, (s.dev.desc d.desc).le < 6) →
      Does (.reassemblyTimeout p o kind x) s fun t => t.ml.ctxs = s.dev.ml.ctxs.filter (fun y => y != c) ∧
        (∀ d ∈ c.parts, d.verdict = some true → s.dev.handed d.desc = false → (t.desc d.desc).holder = .free) ∧
        t.rd ML_EVENTS_RA_TIMEOUT = 1 ∧
        t.rd ML_CNT_RA_TIMEOUT_COUNT = min (s.dev.rd ML_CNT_RA_TIMEOUT_COUNT + 1) 0xFFFFFFFF ∧ MemKeeps (s.dev.ctxDrop c) t)


/-- Rules R260, R263, R264 and R276 to R278: a submission is sent or refused with its completion, at once or when it is released; a
transaction that times out with no try left completes with NO_ACK, or BUSY where it was told to wait, and with a try left it is sent
again, as it is when its back-off has passed; a completion held for a full ring is written once there is room. -/
def Obligations.Transactions : Prop :=
  ∀ (s : State) (sub : Fin 3) (plans : List FragPlan),
    (∀ c ∈ [Instr.submission sub plans, .submissionRelease sub plans],
      let l := s.dev.rdMem 0x0C (s.dev.rd (ML_RING_BASE_ADDR (3 + sub)) * 32 + s.dev.rd (ML_RING_RD_RD (3 + sub)) * 32) 32
      let b := l.2.2
      let u := l.1.subNext (3 + sub)
      let kind := fieldAt b 0 1 % 16
      let dest := fieldAt b 2 2
      let len := fieldAt b 6 2
      let opened := kind == 0 && bitOf (fieldAt b 0 1) 6 || kind == 1
      s.dev.rd ML_CFG_ENABLE = 1 → s.dev.up 5 = true → s.dev.rd (ML_RING_SIZE_ENTRIES (3 + sub)) ≠ 0 →
      s.dev.rd (ML_RING_WR_WR (3 + sub)) ≠ s.dev.rd (ML_RING_RD_RD (3 + sub)) → l.2.1 = .ok →
      (∀ h, badSubmit b = false → len ≤ 4096 → fieldAt b 0x10 5 ≤ s.dev.se.asn → (opened = true → s.dev.ml.txns.length < 256) →
        (if dest = 0xFFFF then Hop.via 0xFFFF else s.dev.hop dest) = .via h →
        let e := l.1.touchRoute dest
        let d := if len = 0 then (e, Status.ok, []) else e.rdMem 0x0C (fieldAt b 8 4) len
        d.2.1 = .ok → (∀ m : Msg, m.data = d.2.2 → s.dev.fragCount m h ≤ min 255 plans.length) →
        Does c s fun t => ∃ a y n, t.ml.sends = a ++ [y] ∧ y.dest = dest ∧ y.what = .submit sub (fieldAt b 0x0C 2) opened ∧
          y.txn = (if kind = 2 then fieldAt b 4 2 else (d.1.subNext (3 + sub)).rd ML_TXN_NEXT_NEXT) ∧ y.tries = 1 ∧
          y.entries = (plans.take n).map (·.at_.entryAt)) ∧
      (badSubmit b = true →
        (Does c s fun t => t = u.mlComplete sub .badSubmit 0 (fieldAt b 0x0C 2) (fieldAt b 4 2) dest) ∧
        (u.mlFree (6 + sub) = false →
          Does c s fun t => Keeps u t [ML_STATUS] ∧ t.ml.heldDone =
            u.ml.heldDone ++ [(sub.val, completion .badSubmit 0 (fieldAt b 0x0C 2) (fieldAt b 4 2) dest u.se.asn)]))) ∧
    (∀ (id : BitVec 16) x a, s.dev.txnOf id.toNat = some x → x.since = some a → (x.timeout : Int) ≤ tsDiff s.dev.now a →
      ¬ (x.dest = 0xFFFF ∧ x.msg.kind = 1) → x.retries = 0 → x.sub = sub →
      let u := s.dev.txnClose x.id
      let w := u.rd (ML_RING_WR_WR (6 + sub))
      let n := u.rd (ML_RING_SIZE_ENTRIES (6 + sub))
      let rec_ := completion (if x.busy then .busy else .noAck) x.tries x.tag x.id x.dest u.se.asn
      (u.mlFree (6 + sub) = true → (u.ml.heldDone.any fun y => y.1 == sub.val) = false →
        Does (.txnTimeout id plans) s fun t => t.rd (ML_RING_WR_WR (6 + sub)) = (w + 1) % n ∧
          t.mem = (u.put8 0x0C (u.rd (ML_RING_BASE_ADDR (6 + sub)) * 32 + w * 16) rec_).mem) ∧
      (u.mlFree (6 + sub) = false → BelowWindows (s.dev.rd ML_TXN_BASE_ADDR * 32 + 32 * x.slot) →
        Does (.txnTimeout id plans) s fun t => t.ml.heldDone = u.ml.heldDone ++ [(sub.val, rec_)] ∧ t.txnOf x.id = none ∧
          Keeps u t [ML_STATUS])) ∧
    (∀ (id : BitVec 16) x h c, s.dev.txnOf id.toNat = some x →
      (c = .txnResend id plans ∧ (x.resendAt.any fun n => decide (n ≤ s.dev.se.asn)) = true) ∨
        (c = .txnTimeout id plans ∧ (x.since.all fun n => decide (tsDiff s.dev.now n < (x.timeout : Int))) = false ∧
          ¬ (x.dest = 0xFFFF ∧ x.msg.kind = 1) ∧ x.retries ≠ 0) →
      (if x.dest = 0xFFFF then Hop.via 0xFFFF else s.dev.hop x.dest) = .via h → s.dev.fragCount x.msg h ≤ plans.length →
      Does c s fun t => ∃ a y, t.ml.sends = a ++ [y] ∧ y.txn = x.msg.txn ∧ y.dest = x.msg.dest ∧
        y.tries = x.tries + 1 ∧ y.what = .submit x.sub x.tag true) ∧
    (∀ rec_, s.dev.ml.heldDone = [(sub.val, rec_)] → s.dev.mlFree (6 + sub) = true →
      let u := (s.dev.onMl fun m => { m with heldDone := [] }).mlPut (6 + sub) rec_
      u.ml.heldDone = [] →
      Does (.mlCompletionRelease sub) s fun t => t = u ∧
        t.rd (ML_RING_WR_WR (6 + sub)) = (s.dev.rd (ML_RING_WR_WR (6 + sub)) + 1) % s.dev.rd (ML_RING_SIZE_ENTRIES (6 + sub)))


/-- Rules R273, R279 and R281: a write to ML_DESC_FREE returns the chain that starts there, and is refused for a descriptor that heads no
delivered chain; ML_CFG takes its bits, and ENABLE set again after a restart starts from an empty pool and empty rings. -/
def Obligations.MessageLayerControl : Prop :=
  ∀ (s : State) (ini : Ini) (v : Word),
    (∀ d, d = s.dev.desc (v.toNat % 2048) → Open s ini ML_DESC_FREE → d.holder = .delivered → d.head = true → d.next = none →
      d.le < 6 → s.dev.rd ML_CFG_SCRUB_ON_FREE = 0 →
      Does (.descFree ini v) s fun t => (t.desc (v.toNat % 2048)).holder = .free ∧
        t.rd ML_POOL_STATUS_FREE = min (s.dev.rd ML_POOL_STATUS_FREE + 1) 0xFFF ∧ t.resp.status = .ok ∧
        Keeps s.dev t [ML_POOL_STATUS, ML_POOL_QUOTA d.le, ML_EVENTS]) ∧
    (Open s ini ML_DESC_FREE → ((s.dev.desc (v.toNat % 2048)).holder ≠ .delivered ∨ (s.dev.desc (v.toNat % 2048)).head = false) →
      Does (.descFree ini v) s fun t => t.rd ML_EVENTS_BAD_FREE = 1 ∧ t.pool = s.dev.pool ∧ Keeps s.dev t [ML_EVENTS]) ∧
    (Open s ini ML_CFG → (s.dev.rd ML_CFG_ENABLE = 1 ∨ v.getLsbD 0 = false ∨ s.dev.ml.restart = false) →
      Does (.mlEnable ini v) s fun t => (t.reg ML_CFG).toNat = v.toNat % 2 ^ 15 ∧ t.pool = s.dev.pool ∧ t.ml = s.dev.ml ∧
        Keeps s.dev t [ML_CFG]) ∧
    (Open s ini ML_CFG → s.dev.rd ML_CFG_ENABLE = 0 → v.getLsbD 0 = true → s.dev.ml.restart = true →
      Does (.mlEnable ini v) s fun t => (t.reg ML_CFG).toNat = v.toNat % 2 ^ 15 ∧ t.pool = [] ∧ t.ml.ctxs = [] ∧ t.ml.txns = [] ∧
        t.ml.sends = [] ∧ t.ml.heldDone = [] ∧ t.rd ML_POOL_STATUS_FREE = min 2048 (s.dev.rd ML_POOL_CFG_COUNT) ∧
        (∀ j < 9, t.rd (ML_RING_WR_WR j) = 0 ∧ t.rd (ML_RING_RD_RD j) = 0) ∧ MemKeeps s.dev t)


/-! ### The cipher engines -/

/-- Rules R301, R302 and R305: a submission is refused before the queue accepts, refused by the first check it fails, or bound to the
present generation and put behind the queue; a register of another requester turns the write away; an idle engine takes the
request whose turn it is, a CCM_ENC one with its counter value, a part of a CMAC with its saved context. -/
def Obligations.CipherQueue : Prop :=
  ∀ s : State,
    (∀ (ini : Ini) (r : Fin 10) (a : BitVec 32) upset, Open s ini (CE_SUB_ADDR r) → r.val ≠ 8 → ini.val = r.val →
      (s.dev.sec.ready = false ∨ (s.dev.ceServes 0 || s.dev.ceServes 1) = false) →
      let u := s.dev.put8 (s.dev.ceIni none) (a.toNat / 64 * 64 + 4) (leBytes 1 Status.notReady.code)
      Does (.ceSubmit ini r a upset) s fun t => t.rd (CE_SUB_STAT_LAST_STATUS r) = Status.notReady.code ∧
        t.rd CE_EVENTS_REFUSED = 1 ∧ t.rd CE_CNT_REFUSED_COUNT = min (u.rd CE_CNT_REFUSED_COUNT + 1) 0xFFFFFFFF ∧ t.sec = u.sec ∧
        t.resp.status = .ok ∧ Keeps u t [CE_SUB_STAT r, CE_EVENTS, CE_CNT_REFUSED]) ∧
    (∀ (ini : Ini) (r : Fin 10) (a : BitVec 32) upset, Open s ini (CE_SUB_ADDR r) → r.val ≠ 8 → ini.val = r.val →
      s.dev.sec.ready = true → (s.dev.ceServes 0 || s.dev.ceServes 1) = true →
      let l := s.dev.rdMem (s.dev.ceIni none) (a.toNat / 64 * 64) 64
      let q : CeReq := { addr := a.toNat / 64 * 64, r := r.val, bytes := l.2.2, gen := 0, at_ := l.1.now, engine := none,
                         rerun := false, deferred := false, wasDeferred := false, streamed := false, fc := none, ctx := [] }
      let y := l.1.ceUpset s.fuses.device q.pocket upset
      l.2.1 = .ok →
      (y.ceRefusal (s.dev.ceIni none) q = none →
        Does (.ceSubmit ini r a upset) s fun t => t.rd (CE_SUB_STAT_LAST_STATUS r) = Status.queued.code ∧
          ∃ b g, t.sec.queue = b ++ [{ q with gen := g }] ∧ ∀ k, (y.pocket q.pocket).cur = some k → g = k.gen) ∧
      (∀ st, y.ceRefusal (s.dev.ceIni none) q = some st →
        Does (.ceSubmit ini r a upset) s fun t => t.rd (CE_SUB_STAT_LAST_STATUS r) = st.code ∧ t.rd CE_EVENTS_REFUSED = 1)) ∧
    (∀ (ini : Ini) (r : Fin 10) (a : BitVec 32) upset, Open s ini (CE_SUB_ADDR r) → r.val ≠ 8 → ini.val ≠ r.val →
      Does (.ceSubmit ini r a upset) s fun t => t.resp.status = .routeDenied ∧ t.sec = s.dev.sec ∧ Keeps s.dev t []) ∧
    (∀ (ini : Ini) (a : BitVec 32) upset, Open s ini (CE_SUB_ADDR 8) →
      Does (.ceSubmit ini 8 a upset) s fun t => t.sec = s.dev.sec ∧ Keeps s.dev t []) ∧
    (∀ (e : Fin 2) upset p q, s.dev.ceIdle e = true → s.dev.cePick = some p →
      let v := s.dev.ceUpset s.fuses.device p.pocket upset
      let x := { q with engine := some e.val }
      let u := (v.ceUpdate q x).set ⟨CE_ENG, 8 * e + 2, 1⟩
      v.cePick = some q → v.ceHeldBack q = false → v.ml.ptOp = none →
      (q.op ≠ 1 → (q.isCmac && !q.flag 0) = false →
        Does (.ceRequestStart e upset) s fun t => t = u ∧ t.rd ⟨CE_ENG, 8 * e + 2, 1⟩ = 1 ∧
          { q with engine := some e.val } ∈ t.sec.queue ∧ Keeps v t [CE_ENG]) ∧
      (q.op = 1 → (v.pocket q.pocket).fc < 0xFFFFFFFE →
        let w := u.takeCounter s.fuses.device e x
        w.2.2 = .ok → w.1.ml.ptOp = none →
        Does (.ceRequestStart e upset) s fun t => t = w.1 ∧ w.2.1.fc = some (v.pocket q.pocket).fc) ∧
      (q.op ≠ 1 → (q.isCmac && !q.flag 0) = true →
        let c := u.ceRestore e x
        c.2.1 = .ok → c.1.ml.ptOp = none →
        Does (.ceRequestStart e upset) s fun t => t = c.1.ceUpdate x { x with ctx := c.2.2 }))


/-- Rules R306, R307, R309, R310 and R511: the run of a request ends with its verdict, after which it is out of the queue and its engine
free; the plaintext of a streamed request is in OUT, marked NOT_READY, before its verdict; an access that fails stops the
request with that status. -/
def Obligations.CipherRuns : Prop :=
  ∀ (s : State) (e : Fin 2) (q : CeReq), s.dev.ceRunning e = some q →
    let r := s.dev.ceRun e q
    let u := r.1.ceCount e q.ops
    (q.r < 10 → r.2 = .ok →
      let x := u.ceFinish q .ok (q.op == 2 && q.level == 4)
      x.ml.ptOp = none →
      Does (.ceRequestDone e) s fun t => t = x ∧ q ∉ t.sec.queue ∧ t.rd ⟨CE_ENG, 8 * e + 2, 1⟩ = 0) ∧
    (q.r < 10 → r.2 = .authFail →
      let z := if q.outLen ≠ 0 then u.put8 (0x0A + e) q.outAddr (List.replicate q.outLen 0) else u
      let x := (z.ceReject q.pocket q.streamed).ceFinish q .authFail false
      x.ml.ptOp = none →
      Does (.ceRequestDone e) s fun t => t = x ∧ q ∉ t.sec.queue ∧ t.rd ⟨CE_ENG, 8 * e + 2, 1⟩ = 0 ∧
        (z.ceReject q.pocket q.streamed).rd CE_CNT_AUTH_FAIL_COUNT = min (z.rd CE_CNT_AUTH_FAIL_COUNT + 1) 0xFFFFFFFF) ∧
    (s.dev.ceStreams q = true → q.streamed = false →
      let m := s.dev.ceRead (0x0A + e) q.mAddr q.mLen
      let w := m.1.ceWrite (0x0A + e) q.outAddr (ccmCrypt (nums (((s.dev.pocket q.pocket).keyOf q.gen).getD [])) q.nonce (nums m.2.2))
      let v := { q with streamed := true }
      let x := ((w.1.ceUpdate q v).put8 (0x0A + e) (q.addr + 6) (leBytes 1 (v.flags false))).put8 (0x0A + e) (q.addr + 4)
        (leBytes 1 Status.notReady.code)
      m.2.1 = .ok → w.2 = .ok → (x.ceRunning e).any (·.streamed) = true →
      Does (.ceStreamOutput e) s fun t => t = x.plaintext q.addr) ∧
    (∀ c ∈ [Instr.ceAccessFail e, .ceRequestDone e], q.r < 10 → r.2 ≠ .ok → r.2 ≠ .authFail →
      let x := r.1.ceStop e q r.2
      x.ml.ptOp = none →
      Does c s fun t => t = x ∧ q ∉ t.sec.queue ∧ t.rd ⟨CE_ENG, 8 * e + 2, 1⟩ = 0)


/-- Rules R323 to R325: the power-up tests open the queue 40 us after power-up; an engine that faults gives its request back to be rerun
and is charged; a spare that passes its tests, due every PERIOD_S, takes the active engine's place, one that fails is charged; an
engine restarted in place serves again. -/
def Obligations.CipherEngines : Prop :=
  ∀ s : State,
    (∀ e : Fin 2, s.dev.ceRole e = 1 → s.dev.up 2 = true → s.dev.sec.ready = false → s.dev.waited .cePower (us 40) = true →
      s.dev.sec.journal = [] → s.dev.sec.jErase = [] → s.dev.sec.jNext < 1024 →
      Does (.cePowerupTestDone true true) s fun t => t.sec.ready = true ∧ t.sec.failedTest = [] ∧ t.sec.queue = s.dev.sec.queue ∧
        t.rd ⟨CE_ENG, 8 * e + 4, 1⟩ = 0 ∧ Keeps s.dev t [CE_ENG]) ∧
    (∀ (e : Fin 2) q, s.dev.ceRole e = 1 → s.dev.ceRunning e = some q →
      let v := (s.dev.ceRerun e).charge (0x0A + e) .engineFault 0
      (v.ceServes 0 || v.ceServes 1) = true → v.ml.ptOp = none →
      Does (.ceEngineFault e) s fun t => t = v ∧ (s.dev.ceRerun e).rd CE_EVENTS_RERUN = 1 ∧
        { q with engine := none, rerun := true, streamed := false, ctx := [] } ∈ (s.dev.ceRerun e).sec.queue) ∧
    (∀ e, (([0, 1] : List Nat).find? fun e => s.dev.ceRole e == 2) = some e → s.dev.rd CE_ROT_PERIOD_S ≠ 0 → s.dev.up 2 = true →
      s.dev.waited .ceTest (us (1000000 * s.dev.rd CE_ROT_PERIOD_S)) = true →
      (Does (.ceRotationTest true) s fun t => t.sec.rotate = some e ∧ Keeps s.dev t []) ∧
      (let v := ((s.dev.mark .ceTest).set CE_EVENTS_SELFTEST_FAIL).charge (0x0A + e) .selftestFail 0
       (v.ceServes 0 || v.ceServes 1) = true →
        Does (.ceRotationTest false) s fun t => t = v ∧
          (t.unit (0x0A + e)).total = min ((s.dev.unit (0x0A + e)).total + 1) 0xFFFFFFFF)) ∧
    (∀ e < 2, s.dev.sec.rotate = some e → s.dev.ceRole e = 2 → s.dev.ceRole (1 - e) = 1 →
      s.dev.rd ⟨CE_ENG, 8 * (1 - e) + 2, 1⟩ = 0 →
      Does .ceRotationSwap s fun t => t.ceRole e = 1 ∧ t.ceRole (1 - e) = 2 ∧ t.sec.rotate = none ∧ t.rd CE_EVENTS_ROTATED = 1 ∧
        (t.unit (0x0A + e)).state = 0 ∧ (t.unit (0x0A + (1 - e))).state = 2 ∧ Keeps s.dev t [CE_ENG, CE_EVENTS]) ∧
    (∀ e : Fin 2, (s.dev.unit (0x0A + e)).state = 1 →
      Does (.ceRestartDone e) s fun t => (t.unit (0x0A + e)).state = (if s.dev.ceRole e = 2 then 2 else 0) ∧ Keeps s.dev t svcRegs)


/-! ### The pocket store -/

/-- Rules R12, R290 and R322: a command of a caller that ADMIN names writes a key as a new generation, exports one wrapped, or draws one; a
persistent pocket's key waits for its journal record; another caller is refused with the lowest code that applies, and a command
during another ignored. Rules R290 to R292: ERASE marks the pocket and waits for the requests bound to it, ERASE_NOW aborts them;
what is left of an erased pocket is its generation number. -/
def Obligations.PocketStore : Prop :=
  (∀ (s : State) (ini : Ini),
    let n := s.dev.pckTarget
    let u := s.dev.wr PCK_CMD_CALLER ini
    Open s ini PCK_CMD →
    (∀ c op, (c, op) ∈ [(Instr.pocketWriteWrapped ini, 1), (.pocketWriteClear ini, 2), (.pocketGenerate ini, 3), (.pocketExport ini, 4),
        (.pocketErase ini, 5)] →
      (s.dev.rd PCK_CMD_PENDING = 1 →
        Does c s fun t => t.rd PCK_EVENTS_CMD_IGNORED = 1 ∧ t.sec = s.dev.sec ∧ Keeps s.dev t [PCK_EVENTS]) ∧
      (s.dev.rd PCK_CMD_PENDING = 0 →
        let st := worse (u.pckCheck op) (if s.dev.pckAdmin ini n then .ok else .policyDenied)
        st ≠ .ok → st ≠ .notReady →
        Does c s fun t => t.rd PCK_CMD_RESULT = st.code ∧ t.rd PCK_CMD_CALLER = ini ∧ t.rd PCK_EVENTS_CMD_DONE = 1 ∧
          t.sec.pockets = s.dev.sec.pockets ∧ Keeps s.dev t [PCK_CMD, PCK_EVENTS])) ∧
    (s.dev.rd PCK_CMD_PENDING = 0 → s.dev.pckAdmin ini n = true →
      (∀ b, u.keySize n ≠ 0 → (u.pocket u.pckKek).holds = true → u.allows u.pckKek 4 = true → u.pckBusy n = false →
        let r := u.rdMem 9 u.pckAddr (keyOctets (u.keySize n) + 16)
        r.2.1 = .ok → kwUnwrap (((r.1.pocket u.pckKek).cur).elim [] fun g => nums g.key) (nums r.2.2) = some b →
        b.take 8 = [1, u.keySize n, 0, 0, 0, 0, 0, 0] → r.1.persist n = false → (r.1.pocket n).erasing = false →
        Does (.pocketWriteWrapped ini) s fun t => t.rd PCK_CMD_RESULT = Status.ok.code ∧ t.rd PCK_CMD_PENDING = 0 ∧
          (t.pocket n).cur = some { gen := (r.1.pocket n).nextGen, key := octets (b.drop 8) } ∧ (t.pocket n).gen = (r.1.pocket n).nextGen) ∧
      (u.keySize n ≠ 0 → u.allows n 20 = true → u.pckBusy n = false →
        let r := u.rdMem 9 u.pckAddr (keyOctets (u.keySize n))
        let w := r.1.wrMem 9 u.pckAddr (List.replicate (keyOctets (u.keySize n)) 0)
        r.2.1 = .ok → w.2 = .ok → w.1.persist n = false → (w.1.pocket n).erasing = false →
        Does (.pocketWriteClear ini) s fun t => t.rd PCK_CMD_RESULT = Status.ok.code ∧ t.rd PCK_CMD_PENDING = 0 ∧ t.mem = w.1.mem ∧
          (t.pocket n).cur = some { gen := (w.1.pocket n).nextGen, key := r.2.2 }) ∧
      (∀ x k, u.keySize n ≠ 0 → u.pckBusy n = false → u.drbgTake (keyOctets (u.keySize n)) = (x, some k) →
        (x.persist n = false → (x.pocket n).erasing = false →
          Does (.pocketGenerate ini) s fun t => t.rd PCK_CMD_RESULT = Status.ok.code ∧ t.rd PCK_CMD_PENDING = 0 ∧
            (t.pocket n).cur = some { gen := (x.pocket n).nextGen, key := k } ∧
            Keeps s.dev t [PCK_CMD, PCK_EVENTS, PCK_EVENT_POCKET]) ∧
        (x.persist n = true →
          Does (.pocketGenerate ini) s fun t => t.sec.cmd = some (3, n) ∧ t.sec.pockets = x.sec.pockets ∧
            ∃ j, t.sec.journal = x.sec.journal ++ [j] ∧ j.kind = 1 ∧ j.pocket = n ∧ j.key = k ∧ j.done = true)) ∧
      (∀ g e, (u.pocket n).holds = true → (u.pocket u.pckKek).holds = true → (u.pocket n).cur = some g →
        (u.pocket u.pckKek).cur = some e → u.allows n 19 = true → u.allows u.pckKek 4 = true →
        let w := u.wrMem 9 u.pckAddr (octets (kwWrap (nums e.key) (keyBlob (u.keySize n) g.key)))
        Does (.pocketExport ini) s fun t => t.rd PCK_CMD_RESULT = w.2.code ∧ t.rd PCK_CMD_PENDING = 0 ∧ t.mem = w.1.mem ∧
          t.sec.pockets = w.1.sec.pockets))) ∧
  (∀ s : State,
    (∀ ini : Ini,
      let n := s.dev.pckTarget
      let u := s.dev.wr PCK_CMD_CALLER ini
      Open s ini PCK_CMD → s.dev.rd PCK_CMD_PENDING = 0 → s.dev.pckAdmin ini n = true → (u.pocket n).state ≠ 0 →
      (Does (.pocketErase ini) s fun t => (t.pocket n).erasing = true ∧ t.rd PCK_CMD_PENDING = 1 ∧ t.sec.cmd = some (5, n) ∧
        (s.dev.bound n (s.dev.pocket n).cur = 0 → (t.pocket n).cur = none) ∧
        (s.dev.bound n (s.dev.pocket n).cur ≠ 0 → (t.pocket n).cur = (s.dev.pocket n).cur) ∧
        Keeps s.dev t [PCK_CMD, PCK_EVENTS, PCK_EVENT_POCKET]) ∧
      (let x := u.pocketKill n
       x.ml.ptOp = none →
        (x.persist n = false →
          Does (.pocketEraseNow ini) s fun t => t = ((x.pckDone .ok).reply ini PCK_CMD .ok 0) ∧ (t.pocket n).cur = none ∧
            (t.pocket n).old = none ∧ (t.pocket n).fc = 0 ∧ t.rd PCK_EVENTS_POCKET_ERASED = 1 ∧ t.rd PCK_CMD_RESULT = Status.ok.code) ∧
        (x.persist n = true →
          Does (.pocketEraseNow ini) s fun t => t.sec.cmd = some (6, n) ∧ t.rd PCK_CMD_PENDING = 1 ∧ (t.pocket n).cur = none ∧
            ∃ j, t.sec.journal = x.sec.journal ++ [j] ∧ j.kind = 3 ∧ j.pocket = n ∧ j.done = true))) ∧
    (∀ n : Fin 64, (s.dev.pocket n).erasing = true → (s.dev.pocket n).cur = none → (s.dev.pocket n).old = none →
      s.dev.persist n = false →
      Does (.pocketEraseComplete n) s fun t => (t.pocket n).erasing = false ∧ (t.pocket n).state = 0 ∧ (t.pocket n).fc = 0 ∧
        (t.pocket n).gen = (s.dev.pocket n).gen ∧ t.rd PCK_EVENTS_POCKET_ERASED = 1 ∧ t.rd PCK_EVENT_POCKET_POCKET = n ∧
        (s.dev.sec.cmd = some (5, n.val) → t.rd PCK_CMD_RESULT = Status.ok.code ∧ t.rd PCK_CMD_PENDING = 0) ∧
        Keeps s.dev t [PCK_CMD, PCK_EVENTS, PCK_EVENT_POCKET]))


/-- Rules R310 and R318 to R321: a start-up test of 1,024 samples that passes both health tests puts the source in use, one that fails
counts, a failed health test takes the source out and a third failure in a row raises ENTROPY_LOST; a reseed that is due renews the
generator from three conditioned blocks; PCK_RANDOM answers the oldest 32 bits of the buffer, PCK_FAILS counts and clears. The order
of the samples and the conditioning key are the model's own (assumption log 58). -/
def Obligations.EntropyAndRandom : Prop :=
  ∀ s : State,
    (s.dev.up 2 = true →
      (∀ samples : BitVec 1024,
        let l := sampleList 1024 samples.toNat
        s.dev.rd PCK_ENT_STATUS_STATE ≠ 1 → s.dev.rd PCK_ENT_STATUS_STATE ≠ 3 →
        ((rctFails l false 0 || aptFails l) = false →
          Does (.entropyStartupTest samples) s fun t => t.rd PCK_ENT_STATUS_STATE = 1 ∧ t.rd PCK_ENT_STATUS_STARTUP_FAILS = 0 ∧
            Keeps s.dev t [PCK_ENT_STATUS]) ∧
        ((rctFails l false 0 || aptFails l) = true → s.dev.rd PCK_ENT_STATUS_STARTUP_FAILS < 2 →
          Does (.entropyStartupTest samples) s fun t => t.rd PCK_ENT_STATUS_STATE = 2 ∧ t.rd PCK_EVENTS_ENTROPY_FAIL = 1 ∧
            t.rd PCK_ENT_STATUS_STARTUP_FAILS = s.dev.rd PCK_ENT_STATUS_STARTUP_FAILS + 1 ∧
            Keeps s.dev t [PCK_ENT_STATUS, PCK_ENT_CNT, PCK_EVENTS])) ∧
      (∀ apt, s.dev.rd PCK_ENT_STATUS_STATE = 1 →
        Does (.entropyTestFail apt) s fun t => t.rd PCK_ENT_STATUS_STATE = 2 ∧ t.rd PCK_EVENTS_ENTROPY_FAIL = 1 ∧
          (apt = true → t.rd PCK_ENT_CNT_APT = min (s.dev.rd PCK_ENT_CNT_APT + 1) 0xFFFF) ∧
          (apt = false → t.rd PCK_ENT_CNT_RCT = min (s.dev.rd PCK_ENT_CNT_RCT + 1) 0xFFFF) ∧
          Keeps s.dev t [PCK_ENT_STATUS, PCK_ENT_CNT, PCK_EVENTS]) ∧
      (∀ apt, s.dev.rd PCK_ENT_STATUS_STATE ≠ 1 → s.dev.rd PCK_ENT_STATUS_STARTUP_FAILS = 2 →
        Does (.entropyTestFail apt) s fun t => t.rd PCK_ENT_STATUS_STATE = 3 ∧ t.rd PCK_EVENTS_ENTROPY_LOST = 1 ∧
          (t.unit 9).total = min ((s.dev.unit 9).total + 1) 0xFFFFFFFF) ∧
      (∀ samples : BitVec 1536, s.dev.rd PCK_ENT_STATUS_STATE = 1 → s.dev.sec.drbgKey ≠ [] → s.dev.sec.ctxKey ≠ [] →
        (s.dev.sec.drbgOk = false ∨ s.dev.drbgDue = true) →
        let u := drbgUpdate (nums s.dev.sec.drbgKey) (nums s.dev.sec.drbgV) (conditioned samples.toNat)
        Does (.drbgReseed samples) s fun t => t.sec.drbgKey = octets u.1 ∧ t.sec.drbgV = octets u.2 ∧ t.sec.drbgCount = 0 ∧
          t.sec.drbgAt = s.dev.now ∧ t.rd PCK_ENT_STATUS_DRBG_READY = 1 ∧ Keeps s.dev t [PCK_ENT_STATUS]) ∧
      (∀ x l, s.dev.sec.random.length < 64 → s.dev.drbgTake (64 - s.dev.sec.random.length) = (x, some l) →
        Does .randomRefill s fun t => t.sec.random = s.dev.sec.random ++ l ∧ t.sec.drbgKey = x.sec.drbgKey ∧ Keeps s.dev t [])) ∧
    (s.dev.rd PCK_ENT_STATUS_STATE = 3 → s.dev.waited .entropy (us 10000000) = true →
      Does .entropyRetry s fun t => t.rd PCK_ENT_STATUS_STATE = 2 ∧ Keeps s.dev t [PCK_ENT_STATUS]) ∧
    (∀ ini : Ini, Open s ini PCK_RANDOM → 4 ≤ s.dev.sec.random.length →
      Does (.pckRandomRead ini) s fun t => t.resp.status = .ok ∧ t.resp.data = s.dev.sec.random.take 4 ∧
        t.sec.random = s.dev.sec.random.drop 4 ∧ Keeps s.dev t []) ∧
    (∀ ini : Ini, Open s ini PCK_FAILS →
      let p := s.dev.pocket (s.dev.rd PCK_SEL_POCKET)
      Does (.pckFailsRead ini) s fun t => t.resp.data = leBytes 4 (65536 * p.rejects + p.auth) ∧
        (t.pocket (s.dev.rd PCK_SEL_POCKET)).rejects = 0 ∧ (t.pocket (s.dev.rd PCK_SEL_POCKET)).auth = 0 ∧ Keeps s.dev t [])


/-! ### Flash -/

/-- Rules R350, R351, R355, R356 and R360: a flash command during another is ignored; a program is refused below the program pointer, else its
source is read and it runs; an erase, a check and a retirement run once their conditions hold. A suspended erase gives the array
back and is named, RESUME runs it again; with no erase there the control answers NO_ERASE. -/
def Obligations.FlashCommands : Prop :=
  (∀ (s : State) (a : Fin 2) (ini : Ini),
    let b := s.dev.rd (FLC_ADDR_BLOCK a)
    Open s ini (FLC_CMD a) →
    (∀ raw, ∀ c ∈ [Instr.flashProgram a ini raw, .flashErase a ini, .blankCheck a ini, .marginPgm a ini, .marginErs a ini,
        .flashRetire a ini], s.dev.rd (FLC_CMD_PENDING a) = 1 →
      Does c s fun t => t.rd (FLC_EVENTS_CMD_IGNORED a) = 1 ∧ t.flash = s.dev.flash ∧ Keeps s.dev t [FLC_EVENTS a]) ∧
    (s.dev.rd (FLC_CMD_PENDING a) = 0 → s.dev.flashReady a = true → s.dev.slotLocked a b = false → journalLocked ini b = false →
      (∀ raw : Bool,
        let p := s.dev.rd (FLC_ADDR_PAGE a)
        let n := if raw then 640 else 512
        let u := (s.dev.onArr a fun x => { x with holder := ini.val }).rebuildPtr a b
        let r := if raw then (u, u.rdRaw 0x13 (8 * s.dev.rd (FLC_SRC_ADDR a)) n) else u.rdMem 0x13 (8 * s.dev.rd (FLC_SRC_ADDR a)) n
        s.dev.blockHeld a b = false → srcBad (8 * s.dev.rd (FLC_SRC_ADDR a)) n = false →
        (raw = true → s.dev.rd WV_TEST_STAT_ENABLED = 1) →
        (p < s.dev.pagePtr a b →
          Does (.flashProgram a ini raw) s fun t => t.rd (FLC_CMD_RESULT a) = Status.order.code ∧ t.rd (FLC_EVENTS_DONE a) = 1 ∧
            Keeps s.dev t [FLC_CMD a, FLC_EVENTS a]) ∧
        (s.dev.pagePtr a b ≤ p → r.2.1 = .ok → r.1.pageBlank a b p = true →
          let chk := if raw then r.2.2.drop 512 else chkOf (r.2.2.take 512)
          Does (.flashProgram a ini raw) s fun t => t.rd (FLC_CMD_PENDING a) = 1 ∧
            t.rd (FLC_STATE_STATE a) = (if (r.1.arr a).susp.isSome then 4 else 1) ∧ t.rd (FLC_STATE_BUSY_BLOCK a) = b ∧
            (t.arr a).job = some { op := 1, block := b, page := p, data := r.2.2.take 512, chk := chk, off := 0 } ∧
            Keeps r.1 t [FLC_CMD a, FLC_STATE a])) ∧
      ((s.dev.arr a).susp = none → s.dev.rd MNT_SUPPLY_STAT_WARN = 0 →
        Does (.flashErase a ini) s fun t => t.rd (FLC_CMD_PENDING a) = 1 ∧ t.rd (FLC_STATE_STATE a) = 2 ∧
          (t.arr a).job = some { op := 2, block := b, page := 0, data := [], chk := [], off := 0 } ∧
          Keeps s.dev t [FLC_CMD a, FLC_STATE a]) ∧
      ((s.dev.arr a).susp = none → s.dev.rd MNT_SUPPLY_STAT_WARN = 1 →
        Does (.flashErase a ini) s fun t => t.rd (FLC_CMD_PENDING a) = 0 ∧ t.rd (FLC_STATE_STATE a) = 3 ∧
          t.rd (FLC_STATE_SUSP_BY_WARN a) = 1 ∧ t.rd (FLC_STATE_SUSP_BLOCK a) = b ∧ t.rd (FLC_EVENTS_WARN_SUSPEND a) = 1 ∧
          (t.arr a).job = none ∧
          (t.arr a).susp = some { op := 2, block := b, page := 0, data := [], chk := [], off := 0 } ∧
          Keeps s.dev t [FLC_CMD a, FLC_EVENTS a, FLC_STATE a]) ∧
      (∀ c op, (c, op) ∈ [(Instr.blankCheck a ini, 5), (.marginPgm a ini, 6), (.marginErs a ini, 7)] → s.dev.blockSusp a b = false →
        Does c s fun t => t.rd (FLC_CMD_PENDING a) = 1 ∧ t.rd (FLC_STATE_STATE a) = 6 ∧
          (t.arr a).job = some { op := op, block := b, page := s.dev.rd (FLC_ADDR_PAGE a), data := [], chk := [], off := 0 } ∧
          Keeps s.dev t [FLC_CMD a, FLC_STATE a]) ∧
      ((s.dev.arr a).susp = none → (s.dev.arr a).spares ≠ [] →
        Does (.flashRetire a ini) s fun t => t.rd (FLC_CMD_PENDING a) = 1 ∧ t.rd (FLC_STATE_STATE a) = 5 ∧
          (t.arr a).copy = [(8, b, s.dev.pagePtr a b)] ∧ Keeps s.dev t [FLC_CMD a, FLC_STATE a]))) ∧
  (∀ (s : State) (a : Fin 2) (ini : Ini), Open s ini (FLC_SUSPEND a) →
    (∀ j, s.dev.rd (FLC_STATE_STATE a) = 2 → (s.dev.arr a).job = some j → (s.dev.arr a).recording = false →
      (Does (.flashSuspend a ini false) s fun t => t.rd (FLC_STATE_STATE a) = 3 ∧ t.rd (FLC_STATE_SUSP_BLOCK a) = j.block % 64 ∧
        t.rd (FLC_STATE_SUSP_BY_FW a) = 1 ∧ (t.arr a).job = none ∧ (t.arr a).susp = some j ∧
        t.rd (FLC_SUSPEND_RESULT a) = Status.ok.code ∧ t.rd (FLC_EVENTS_DONE a) = 1 ∧
        Keeps s.dev t [FLC_CMD a, FLC_EVENTS a, FLC_STATE a, FLC_SUSPEND a]) ∧
      (Does (.flashSuspend a ini true) s fun t => (t.arr a).asked = true ∧ (t.arr a).recording = true ∧ (t.arr a).job = some j ∧
        Keeps s.dev t [])) ∧
    (∀ j, s.dev.rd (FLC_STATE_STATE a) = 3 → (s.dev.arr a).susp = some j → s.dev.rd MNT_SUPPLY_STAT_WARN = 0 →
      Does (.flashResume a ini) s fun t => t.rd (FLC_STATE_STATE a) = 2 ∧ t.rd (FLC_STATE_BUSY_BLOCK a) = j.block % 64 ∧
        t.rd (FLC_STATE_SUSP_BY_FW a) = 0 ∧ t.rd (FLC_CMD_PENDING a) = 1 ∧ (t.arr a).job = some j ∧ (t.arr a).susp = none ∧
        t.rd (FLC_SUSPEND_RESULT a) = Status.ok.code ∧ Keeps s.dev t [FLC_CMD a, FLC_EVENTS a, FLC_STATE a, FLC_SUSPEND a]) ∧
    (∀ c ∈ [Instr.flashSuspend a ini false, .flashResume a ini], s.dev.rd (FLC_STATE_STATE a) = 0 →
      Does c s fun t => t.rd (FLC_SUSPEND_RESULT a) = Status.noErase.code ∧ t.rd (FLC_EVENTS_DONE a) = 1 ∧
        t.flash = s.dev.flash ∧ Keeps s.dev t [FLC_EVENTS a, FLC_SUSPEND a]))


/-- Rules R352, R354, R358 and R361: a program that verified stands in its page and moves the pointer on, an erase that verified leaves
the block blank and counts, a check answers what it found, one that failed reports it, and a finished copy stands on a spare that the remap names. -/
def Obligations.FlashCompletes : Prop :=
  ∀ (s : State) (a : Fin 2), FlashQuiet s.dev →
    (∀ j, (s.dev.arr a).job = some j → (s.dev.arr a).susp = none → isJournalJob j = false →
      (∀ pulses : Fin 17, j.op = 1 → pulses.val ≤ wearLimit 15 (s.dev.rd FLC_CFG_PGM_WEAR) →
        Does (.flashProgramDone a pulses true) s fun t => t.rd (FLC_CMD_RESULT a) = Status.ok.code ∧
          t.rd (FLC_CMD_PULSES a) = pulses ∧ t.rd (FLC_CMD_PENDING a) = 0 ∧ t.rd (FLC_EVENTS_DONE a) = 1 ∧
          t.rd (FLC_STATE_STATE a) = 0 ∧ ((t.arr a).block j.block).ptr = max ((s.dev.arr a).block j.block).ptr (j.page + 1) ∧
          MemKeeps (s.dev.putUnits (s.dev.pageAt a j.block j.page + j.off) j.data j.chk) t ∧
          RegsKeep s.dev t [FLC_CMD a, FLC_EVENTS a, FLC_STATE a]) ∧
      (∀ pulses : Fin 17, j.op = 1 → s.dev.rd FLC_CFG_AUTO_RETIRE = 0 →
        Does (.flashProgramDone a pulses false) s fun t => t.rd (FLC_CMD_RESULT a) = Status.programFail.code ∧
          t.rd (FLC_EVENTS_FAIL a) = 1 ∧ t.rd (FLC_STATE_STATE a) = 0 ∧
          ((t.arr a).block j.block).ptr = max ((s.dev.arr a).block j.block).ptr (j.page + 1) ∧
          RegsKeep s.dev t [FLC_CMD a, FLC_EVENTS a, FLC_STATE a]) ∧
      (∀ pulses : Fin 33, j.op = 2 → s.dev.rd FLC_CFG_AUTO_RETIRE = 0 → (s.dev.arr a).asked = false → (s.dev.arr a).failing = none →
        Does (.flashEraseDone a pulses false) s fun t => t.rd (FLC_CMD_RESULT a) = Status.eraseFail.code ∧
          t.rd (FLC_EVENTS_FAIL a) = 1 ∧ t.rd (FLC_STATE_STATE a) = 0 ∧ ((t.arr a).block j.block).ptrOk = false ∧
          RegsKeep s.dev t [FLC_CMD a, FLC_EVENTS a, FLC_STATE a]) ∧
      (∀ pulses : Fin 33, j.op = 2 → pulses.val ≤ wearLimit 31 (s.dev.rd FLC_CFG_ERS_WEAR) → (s.dev.arr a).asked = false →
        (s.dev.arr a).failing = none →
        Does (.flashEraseDone a pulses true) s fun t => t.rd (FLC_CMD_RESULT a) = Status.ok.code ∧
          t.rd (FLC_CMD_PULSES a) = pulses ∧ t.rd (FLC_STATE_STATE a) = 0 ∧ (t.arr a).job = none ∧
          ((t.arr a).block j.block).erases = min (((s.dev.arr a).block j.block).erases + 1) 0xFFFF ∧
          ((t.arr a).block j.block).ptr = 0 ∧ MemKeeps (s.dev.blank (s.dev.pageAt a j.block 0) 0x10000) t ∧
          RegsKeep s.dev t [FLC_CMD a, FLC_EVENTS a, FLC_STATE a]) ∧
      (s.dev.rd (FLC_STATE_STATE a) = 6 →
        (j.op = 5 → Does (.flashCheckDone a []) s fun t =>
          t.rd (FLC_CMD_RESULT a) = (if s.dev.pageBlank a j.block j.page then Status.ok else .notBlank).code ∧
            t.rd (FLC_STATE_STATE a) = 0 ∧ Keeps s.dev t [FLC_CMD a, FLC_EVENTS a, FLC_STATE a]) ∧
        (j.op ≠ 5 → Does (.flashCheckDone a []) s fun t => t.rd (FLC_CMD_RESULT a) = Status.ok.code ∧
          t.rd (FLC_MARGIN_UNITS_DIFF a) = 0 ∧ Keeps s.dev t [FLC_CMD a, FLC_EVENTS a, FLC_STATE a, FLC_MARGIN a]) ∧
        (∀ (i : Fin 64) u, j.op ≠ 5 → u ≠ s.dev.unitAt (s.dev.pageAt a j.block j.page + 8 * i) →
          Does (.flashCheckDone a [(i, u)]) s fun t => t.rd (FLC_CMD_RESULT a) = Status.marginFail.code ∧
            t.rd (FLC_MARGIN_UNITS_DIFF a) = 1 ∧ Keeps s.dev t [FLC_CMD a, FLC_EVENTS a, FLC_STATE a, FLC_MARGIN a]))) ∧
    (∀ b n q l, (s.dev.arr a).copy = [(8, b, n)] → (s.dev.arr a).spares = q :: l → l.length < 4 → s.dev.rd (FLC_STATE_STATE a) = 5 →
      Does (.retireCopyDone a) s fun t => ((t.arr a).block b).phys = q ∧ ((t.arr a).block b).ptr = n ∧ (t.arr a).spares = l ∧
        t.rd (FLC_SPARES_LEFT a) = l.length ∧ t.rd (FLC_EVENTS_RETIRED a) = 1 ∧ t.rd (FLC_CMD_RESULT a) = Status.ok.code ∧
        t.rd (FLC_STATE_STATE a) = 0 ∧
        MemKeeps ((s.dev.blank (flashBase a q) 0x10000).copyPages (flashBase a ((s.dev.arr a).block b).phys) (flashBase a q) n) t)


/-! ### The weave: patrol, lines, test mode -/

/-- Rules R333 to R335: a patrol tick checks the lines its batch names; a clean line is passed over, a darned unit of it written back
corrected and counted, and the position moves on. -/
def Obligations.PatrolWalks : Prop :=
  ∀ (s : State) (lag due low : Nat),
    let x := ({ s.dev with weave := { s.dev.weave with due := some due, tickMin := low } }.wr WV_PATROL_STAT_LAG_US
      (min 0xFFFF (lag / 8))).when (lag != 0) fun d => d.set WV_EVENTS_CATCHUP
    let r := s.dev.rd WV_PATROL_POS_REGION
    let l := s.dev.rd WV_PATROL_POS_LINE
    s.dev.rd WV_PATROL_CFG_ENABLE = 1 → s.dev.up 7 = true → s.dev.rd WV_PATROL_CFG_BATCH ≤ 1 →
    tickStart s.dev.now (tickTimes (s.dev.rd WV_PATROL_CFG_TICK_US) 100 (s.dev.rd WV_PATROL_CFG_STEP_SHIFT)).1
      (tickTimes (s.dev.rd WV_PATROL_CFG_TICK_US) 100 (s.dev.rd WV_PATROL_CFG_STEP_SHIFT)).2 s.dev.weave.due s.dev.weave.tickMin =
        some (lag, due, low) →
    s.dev.weave.retain = [] → s.dev.walked r = true →
    (Does .patrolTick s fun t => t = (x.patrolLine r l).patrolStep r l) ∧
    ((∀ i < 4, (s.dev.unitAt (s.dev.place (regionOf r) (lineAddr r l + 8 * i))).outcome = 0) → l + 1 < regionLines r →
      Does .patrolTick s fun t => t.rd WV_PATROL_POS_REGION = r ∧ t.rd WV_PATROL_POS_LINE = l + 1 ∧ t.weave.due = some due ∧
        Keeps s.dev t [WV_PATROL_POS, WV_PATROL_STAT, WV_EVENTS]) ∧
    (let u := s.dev.unitAt (s.dev.place (regionOf r) (lineAddr r l))
     let y := (x.patrolUnit r (lineAddr r l)).1
     u.outcome = 2 → (x.patrolUnit r (lineAddr r l)).2.worn = false →
      (∀ i < 3, (y.unitAt (y.place (regionOf r) (lineAddr r l + 8 * (i + 1)))).outcome = 0) →
      Does .patrolTick s fun t => MemKeeps (s.dev.setUnitAt (s.dev.place (regionOf r) (lineAddr r l)) u.passed) t ∧
        t.rd WV_CNT_PATROL_DARN_COUNT = min (s.dev.rd WV_CNT_PATROL_DARN_COUNT + 1) 0xFFFFFFFF ∧ t.rd WV_EVENTS_PATROL_DARN = 1)


/-- Rules R338, R339, R343, R346 and R510: a line retired by command lives in the lowest free spare of its segment, once; the test key
opens and closes test mode, in which raw units are written and read without a check, and outside which, or in a segment that is
off, a test command is refused; a memory that has scrubbed itself reads as zero and is ready. -/
def Obligations.WeaveCommands : Prop :=
  ∀ (s : State) (ini : Ini),
    (∀ a : BitVec 32,
      let n := (a.toNat - 0x20000000) / 0x40000
      let i := 128 - s.dev.rd (WV_SEG_SPARES_LEFT n)
      Open s ini WV_RETIRE_CMD → 0x20000000 ≤ a.toNat → a.toNat < 0x20200000 → s.dev.alive (.seg n) (a.toNat / 8 * 8) = true →
      s.dev.rd (WV_SEG_SPARES_LEFT n) ≤ 128 →
      (mapGet (fun _ => 0) s.dev.weave.lines (a.toNat / 32 * 32) = 0 → s.dev.rd (WV_SEG_SPARES_LEFT n) ≠ 0 →
        Does (.wvRetireCmd ini a) s fun t => t.rd WV_RETIRE_STAT_RESULT = Status.ok.code ∧
          mapGet (fun _ => 0) t.weave.lines (a.toNat / 32 * 32) = i + 1 ∧
          t.rd (WV_SEG_SPARES_LEFT n) = s.dev.rd (WV_SEG_SPARES_LEFT n) - 1 ∧ t.rd WV_EVENTS_LINE_RETIRED = 1 ∧
          t.place (.seg n) (a.toNat / 32 * 32) = spareBase n + i * 32) ∧
      (mapGet (fun _ => 0) s.dev.weave.lines (a.toNat / 32 * 32) ≠ 0 →
        Does (.wvRetireCmd ini a) s fun t => t.rd WV_RETIRE_STAT_RESULT = Status.ok.code ∧ t.weave = s.dev.weave ∧
          Keeps s.dev t [WV_RETIRE_STAT]) ∧
      (mapGet (fun _ => 0) s.dev.weave.lines (a.toNat / 32 * 32) = 0 → s.dev.rd (WV_SEG_SPARES_LEFT n) = 0 →
        Does (.wvRetireCmd ini a) s fun t => t.rd WV_RETIRE_STAT_RESULT = Status.noSpare.code ∧ t.weave = s.dev.weave ∧
          Keeps s.dev t [WV_RETIRE_STAT])) ∧
    (∀ key : Word, Open s ini WV_TEST_KEY →
      Does (.wvTestKey ini key) s fun t => t.rd WV_TEST_STAT_ENABLED = (if key.toNat = 0x57454156 then 1 else 0) ∧
        Keeps s.dev t [WV_TEST_STAT]) ∧
    (let a := s.dev.testAddr
     let n := (a - 0x20000000) / 0x40000
     Open s ini WV_TEST_CMD → s.dev.rd WV_TEST_STAT_ENABLED = 1 → 0x20000000 ≤ a → a < 0x20200000 → s.dev.alive (.seg n) a = true →
      (Does (.writeRaw ini) s fun t => t.rd WV_TEST_CMD_RESULT = Status.ok.code ∧ RegsKeep s.dev t [WV_TEST_CMD] ∧
        (t.unitAt (t.place (.seg n) a)).data.toNat = s.dev.rd WV_TEST_DATA_LO_DATA + 2 ^ 32 * s.dev.rd WV_TEST_DATA_HI_DATA ∧
        (t.unitAt (t.place (.seg n) a)).weft.toNat = s.dev.rd WV_TEST_CHK_WEFT ∧
        (t.unitAt (t.place (.seg n) a)).warp.toNat = s.dev.rd WV_TEST_CHK_WARP) ∧
      (let u := s.dev.unitAt (s.dev.place (.seg n) a)
       Does (.readRaw ini) s fun t => t.rd WV_TEST_CMD_RESULT = Status.ok.code ∧
          t.rd WV_TEST_DATA_LO_DATA + 2 ^ 32 * t.rd WV_TEST_DATA_HI_DATA = u.data.toNat ∧ t.rd WV_TEST_CHK_WEFT = u.weft.toNat ∧
          t.rd WV_TEST_CHK_WARP = u.warp.toNat ∧ t.rd WV_TEST_SYND_OUTCOME = u.outcome ∧
          Keeps s.dev t [WV_TEST_CMD, WV_TEST_DATA_LO, WV_TEST_DATA_HI, WV_TEST_CHK, WV_TEST_SYND])) ∧
    (∀ c ∈ [Instr.writeRaw ini, .readRaw ini],
      let a := s.dev.testAddr
      let n := (a - 0x20000000) / 0x40000
      Open s ini WV_TEST_CMD → 0x20000000 ≤ a → a < 0x20200000 →
      (s.dev.rd WV_TEST_STAT_ENABLED = 0 → s.dev.alive (.seg n) a = true →
        Does c s fun t => t.rd WV_TEST_CMD_RESULT = Status.badCommand.code ∧ Keeps s.dev t [WV_TEST_CMD]) ∧
      (s.dev.alive (.seg n) a = false →
        Does c s fun t => t.rd WV_TEST_CMD_RESULT = Status.notReady.code ∧ Keeps s.dev t [WV_TEST_CMD])) ∧
    (∀ n : Fin 8, s.dev.up 6 = true → (s.dev.img.segUse[n.val]?).getD 5 ≠ 5 → s.dev.rd (WV_SEG_READY n) = 0 →
      Does (.segmentScrubDone (.seg n)) s fun t => t.rd (WV_SEG_READY n) = 1 ∧ RegsKeep s.dev t [WV_SEG n] ∧
        MemKeeps ((s.dev.scrub (0x20000000 + 0x40000 * n) 0x40000).scrub (spareBase n) 0x1000) t ∧
        ∀ k, 0x20000000 + 0x40000 * n ≤ k → k < 0x20000000 + 0x40000 * (n + 1) → t.byte k = 0) ∧
    (∀ k : Fin 6, s.dev.up 5 = true → mapGet (fun _ => false) s.dev.weave.scrubbed (2 + k) = false →
      Does (.segmentScrubDone (.le k)) s fun t => mapGet (fun _ => false) t.weave.scrubbed (2 + k) = true ∧
        RegsKeep s.dev t [] ∧ MemKeeps (s.dev.scrub (leBase k) 0x10000) t) ∧
    (∀ p : Fin 2, s.dev.up (3 + p) = true → mapGet (fun _ => false) s.dev.weave.scrubbed p = false →
      Does (.segmentScrubDone (.tcm p)) s fun t =>
        t = ((s.dev.scrub (0x01000000 + 0x40000 * p) 0x40000).setScrubbed p true).pairGo p)


/-! ### Health -/

/-- Rules R382, R484 and R486: an expired watchdog of an image on trial resets the device, of another is charged to the pair in the role;
a unit is retired by command, one without a lasting action is not, and an acknowledgement clears LASTING_UNACK; the outage
meter counts a millisecond below the minimum as outage, or as excluded where it is planned, and a planned
interval ends after 60 s. -/
def Obligations.HealthCommands : Prop :=
  ∀ (s : State),
    (∀ x : Fin 2, s.dev.wdtNear x 0 = true →
      (s.dev.rd STR_STATUS_TRIAL = 1 → Does (.wdtExpire x) s fun t => t = s.dev.deviceReset s.fuses 1) ∧
      (s.dev.rd STR_STATUS_TRIAL = 0 →
        Does (.wdtExpire x) s fun t => t.rd SYS_PAIR_EVENTS_WDT_FAULT = 1 ∧
          (t.unit (s.dev.carrier x)).total = min ((s.dev.unit (s.dev.carrier x)).total + 1) 0xFFFFFFFF)) ∧
    (∀ (ini : Ini) (c : BitVec 8),
      let u := s.dev.wr FLT_CMD_UNIT c.toNat
      Open s ini FLT_CMD → s.dev.rd FLT_CMD_PENDING = 0 →
      (isUnit c.toNat = false →
        Does (.fltRetire ini c) s fun t => t.rd FLT_CMD_RESULT = Status.unitUnknown.code ∧ t.rd FLT_CMD_UNIT = c.toNat ∧
          t.flt = s.dev.flt ∧ Keeps s.dev t [FLT_CMD]) ∧
      (isUnit c.toNat = true → u.retired c.toNat = false → u.notRetirable c.toNat = true →
        Does (.fltRetire ini c) s fun t => t.rd FLT_CMD_RESULT = Status.notRetirable.code ∧ t.flt = s.dev.flt ∧
          Keeps s.dev t [FLT_CMD]) ∧
      (isUnit c.toNat = true → u.retired c.toNat = true →
        Does (.fltRetire ini c) s fun t => t.rd FLT_CMD_RESULT = Status.ok.code ∧ t.flt = s.dev.flt ∧ Keeps s.dev t [FLT_CMD]) ∧
      (isUnit c.toNat = true → u.retired c.toNat = false → u.notRetirable c.toNat = false → s.dev.mnt.pending = [] →
        Does (.fltRetire ini c) s fun t => t = ((u.retireUnit c.toNat).st FLT_CMD_RESULT .ok).reply ini FLT_CMD .ok 0 ∧
          t.rd FLT_CMD_RESULT = Status.ok.code)) ∧
    (∀ ini : Ini, Open s ini FLT_CMD → s.dev.rd FLT_CMD_PENDING = 0 →
      Does (.fltAckLasting ini) s fun t => t.rd FLT_STATUS_LASTING_UNACK = 0 ∧ t.rd FLT_CMD_RESULT = Status.ok.code ∧
        t.flt = s.dev.flt ∧ Keeps s.dev t [FLT_CMD, FLT_STATUS]) ∧
    (s.dev.rd FLT_STATUS_BELOW_MIN = 1 → s.dev.rd MNT_STATE_STATE ≤ 1 → s.dev.waited .outage (us 1000) = true →
      (s.dev.flt.planned = false → 2200 ≤ s.dev.rd MNT_SUPPLY_VIN_MV →
        Does .outageMeterTick s fun t => t.rd FLT_OUTAGE_MS_MS = min (s.dev.rd FLT_OUTAGE_MS_MS + 1) 0xFFFFFFFF ∧
          Keeps s.dev t [FLT_OUTAGE_MS]) ∧
      (s.dev.flt.planned = true →
        Does .outageMeterTick s fun t => t.rd FLT_EXCLUDED_MS_MS = min (s.dev.rd FLT_EXCLUDED_MS_MS + 1) 0xFFFFFFFF ∧
          Keeps s.dev t [FLT_EXCLUDED_MS])) ∧
    (s.dev.waited .planned (us 60000000) = true →
      Does .plannedIntervalEnd s fun t => t.flt.planned = false ∧ t.rd FLT_STATUS_PLANNED = 0 ∧ Keeps s.dev t [FLT_STATUS])


/-! ### The pairs -/

/-- Rules R367, R370, R372 and R373: a difference halts a pair and is charged, and short of the threshold the pair restarts in place and
is released at its entry with that cause; the standby tests itself and, where it passes, a handover swaps the roles. -/
def Obligations.PairRedundancy : Prop :=
  ∀ (s : State),
    (∀ x : Fin 2,
      let u := (s.dev.setPair x { s.dev.pair x with run := .halted }).set SYS_PAIR_EVENTS_MISMATCH
      (s.dev.pair x).run = .running ∨ (s.dev.pair x).run = .selftest → u.uncounted x .mismatch 0 = false → (u.counted (u.unit x)).length < (u.unit x).threshold →
      Does (.lockstepMismatch x) s fun t => (t.pair x).run = .restarting ∧ (t.pair x).cause = 2 ∧ (t.unit x).state = 1 ∧
        (t.unit x).total = min ((s.dev.unit x).total + 1) 0xFFFFFFFF ∧ t.rd SYS_PAIR_EVENTS_MISMATCH = 1) ∧
    (∀ x : Fin 2, (s.dev.pair x).run = .restarting →
      Does (.pairRestartDone x) s fun t => (t.pair x).run = .running ∧ (t.pair x).cause = (s.dev.pair x).cause ∧
        (t.pair x).pc = s.dev.entryOf (s.dev.roleOf x) ∧
        (t.unit x).state = (if (s.dev.pair x).standby then 2 else if s.dev.isLasting x then 6 else 0)) ∧
    (let y := s.dev.carrier 1
     s.dev.standbyUp = true → (s.dev.pair y).run = .running → s.dev.rd SYS_PAIR_ROT_PERIOD_S ≠ 0 →
      s.dev.waited .pairTest (us (1000000 * s.dev.rd SYS_PAIR_ROT_PERIOD_S)) = true →
      Does .pairSelftestStart s fun t => (t.pair y).run = .selftest ∧ (t.unit y).state = 3 ∧ Keeps s.dev t []) ∧
    (let y := s.dev.carrier 1
     (s.dev.pair y).run = .selftest → s.dev.waited .pairTest (us 40000) = true →
      (Does (.pairSelftestDone true) s fun t => (t.pair y).run = .running ∧ (t.unit y).state = 2 ∧
        t.rd SYS_PAIR_EVENTS_ROTATE_DUE = 1 ∧ Keeps s.dev t [SYS_PAIR_EVENTS]) ∧
      (Does (.pairSelftestDone false) s fun t => t.rd SYS_PAIR_EVENTS_SELFTEST_FAIL = 1 ∧
        (t.unit y).total = min ((s.dev.unit y).total + 1) 0xFFFFFFFF)) ∧
    (let x := s.dev.carrier 0
     let y := s.dev.carrier 1
     Open s 0 SYS_PAIR_CTL → s.dev.rd SYS_PAIR_EVENTS_ROTATE_DUE = 1 → s.dev.standbyUp = true →
      Does (.pairHandover 0) s fun t => t.rd SYS_PAIR_STATUS_PRIMARY = y ∧ (t.pair y).run = .running ∧ (t.pair y).cause = 6 ∧
        (t.pair y).standby = false ∧ (t.pair y).pc = s.dev.img.pEntry ∧ (t.pair x).run = .running ∧ (t.pair x).standby = true ∧
        t.rd SYS_PAIR_EVENTS_ROTATE_DUE = 0 ∧ MemKeeps s.dev t) ∧
    (∀ ini : Ini, Open s ini SYS_PAIR_CTL → (ini.val ≠ 0 ∨ s.dev.rd SYS_PAIR_EVENTS_ROTATE_DUE = 0 ∨ s.dev.standbyUp = false) →
      Does (.pairHandover ini) s fun t => t.pairs = s.dev.pairs ∧ Keeps s.dev t [])


/-- Rules R378 to R381 and R383: a lock names lines inside flash or is a bad range; a claim answers the pending enabled source of highest
priority above the threshold, the lowest of equals, and holds it until it is completed; the mailbox holds a word until the
other pair reads it; a kick with the key by the role's pair restarts its count; an expired watchdog of an engine is charged. -/
def Obligations.PairRegisters : Prop :=
  ∀ (s : State),
    (∀ (ini : Ini) (x : Fin 2) (v : Word),
      let n := min 512 (bits v.toNat 5 10)
      let a := 32 * s.dev.rd (SYS_ICLOCK_BASE_ADDR x)
      Open s ini (SYS_ICLOCK_SIZE x) →
      (n ≠ 0 → 0x10000000 ≤ a → a + 32 * n ≤ 0x10800000 →
        Does (.icacheLock ini x v) s fun t => (t.pair (s.dev.carrier x)).locked = [(a, n)] ∧ t.rd (SYS_ICLOCK_SIZE_LINES x) = n ∧
          t.rd (SYS_ICLOCK_SIZE_FILLING x) = 1 ∧ t.rd (SYS_ICLOCK_SIZE_BAD_RANGE x) = 0 ∧ Keeps s.dev t [SYS_ICLOCK_SIZE x]) ∧
      (n ≠ 0 → (a < 0x10000000 ∨ 0x10800000 < a + 32 * n) →
        Does (.icacheLock ini x v) s fun t => (t.pair (s.dev.carrier x)).locked = [] ∧ t.rd (SYS_ICLOCK_SIZE_FILLING x) = 0 ∧
          t.rd (SYS_ICLOCK_SIZE_BAD_RANGE x) = 1 ∧ Keeps s.dev t [SYS_ICLOCK_SIZE x]) ∧
      (n = 0 →
        Does (.icacheLock ini x v) s fun t => (t.pair (s.dev.carrier x)).locked = [] ∧ t.rd (SYS_ICLOCK_SIZE_FILLING x) = 0 ∧
          t.rd (SYS_ICLOCK_SIZE_BAD_RANGE x) = 0 ∧ Keeps s.dev t [SYS_ICLOCK_SIZE x])) ∧
    (∀ x : Fin 2,
      (s.dev.rd (SYS_ICLOCK_SIZE_FILLING x) = 0 ∨
        s.dev.touch x ((s.dev.pair (s.dev.carrier x)).locked.map fun l => (l.1, 32 * l.2)) = s.dev) →
      Does (.icacheLockDone x) s fun t => t.rd (SYS_ICLOCK_SIZE_FILLING x) = 0 ∧ Keeps s.dev t [SYS_ICLOCK_SIZE x]) ∧
    (∀ ini : Ini,
      let x := s.dev.plicOf ini
      let id := s.dev.irqBest x
      Open s ini plicClaimAddr →
      Does (.plicClaim ini) s fun t => t.resp.data = leBytes 4 id ∧ Keeps s.dev t [] ∧
        (id ≠ 0 → (t.pair x).claimed = id :: (s.dev.pair x).claimed ∧ s.dev.irqPending x id = true ∧
          (s.dev.pair x).enabled id = true ∧ (s.dev.pair x).threshold < (s.dev.pair x).priority id) ∧
        ∀ j, 1 ≤ j → j ≤ 128 → s.dev.irqPending x j = true → (s.dev.pair x).enabled j = true →
          (s.dev.pair x).threshold < (s.dev.pair x).priority j →
          (s.dev.pair x).priority j < (s.dev.pair x).priority id ∨
            ((s.dev.pair x).priority j = (s.dev.pair x).priority id ∧ id ≤ j)) ∧
    (∀ (ini : Ini) (id : Word), Open s ini plicClaimAddr →
      Does (.plicComplete ini id) s fun t => id.toNat ∉ (t.pair (s.dev.plicOf ini)).claimed ∧
        (∀ j ∈ (s.dev.pair (s.dev.plicOf ini)).claimed, j ≠ id.toNat → j ∈ (t.pair (s.dev.plicOf ini)).claimed) ∧ Keeps s.dev t []) ∧
    (∀ (ini : Ini) (v : Word), Open s ini SYS_MBOX →
      Does (.mailboxWrite ini v) s fun t => t.rd SYS_MBOX_VALUE = v.toNat ∧ t.rd SYS_PAIR_EVENTS_MBOX = 1 ∧
        t.mboxFrom = min ini.val 2 ∧ Keeps s.dev t [SYS_MBOX, SYS_PAIR_EVENTS]) ∧
    (∀ ini : Ini, Open s ini SYS_MBOX →
      Does (.mailboxRead ini) s fun t => t.resp.data = leBytes 4 (s.dev.rd SYS_MBOX_VALUE) ∧ Keeps s.dev t [SYS_PAIR_EVENTS] ∧
        (ini.val < 2 → s.dev.mboxFrom < 2 → ini.val ≠ s.dev.mboxFrom → t.rd SYS_PAIR_EVENTS_MBOX = 0) ∧
        ((2 ≤ ini.val ∨ 2 ≤ s.dev.mboxFrom ∨ ini.val = s.dev.mboxFrom) → t.reg SYS_PAIR_EVENTS = s.dev.reg SYS_PAIR_EVENTS)) ∧
    (∀ (ini : Ini) (x : Fin 2) (key : Word), Open s ini (SYS_WDT_KICK x) →
      (ini.val = x.val → key.toNat = 0x4B49434B →
        Does (.wdtKick ini x key) s fun t => (t.wdt x).due = tsAdd s.dev.now (s.dev.wdtTimeout x * 8000 : Nat) ∧
          (t.wdt x).warned = false ∧ (t.pair (s.dev.carrier x)).kicked = true) ∧
      ((ini.val ≠ x.val ∨ key.toNat ≠ 0x4B49434B) →
        Does (.wdtKick ini x key) s fun t => t.wdts = s.dev.wdts ∧ t.pairs = s.dev.pairs ∧ Keeps s.dev t [])) ∧
    (∀ x : Fin 2, s.dev.wdtNear x (s.dev.wdtLead x) = true →
      Does (.wdtWarn x) s fun t => (t.wdt x).warned = true ∧ (t.wdt x).due = (s.dev.wdt x).due ∧ Keeps s.dev t []) ∧
    (∀ k : Fin 6, s.dev.leStuck k = true →
      Does (.engineWdtExpire (.le k)) s fun t => (t.unit (2 + k)).total = min ((s.dev.unit (2 + k)).total + 1) 0xFFFFFFFF) ∧
    (Does (.engineWdtExpire .mantle) s fun t => (t.unit 8).total = min ((s.dev.unit 8).total + 1) 0xFFFFFFFF) ∧
    (s.dev.up 2 = true →
      Does (.engineWdtExpire .sarnis) s fun t => (t.unit 9).total = min ((s.dev.unit 9).total + 1) 0xFFFFFFFF ∧
        (t.unit 9).state = 1 ∧ t.rd PCK_CMD_PENDING = 0) ∧
    ((s.dev.unit 9).state = 1 →
      Does .sarnisRestartDone s fun t => (t.unit 9).state = (if s.dev.isLasting 9 then 6 else 0) ∧ Keeps s.dev t [])


/-! ### Debug -/

/-- Rules R384 to R386: while debug is locked only dmstatus is answered; unlocked, the selected hart halts, resumes and is reset (assumption
log 21 for what the resets do), data words are
kept, and a system bus read brings the word at its address. -/
def Obligations.DebugAccess : Prop :=
  ∀ (s : State) (a : BitVec 7) (v : Word),
    (s.dev.boot.debug = false →
      (Does (.debugDmiAccess false 0x11 v) s fun t => t.resp.data = leBytes 4 2 ∧ t.dbg = s.dev.dbg ∧ Keeps s.dev t []) ∧
      (Does (.debugDmiAccess true a v) s fun t => t = s.dev) ∧
      (a ≠ 0x11 → Does (.debugDmiAccess false a v) s fun t => t = s.dev)) ∧
    (let h := bits v.toNat 16 10 + 1024 * bits v.toNat 6 10
     s.dev.boot.debug = true → s.dev.dbg.active = true → v.getLsbD 0 = true → h < 9 → v.getLsbD 28 = false →
      (v.getLsbD 1 = false → v.getLsbD 29 = false → v.getLsbD 31 = true → s.dev.hartUp h = true →
        Does (.debugDmiAccess true 0x10 v) s fun t => t.hartHalted h = true ∧ t.dbg.hartsel = h ∧ Keeps s.dev t svcRegs) ∧
      (v.getLsbD 1 = false → v.getLsbD 29 = true → v.getLsbD 30 = false → v.getLsbD 31 = false → s.dev.dbg.hartReset = false → h < 2 →
        (s.dev.pair h).run ≠ .off →
        Does (.debugDmiAccess true 0x10 v) s fun t => (t.pair h).run = .restarting ∧ (t.pair h).cause = 4 ∧ MemKeeps s.dev t) ∧
      (v.getLsbD 1 = true → s.dev.dbg.resetReq = false →
        Does (.debugDmiAccess true 0x10 v) s fun t =>
          t = ((s.dev.dmControl v.toNat).deviceReset s.fuses 2).answer 0x14 0x10 .ok [] false) ∧
      (v.getLsbD 1 = false → v.getLsbD 29 = false → v.getLsbD 31 = false → v.getLsbD 30 = true →
        Does (.debugDmiAccess true 0x10 v) s fun t => t.hartHalted h = false ∧ t.dbg.hartsel = h ∧
          mapGet (fun _ => false) t.dbg.resumeAck h = s.dev.hartHalted h ∧ Keeps s.dev t svcRegs)) ∧
    (s.dev.boot.debug = true → s.dev.dbg.active = true → (a = 0x04 ∨ a = 0x05) →
      (Does (.debugDmiAccess true a v) s fun t => t.dm a.toNat = v.toNat ∧ Keeps s.dev t []) ∧
      (Does (.debugDmiAccess false a v) s fun t => t.resp.data = leBytes 4 (s.dev.dm a.toNat) ∧ t.dbg = s.dev.dbg)) ∧
    (let u := s.dev.setDm 0x39 v.toNat
     let r := u.oneBurst s.fuses 0x14 v.toNat (.read 4)
     s.dev.boot.debug = true → s.dev.dbg.active = true → bitOf (s.dev.dm 0x38) 20 = true → bitOf (s.dev.dm 0x38) 16 = false →
      bits (s.dev.dm 0x38) 12 3 = 0 → bits (s.dev.dm 0x38) 17 3 = 2 → v.toNat % 4 = 0 → r.2.2.1 = .ok →
      Does (.debugDmiAccess true 0x39 v) s fun t => t.dm 0x3C = ofLe r.2.2.2.1 % 2 ^ 32)


/-! ### Timers -/

/-- Rules R387 to R392. Whatever trigger lines are wired, a wrap shows WRAP and a compare match and a captured edge show CC, and only
timers change. Where no line is wired: a wrap restarts the count and brings preloaded values into use, a compare match acts on its
output, and a captured edge brings the count into VAL. A low write commits with its staged high bits, at once or at the next wrap; the
counter is written only while it is stopped; a low read latches the high bits, and a capture read ends with its high read or its
timeout. -/
def Obligations.Timers : Prop :=
  (∀ (s : State) (k : Fin 8),
    let its := timerCtls ++ (List.range 8).flatMap fun j => [GT_EVENTS j, GT_STATUS j, GT_PSC j]
    (s.dev.gtCounts k = true → Does (.gtWrap k) s fun t => t.rd (GT_EVENTS_WRAP k) = 1 ∧ Keeps s.dev t its) ∧
    (∀ c : Fin 4, s.dev.gtCounts k = true → s.dev.rd (GT_CFG_MODE k c) = 1 → (s.dev.timer k).cnt < (s.dev.gtc k c).val →
      (s.dev.gtc k c).val ≤ (s.dev.timer k).reload →
      Does (.gtCompareMatch k c) s fun t => t.bit (GT_EVENTS_CC k) c = true ∧ Keeps s.dev t its) ∧
    (∀ (c : Fin 4) rising (ticks : BitVec 48), s.dev.up 1 = true → s.dev.rd (GT_CFG_MODE k c) = 2 →
      (s.dev.rd (GT_CFG_EDGE k c) = 2 ∨ rising ≠ (s.dev.rd (GT_CFG_EDGE k c) == 1)) →
      s.dev.rd (GT_CFG_EPSC k c) ≤ (s.dev.gtc k c).edges →
      Does (.gtCapture k c rising ticks) s fun t => t.bit (GT_EVENTS_CC k) c = true ∧ Keeps s.dev t its)) ∧
  (∀ (s : State) (k : Fin 8), NoLines s.dev →
    (s.dev.gtCounts k = true →
      Does (.gtWrap k) s fun t => (t.timer k).cnt = 0 ∧ (t.timer k).passed = false ∧ t.rd (GT_EVENTS_WRAP k) = 1 ∧
        (t.timer k).reload = (if s.dev.rd (GT_STATUS_RELOAD_PEND k) = 1 then (s.dev.timer k).reloadSet else (s.dev.timer k).reload) ∧
        t.rd (GT_STATUS_RELOAD_PEND k) = 0 ∧ t.rd (GT_STATUS_CC_PEND k) = 0 ∧
        Keeps s.dev t (timerCtls ++ [GT_EVENTS k, GT_STATUS k, GT_PSC k])) ∧
    (∀ c : Fin 4, s.dev.gtCounts k = true → s.dev.rd (GT_CFG_MODE k c) = 1 → (s.dev.timer k).cnt < (s.dev.gtc k c).val →
      (s.dev.gtc k c).val ≤ (s.dev.timer k).reload →
      Does (.gtCompareMatch k c) s fun t => (t.timer k).cnt = (s.dev.gtc k c).val ∧ t.bit (GT_EVENTS_CC k) c = true ∧
        (t.gtc k c).out = (if s.dev.rd (GT_CFG_OUT_ACT k c) = 1 then true
          else if s.dev.rd (GT_CFG_OUT_ACT k c) = 2 ∨ s.dev.rd (GT_CFG_OUT_ACT k c) = 4 then false
          else if s.dev.rd (GT_CFG_OUT_ACT k c) = 3 then !(s.dev.gtc k c).out else (s.dev.gtc k c).out) ∧
        Keeps s.dev t (timerCtls ++ [GT_EVENTS k])) ∧
    (∀ (c : Fin 4) rising (ticks : BitVec 48),
      let n := ((s.dev.gtAdvance k ticks.toNat).timer k).cnt
      s.dev.up 1 = true → s.dev.rd (GT_CFG_MODE k c) = 2 →
      (s.dev.rd (GT_CFG_EDGE k c) = 2 ∨ rising ≠ (s.dev.rd (GT_CFG_EDGE k c) == 1)) →
      s.dev.rd (GT_CFG_EPSC k c) ≤ (s.dev.gtc k c).edges →
      Does (.gtCapture k c rising ticks) s fun t => t.bit (GT_EVENTS_CC k) c = true ∧ (t.gtc k c).level = rising ∧
        (t.gtc k c).edges = 0 ∧ ((s.dev.gtc k c).reading = false → (t.gtc k c).val = n) ∧
        ((s.dev.gtc k c).reading = true → (t.gtc k c).val = (s.dev.gtc k c).val) ∧
        ((s.dev.gtc k c).reading = true → (s.dev.gtc k c).hold = none →
          (t.gtc k c).hold = some n ∧ t.bit (GT_STATUS_CAP_PENDING k) c = true) ∧
        ((s.dev.gtc k c).reading = true → (s.dev.gtc k c).hold ≠ none → t.bit (GT_EVENTS_OVERCAPTURE k) c = true) ∧
        Keeps s.dev t (timerCtls ++ [GT_EVENTS k, GT_STATUS k]))) ∧
  (∀ (s : State) (ini : Ini) (k : Fin 8),
    (∀ (v : Word) (ticks : BitVec 48),
      let n := (s.dev.timer k).reloadStage * 2 ^ 32 + v.toNat
      Open s ini (GT_RELOAD_LO k) →
      (s.dev.rd (GT_CTRL_PRELOAD k) = 0 →
        Does (.gtReloadCommit ini k v ticks) s fun t => (t.timer k).reload = n ∧
          (t.timer k).passed = decide (n < ((s.dev.gtAdvance k ticks.toNat).timer k).cnt) ∧
          Keeps s.dev t [GT_RELOAD_LO k, GT_RELOAD_HI k, GT_STATUS k]) ∧
      (s.dev.rd (GT_CTRL_PRELOAD k) = 1 →
        Does (.gtReloadCommit ini k v ticks) s fun t => (t.timer k).reloadSet = n ∧ (t.timer k).reload = (s.dev.timer k).reload ∧
          t.rd (GT_STATUS_RELOAD_PEND k) = 1 ∧ Keeps s.dev t [GT_RELOAD_LO k, GT_RELOAD_HI k, GT_STATUS k])) ∧
    (∀ v : Word, Open s ini (GT_CNT_LO k) →
      (s.dev.rd (GT_CTRL_EN k) = 0 →
        Does (.gtCntWrite ini k v) s fun t => (t.timer k).cnt = (s.dev.timer k).cntStage * 2 ^ 32 + v.toNat ∧
          Keeps s.dev t timerCtls) ∧
      (s.dev.rd (GT_CTRL_EN k) = 1 →
        Does (.gtCntWrite ini k v) s fun t => t.rd (GT_EVENTS_WRITE_IGNORED k) = 1 ∧ t.timers = s.dev.timers ∧
          Keeps s.dev t [GT_EVENTS k])) ∧
    (∀ (c : Fin 4) (v : Word),
      let n := (s.dev.gtc k c).stage * 2 ^ 32 + v.toNat
      Open s ini (GT_VAL_LO k c) →
      (s.dev.rd (GT_CFG_MODE k c) ≠ 2 → s.dev.rd (GT_CFG_CC_PRELOAD k c) = 0 →
        Does (.gtValWrite ini k c v) s fun t => (t.gtc k c).val = n ∧ t.bit (GT_STATUS_CC_PEND k) c = false ∧
          Keeps s.dev t (timerCtls ++ [GT_STATUS k])) ∧
      (s.dev.rd (GT_CFG_MODE k c) ≠ 2 → s.dev.rd (GT_CFG_CC_PRELOAD k c) = 1 →
        Does (.gtValWrite ini k c v) s fun t => (t.gtc k c).next = n ∧ (t.gtc k c).val = (s.dev.gtc k c).val ∧
          t.bit (GT_STATUS_CC_PEND k) c = true ∧ Keeps s.dev t [GT_STATUS k]) ∧
      (s.dev.rd (GT_CFG_MODE k c) = 2 →
        Does (.gtValWrite ini k c v) s fun t => t.chans = s.dev.chans ∧ Keeps s.dev t [])) ∧
    (∀ ticks : BitVec 48,
      let n := ((s.dev.gtAdvance k ticks.toNat).timer k).cnt
      Open s ini (GT_CNT_LO k) →
      Does (.gtLoRead ini k none ticks) s fun t => t.resp.data = leBytes 4 n ∧ (t.timer k).cntLatch = n / 2 ^ 32 ∧
        (t.timer k).cnt = n ∧ Keeps s.dev t timerCtls) ∧
    (∀ (c : Fin 4) (ticks : BitVec 48),
      let v := s.dev.gtc k c
      Open s ini (GT_VAL_LO k c) →
      Does (.gtLoRead ini k (some c) ticks) s fun t => t.resp.data = leBytes 4 v.val ∧ (t.gtc k c).latch = v.val / 2 ^ 32 ∧
        (s.dev.rd (GT_CFG_MODE k c) = 2 → (t.gtc k c).reading = true) ∧ (t.gtc k c).val = v.val ∧ Keeps s.dev t []) ∧
    (∀ c : Fin 4,
      let v := s.dev.gtc k c
      (Open s ini (GT_VAL_HI k c) →
        Does (.gtValHiRead ini k c) s fun t => t.resp.data = leBytes 4 v.latch ∧ (t.gtc k c).reading = false ∧
          (v.reading = true → (t.gtc k c).val = v.hold.getD v.val ∧ (t.gtc k c).hold = none) ∧ Keeps s.dev t [GT_STATUS k]) ∧
      (v.reading = true →
        Does (.gtCaptureReadTimeout k c) s fun t => (t.gtc k c).reading = false ∧ (t.gtc k c).val = v.hold.getD v.val ∧
          t.bit (GT_STATUS_CAP_PENDING k) c = false ∧ Keeps s.dev t [GT_STATUS k])))


/-! ### Power -/

/-- Rules R35, R85, R186, R397, R398, R401, R427 and R428: a domain request is refused where it asks for more than the image allows, breaks
the order of the domains or hits one that is busy, and else every requested domain is on and every other off; a measurement of VIN
caps the gain; the warning, the recovery and the slow clock's source show in their status bits. -/
def Obligations.PowerInRun : Prop :=
  (∀ (s : State) (ini : Ini) (v : Word),
    let w := v.toNat % 2048 / 2 * 2 + 1
    Open s ini MNT_DOMAIN →
    (∀ n, 1 ≤ n → n ≤ 10 → bitOf w n = true → bitOf (s.dev.rd MNT_DOMAIN_ALLOW_ALLOW) n = false →
      Does (.domainRequest ini v) s fun t => t.rd MNT_DOMAIN_STAT_RESULT = Status.structureLocked.code ∧
        t.rd MNT_EVENTS_DOMAIN_REFUSED = 1 ∧ Keeps s.dev t [MNT_DOMAIN_STAT, MNT_EVENTS]) ∧
    ((∀ n, 1 ≤ n → n ≤ 10 → bitOf w n = true → bitOf (s.dev.rd MNT_DOMAIN_ALLOW_ALLOW) n = true) → s.dev.rd MNT_STATE_LIMP = 0 →
      (keepsR35 w = false →
        Does (.domainRequest ini v) s fun t => t.rd MNT_DOMAIN_STAT_RESULT = Status.notReady.code ∧
          t.rd MNT_EVENTS_DOMAIN_REFUSED = 1 ∧ Keeps s.dev t [MNT_DOMAIN_STAT, MNT_EVENTS]) ∧
      (∀ n, keepsR35 w = true → 2 ≤ n → n ≤ 10 → bitOf w n = false → s.dev.disp n ≠ 0 → s.dev.domainBusy n = true →
        Does (.domainRequest ini v) s fun t => t.rd MNT_DOMAIN_STAT_RESULT = Status.busy.code ∧
          t.rd MNT_EVENTS_DOMAIN_REFUSED = 1 ∧ Keeps s.dev t [MNT_DOMAIN_STAT, MNT_EVENTS]) ∧
      (keepsR35 w = true → (∀ n, 2 ≤ n → n ≤ 10 → bitOf w n = false → s.dev.disp n ≠ 0 → s.dev.domainBusy n = false) →
        (∀ n ∈ [8, 9], bitOf w n = true ∨ s.dev.disp n = 0) →
        Does (.domainRequest ini v) s fun t => t.rd MNT_DOMAIN_REQ = w / 2 ∧ t.rd MNT_DOMAIN_STAT_RESULT = Status.ok.code ∧
          (∀ n, 2 ≤ n → n ≤ 10 → bitOf w n = false → t.disp n = 0) ∧
          (∀ n, 2 ≤ n → n ≤ 10 → n ≠ 3 → n ≠ 4 → bitOf w n = true → t.disp n = 1)))) ∧
  (∀ s : State,
    (∀ mv : BitVec 16, s.dev.rd MNT_STATE_STATE = 0 → s.dev.waited .vin (us 100) = true →
      Does (.vinMeasure mv) s fun t => t.rd MNT_SUPPLY_VIN_MV = mv.toNat ∧
        t.rd MNT_SUPPLY_STAT_SG_CAP =
          (if mv.toNat < 3000 then 1 else if 3050 < mv.toNat then 0 else s.dev.rd MNT_SUPPLY_STAT_SG_CAP) ∧
        Keeps s.dev t [MNT_SUPPLY, MNT_SUPPLY_STAT]) ∧
    (s.dev.rd MNT_SUPPLY_STAT_WARN = 0 → s.dev.mnt.stage = .run → (∀ p < 2, (s.dev.path p).going = none ∧ s.dev.cutNow p true = false) →
      (∀ verified : BitVec 2, (∀ a < 2, s.dev.rd (FLC_STATE_STATE a) ≠ 2) →
        Does (.supplyWarn verified) s fun t => t.rd MNT_SUPPLY_STAT_WARN = 1 ∧ t.rd MNT_EVENTS_WARN = 1 ∧
          t.rd MNT_SUPPLY_STAT_RECOVERING = 0 ∧ t.mnt.vinLow = true ∧ Keeps s.dev t [MNT_SUPPLY_STAT, MNT_EVENTS]) ∧
      (∀ (a : Fin 2) j, s.dev.rd (FLC_STATE_STATE a) = 2 → s.dev.rd (FLC_STATE_STATE (1 - a.val)) ≠ 2 → (s.dev.arr a).job = some j →
        (s.dev.arr a).recording = false →
        Does (.supplyWarn 0) s fun t => t.rd (FLC_STATE_STATE a) = 3 ∧ t.rd (FLC_STATE_SUSP_BY_WARN a) = 1 ∧
          t.rd (FLC_EVENTS_WARN_SUSPEND a) = 1 ∧ (t.arr a).job = none ∧ (t.arr a).susp = some j ∧ t.rd MNT_SUPPLY_STAT_WARN = 1)) ∧
    (s.dev.rd MNT_SUPPLY_STAT_WARN = 1 →
      Does .recoveringStart s fun t => t.rd MNT_SUPPLY_STAT_RECOVERING = 1 ∧ t.mnt.vinLow = false ∧ Keeps s.dev t [MNT_SUPPLY_STAT]) ∧
    (s.dev.rd MNT_SUPPLY_STAT_RECOVERING = 1 → s.dev.waited .recover (us 1000) = true → (∀ a < 2, (s.dev.arr a).susp = none) →
      Does .supplyRecovered s fun t => t.rd MNT_SUPPLY_STAT_WARN = 0 ∧ t.rd MNT_SUPPLY_STAT_RECOVERING = 0 ∧
        t.rd MNT_EVENTS_RECOVERED = 1 ∧ Keeps s.dev t [MNT_SUPPLY_STAT, MNT_EVENTS]) ∧
    (s.dev.mnt.xtalStart = true →
      (Does .slowXtalReady s fun t => t.rd TREF_STATUS_SLOW_ON_RC = 0 ∧ t.tb.fresh = true ∧ t.mnt.slowXtal = true ∧
        t.mnt.xtalStart = false ∧ Keeps s.dev t [TREF_STATUS]) ∧
      (s.dev.waited .xtal (us 2000000) = true →
        Does .slowXtalTimeout s fun t =>
          (∃ u : Dev, t = u.charge 8 .slowOnRc 0 ∧ u.rd MNT_EVENTS_SLOW_ON_RC = 1 ∧ u.rd TREF_STATUS_SLOW_ON_RC = 1 ∧
            Keeps s.dev u [MNT_EVENTS, TREF_STATUS]) ∧
          (t.unit 8).total = min ((s.dev.unit 8).total + 1) 0xFFFFFFFF)) ∧
    (s.dev.rd TREF_STATUS_SLOW_ON_RC = 0 →
      Does .slowSourceHandover s fun t => t.rd TREF_STATUS_SLOW_ON_RC = 1 ∧ t.tb.fresh = true ∧ t.mnt.slowXtal = false ∧
        t.mnt.xtalStart = true ∧ Keeps s.dev t [TREF_STATUS]) ∧
    (s.dev.rd TREF_STATUS_SLOW_ON_RC = 1 → s.dev.mnt.slowXtal = true →
      Does .slowSourceHandover s fun t => t.rd TREF_STATUS_SLOW_ON_RC = 0 ∧ t.tb.fresh = true ∧ Keeps s.dev t [TREF_STATUS]))


/-- Rules R402 to R408: a sleep entry is refused for another entry, an unfit sniff assignment or too large a save list, and else
accepted; it waits while its deferral lasts, is aborted by an active wake source, copies its save list and commits; its detectors are
armed 61 us after the commit, and a level then active starts the wake; DOZE stops both pairs, and a wake source or an interrupt lets
them run again. -/
def Obligations.SleepEntry : Prop :=
  (∀ (s : State) (ini : Ini), Open s ini MNT_ENTER →
    (∀ c ∈ [Instr.enterRun ini, .enterDoze ini, .enterSleep ini, .enterSniff ini, .enterHibernate ini], ini.val ≠ 0 → ini.val ≠ 0x14 →
      Does c s fun t => t.mnt = s.dev.mnt ∧ Keeps s.dev t []) ∧
    ((ini.val = 0 ∨ ini.val = 0x14) →
      (s.dev.rd MNT_STATE_ENTRY_PENDING = 1 →
        (Does (.enterRun ini) s fun t => t.rd MNT_STATE_ENTRY_PENDING = 0 ∧ t.rd MNT_STATE_LAST_RESULT = Status.entryAborted.code ∧
          t.rd MNT_EVENTS_ENTRY_ABORTED = 1 ∧ t.mnt.stage = .run ∧ Keeps s.dev t [MNT_STATE, MNT_EVENTS]) ∧
        (∀ c ∈ [Instr.enterDoze ini, .enterSleep ini, .enterSniff ini, .enterHibernate ini],
          Does c s fun t => t.rd MNT_STATE_LAST_RESULT = Status.busy.code ∧ t.rd MNT_EVENTS_ENTRY_REFUSED = 1 ∧
            t.mnt = s.dev.mnt ∧ Keeps s.dev t [MNT_STATE, MNT_EVENTS])) ∧
      (s.dev.rd MNT_STATE_ENTRY_PENDING = 0 → Does (.enterRun ini) s fun t => t.mnt = s.dev.mnt ∧ Keeps s.dev t []) ∧
      (s.dev.rd MNT_STATE_ENTRY_PENDING = 0 → s.dev.rd STR_CMD_PENDING = 0 →
        (s.dev.sniffFit = false →
          Does (.enterSniff ini) s fun t => t.rd MNT_STATE_LAST_RESULT = Status.notReady.code ∧ t.rd MNT_EVENTS_ENTRY_REFUSED = 1 ∧
            t.mnt = s.dev.mnt ∧ Keeps s.dev t [MNT_STATE, MNT_EVENTS]) ∧
        (s.dev.hartHalted 8 = false →
          Does (.enterDoze ini) s fun t => t.rd MNT_STATE_STATE = 1 ∧ t.mnt.stage = .doze ∧ t.rd MNT_STATE_LAST_RESULT = Status.ok.code ∧
            t.rd MNT_STATE_ENTRY_PENDING = 0 ∧
            (∀ x < 2, s.dev.up (3 + x) = true → t.disp (3 + x) = 3) ∧
            (∀ x < 2, (s.dev.pair x).run = .running → (t.pair x).run = .stopped) ∧ Keeps s.dev t [MNT_STATE, MNT_DOMAIN_STAT]) ∧
        (s.dev.hartHalted 8 = true → s.dev.levels = [] →
          Does (.enterDoze ini) s fun t => t.rd MNT_STATE_ENTRY_PENDING = 1 ∧ t.rd MNT_STATE_DEFER = 8 ∧
            t.rd MNT_STATE_LAST_RESULT = Status.ok.code ∧ t.mnt = { s.dev.mnt with stage := .deferred, target := 1 } ∧
            Keeps s.dev t [MNT_STATE]) ∧
        (∀ c g, (c, g) ∈ [(Instr.enterSleep ini, 2), (.enterSniff ini, 3), (.enterHibernate ini, 4)] →
          (g = 3 → s.dev.sniffFit = true) →
          (4096 < s.dev.fixedBytes + s.dev.extBytes →
            Does c s fun t => t.rd MNT_STATE_LAST_RESULT = Status.saveOverflow.code ∧ t.rd MNT_EVENTS_ENTRY_REFUSED = 1 ∧
              t.mnt = s.dev.mnt ∧ Keeps s.dev t [MNT_STATE, MNT_EVENTS]) ∧
          (s.dev.fixedBytes + s.dev.extBytes ≤ 4096 → s.dev.levels = [] →
            Does c s fun t => t.rd MNT_STATE_LAST_RESULT = Status.ok.code ∧ t.rd MNT_STATE_ENTRY_PENDING = 1 ∧
              t.mnt = { s.dev.mnt with stage := .deferred, target := g } ∧ t.rd MNT_STATE_DEFER = t.deferBits ∧
              Keeps s.dev t [MNT_STATE]) ∧
          (s.dev.fixedBytes + s.dev.extBytes ≤ 4096 → s.dev.levels ≠ [] →
            Does c s fun t => t.rd MNT_STATE_LAST_RESULT = Status.entryAborted.code ∧ t.rd MNT_STATE_ENTRY_PENDING = 0 ∧
              t.rd MNT_EVENTS_ENTRY_ABORTED = 1 ∧ t.mnt.stage = .run ∧ Keeps s.dev t [MNT_STATE, MNT_EVENTS]))))) ∧
  (∀ s : State,
    (s.dev.mnt.stage = .deferred →
      (s.dev.deferred = true →
        Does .sleepEntryStart s fun t => t.rd MNT_STATE_DEFER = s.dev.deferBits ∧ t.mnt = s.dev.mnt ∧ Keeps s.dev t [MNT_STATE]) ∧
      (s.dev.deferred = false → s.dev.mnt.target = 1 →
        Does .sleepEntryStart s fun t => t.rd MNT_STATE_STATE = 1 ∧ t.mnt.stage = .doze ∧ t.rd MNT_STATE_ENTRY_PENDING = 0 ∧
          t.rd MNT_STATE_DEFER = 0 ∧ (∀ x < 2, s.dev.up (3 + x) = true → t.disp (3 + x) = 3) ∧
          (∀ x < 2, (s.dev.pair x).run = .running → (t.pair x).run = .stopped) ∧ Keeps s.dev t [MNT_STATE, MNT_DOMAIN_STAT]) ∧
      (s.dev.deferred = false → s.dev.mnt.target ≠ 1 → s.dev.levels ≠ [] →
        Does .sleepEntryStart s fun t => t.rd MNT_STATE_ENTRY_PENDING = 0 ∧ t.rd MNT_STATE_LAST_RESULT = Status.entryAborted.code ∧
          t.rd MNT_EVENTS_ENTRY_ABORTED = 1 ∧ t.mnt.stage = .run ∧ Keeps s.dev t [MNT_STATE, MNT_EVENTS]) ∧
      (s.dev.deferred = false → s.dev.mnt.target ≠ 1 → s.dev.levels = [] → s.dev.seRuns = false →
        Does .sleepEntryStart s fun t => t.mnt.stage = .copying ∧ t.rd MNT_STATE_DEFER = 0 ∧
          t.mnt.saved = s.dev.saveRegs.map (fun a => (a, (s.dev.reg a).toNat)) ∧ t.mnt.savedUse = s.dev.usedAccounts ∧
          t.mnt.savedAt = s.dev.now ∧
          t.mnt.runDisp = s.dev.rd MNT_DOMAIN_STAT_DISP ∧ RegsKeep s.dev t [MNT_STATE])) ∧
    (∀ g, s.dev.mnt.stage = .copying → s.dev.mnt.target = g → 2 ≤ g → g ≤ 4 →
      Does .sleepCommit s fun t => t.mnt.stage = .committed ∧ t.tb.onSlow = true ∧
        (s.dev.disp 8 = 0 → s.dev.disp 9 = 0 → t.rd MNT_STATE_STATE = g ∧ t.rd MNT_STATE_ENTRY_PENDING = 0 ∧
          t.rd MNT_SEAM_HELD = 2 * s.dev.rd MNT_SLEEP_CFG_BANK_HOLD + 1 ∧ t.disp 1 = (if g = 4 then 0 else 2) ∧
          ∀ n ∈ [2, 5, 7, 10], t.disp n = 0)) ∧
    (s.dev.mnt.stage = .committed → s.dev.waited .stage (us 61) = true → s.dev.levels = [] →
      (Does (.wakeArm 0) s fun t => t.mnt = { s.dev.mnt with stage := .asleep } ∧ Keeps s.dev t []) ∧
      (∀ i : Fin 18, s.dev.isLevel i = true → s.dev.wakeOn i = true →
        Does (.wakeArm (BitVec.ofNat 18 (2 ^ i.val))) s fun t => t.bit MNT_WAKE_SRC_SRC i = true ∧ t.rd MNT_WAKE_SRC_FIRST = i ∧
          t.mnt = { s.dev.mnt with stage := .regulators, tries := 0, drive := s.dev.rd MNT_LADDER_XTAL_DRIVE } ∧
          Keeps s.dev t [MNT_WAKE_SRC])) ∧
    (s.dev.mnt.stage = .doze → (s.dev.irqBest 0 ≠ 0 ∨ s.dev.irqBest 1 ≠ 0 ∨ s.dev.levels ≠ []) →
      Does .dozeExit s fun t => t.rd MNT_STATE_STATE = 0 ∧ t.mnt.stage = .run ∧
        (∀ x < 2, s.dev.disp (3 + x) = 3 → t.disp (3 + x) = 1) ∧
        (∀ x < 2, (s.dev.pair x).run = .stopped → (t.pair x).run = .running) ∧ Keeps s.dev t [MNT_STATE, MNT_DOMAIN_STAT]))


/-- Rules R405, R407, R410, R415, R418, R419 and R421 to R426: a wake source aborts an entry, is recorded where its edge comes too late
for the detectors, and starts a wake from sleep, which goes from the regulators by the oscillator and the PLLs to the release; a
start that fails is tried again, at a higher drive, and after its last attempt backs off or leaves the device in limp state; the
release puts the saved words back into the fields that software writes. -/
def Obligations.WakeSequence : Prop :=
  (∀ (s : State) (i : Fin 18),
    ((s.dev.wakeOn i = false ∨ i.val = 17) → Does (.wakeSource i) s fun t => t = s.dev) ∧
    (s.dev.wakeOn i = true → i.val ≠ 17 → (i.val ∈ [0, 10, 11] → i.val ∈ s.dev.levels) →
      ((s.dev.mnt.stage = .copying ∨ s.dev.mnt.stage = .deferred) →
        Does (.wakeSource i) s fun t => t.mnt.stage = .run ∧ t.rd MNT_EVENTS_ENTRY_ABORTED = 1 ∧
          t.rd MNT_STATE_LAST_RESULT = Status.entryAborted.code ∧ t.rd MNT_STATE_ENTRY_PENDING = 0 ∧
          Keeps s.dev t [MNT_STATE, MNT_EVENTS]) ∧
      (s.dev.mnt.stage = .committed → s.dev.isLevel i = false →
        Does (.wakeSource i) s fun t => t.bit MNT_WAKE_LOST_LOST i = true ∧ t.rd MNT_EVENTS_EDGE_IN_WINDOW = 1 ∧ t.mnt = s.dev.mnt ∧
          Keeps s.dev t [MNT_WAKE_LOST, MNT_EVENTS]) ∧
      (s.dev.mnt.stage = .doze →
        Does (.wakeSource i) s fun t => t.rd MNT_STATE_STATE = 0 ∧ t.mnt.stage = .run ∧
          (∀ x < 2, (s.dev.pair x).run = .stopped → (t.pair x).run = .running) ∧ Keeps s.dev t [MNT_STATE, MNT_DOMAIN_STAT]) ∧
      (s.dev.mnt.stage = .asleep → s.dev.sourceHeld i = true →
        Does (.wakeSource i) s fun t => t.bit MNT_WAKE_SRC_SRC i = true ∧ t.rd MNT_WAKE_SRC_FIRST = i ∧
          t.mnt = { s.dev.mnt with stage := .regulators, tries := 0, drive := s.dev.rd MNT_LADDER_XTAL_DRIVE } ∧
          Keeps s.dev t [MNT_WAKE_SRC]))) ∧
  (∀ s : State,
    (s.dev.mnt.stage = .regulators →
      (s.dev.waited .stage 0 = true →
        Does .regulatorReady s fun t => t.mnt = { s.dev.mnt with stage := .oscillator, tries := 1 } ∧
          t.rd MNT_LADDER_XTAL_ATTEMPTS = 1 ∧ Keeps s.dev t [MNT_LADDER]) ∧
      (s.dev.mnt.tries < 3 → s.dev.waited .stage (us 500) = true →
        Does .regulatorTimeout s fun t => t.mnt = { s.dev.mnt with tries := s.dev.mnt.tries + 1 } ∧
          t.rd MNT_EVENTS_WAKE_RETRIED = 1 ∧ Keeps s.dev t [MNT_EVENTS]) ∧
      (let u := ((s.dev.bump MNT_LADDER_REG_FAILS).wr MNT_STATE_STATE 4).charge 8 .regFail 0
       3 ≤ s.dev.mnt.tries → s.dev.waited .stage (us 500) = true → s.dev.rd MNT_STATE_STATE = 4 →
        (u.rd MNT_LADDER_REG_FAILS < 8 →
          Does .regulatorTimeout s fun t => t.mnt = { u.mnt with stage := .backoff, tries := 0 } ∧
            t.rd MNT_LADDER_BACKOFF_S = min 64 (2 ^ (u.rd MNT_LADDER_REG_FAILS - 1)) ∧ Keeps u t [MNT_LADDER]) ∧
        (8 ≤ u.rd MNT_LADDER_REG_FAILS →
          Does .regulatorTimeout s fun t => t.mnt = { u.mnt with stage := .wakeFailed, tries := 0 } ∧ t.rd FLT_STATUS_HEALTH_LOW = 1))) ∧
    (s.dev.mnt.stage = .backoff → s.dev.waited .stage (us (1000000 * s.dev.rd MNT_LADDER_BACKOFF_S)) = true →
      Does .ladderRetry s fun t => t.mnt = { s.dev.mnt with stage := .regulators, tries := 0, drive := s.dev.rd MNT_LADDER_XTAL_DRIVE } ∧
        Keeps s.dev t []) ∧
    (s.dev.mnt.stage = .oscillator → Does .oscReady s fun t => t.mnt = { s.dev.mnt with stage := .plls } ∧ Keeps s.dev t []) ∧
    (∀ c g d, (c, g, d) ∈ [(Instr.oscTimeout, Stage.oscillator, us 4000), (.pllTimeout, .plls, us 200)] → s.dev.mnt.stage = g →
      s.dev.waited .stage d = true → s.dev.rd MNT_STATE_LIMP = 0 →
      (s.dev.mnt.tries < 4 →
        Does c s fun t => t.mnt = { s.dev.mnt with stage := .oscillator, tries := s.dev.mnt.tries + 1,
                                                   drive := min 3 (s.dev.mnt.drive + 1) } ∧
          t.rd MNT_LADDER_XTAL_ATTEMPTS = s.dev.mnt.tries + 1 ∧ t.rd MNT_EVENTS_WAKE_RETRIED = 1 ∧
          Keeps s.dev t [MNT_LADDER, MNT_EVENTS]) ∧
      (4 ≤ s.dev.mnt.tries → s.dev.up 8 = false → s.dev.up 9 = false →
        Does c s fun t => ∃ u : Dev, t = u.charge 8 .limp 0 ∧ u.rd MNT_STATE_LIMP = 1 ∧ u.rd MNT_EVENTS_LIMP = 1 ∧
          u.mnt.stage = (if s.dev.rd MNT_STATE_STATE = 0 then .run else .waking) ∧ Keeps s.dev u [MNT_STATE, MNT_EVENTS])) ∧
    (s.dev.mnt.stage = .plls →
      (s.dev.rd MNT_STATE_STATE = 0 →
        Does .pllLocked s fun t => t.mnt.stage = .run ∧ t.tb.onSlow = false ∧ t.rd MNT_STATE_LIMP = 0 ∧
          t.rd MNT_LADDER_XTAL_DRIVE = s.dev.mnt.drive % 4 ∧ Keeps s.dev t [MNT_STATE, MNT_LADDER]) ∧
      (s.dev.rd MNT_STATE_STATE ≠ 0 →
        Does .pllLocked s fun t => t.mnt.stage = .waking ∧ t.tb.onSlow = false ∧ Keeps s.dev t [])) ∧
    (∀ ini : Ini, Open s ini MNT_LADDER → s.dev.rd MNT_STATE_LIMP = 1 →
      (Does (.retryXtal ini true) s fun t => t.mnt = { s.dev.mnt with stage := .plls, drive := 3, tries := 4 } ∧ Keeps s.dev t []) ∧
      (Does (.retryXtal ini false) s fun t => t.mnt = s.dev.mnt ∧ Keeps s.dev t [])) ∧
    (s.dev.mnt.stage = .waking → s.dev.img.loaded = true → s.dev.saveBroken s.dev.mnt.savedLen = false → s.dev.rd MNT_STATE_STATE < 4 →
      Does .wakeRelease s fun t => t.rd MNT_STATE_LAST_WAKE_FROM = s.dev.rd MNT_STATE_STATE ∧ t.rd MNT_EVENTS_WAKE = 1 ∧
        t.mnt.saved = [] ∧ t.mnt.savedUse = [] ∧ t.mnt.retained = []) ∧
    (∀ (l₁ l₂ : List (Nat × Nat)) a w r, s.dev.mnt.saved = l₁ ++ (a, w) :: l₂ → (∀ e ∈ l₂, e.1 ≠ a) → regFind a = some r →
      s.dev.restoreRegs.reg a &&& BitVec.ofNat 32 (rwMask r a) = BitVec.ofNat 32 w &&& BitVec.ofNat 32 (rwMask r a) ∧
        s.dev.restoreRegs.reg a &&& ~~~BitVec.ofNat 32 (rwMask r a) = s.dev.reg a &&& ~~~BitVec.ofNat 32 (rwMask r a)) ∧
    (let n := s.dev.rd MNT_SNIFF_ASSIGN
     s.dev.mnt.stage = .asleep → s.dev.rd MNT_STATE_STATE = 3 → s.dev.waited .sniff s.dev.sniffEvery = true →
      Does .sniffWindowOpen s fun t => t.mnt.stage = .window ∧ t.mnt.sniffSync = false ∧ (t.sleeve n).released = true ∧
        t.tb.onSlow = false ∧ t.disp 1 = 1 ∧ t.disp 5 = 1 ∧ t.disp 6 = 1 ∧
        t.disp (8 + s.dev.slvBand n) = 1 ∧ MemKeeps s.dev t) ∧
    (s.dev.mnt.stage = .window → s.dev.mnt.sniffSync = false → s.dev.listened = true →
      Does .sniffWindowClose s fun t => t.mnt.stage = .asleep ∧ t.tb.onSlow = true ∧ t.disp 1 = 2 ∧ t.disp 5 = 0) ∧
    (s.dev.mnt.stage = .window → (s.dev.mnt.sniffSync = true ∨ s.dev.listened = false) → Does .sniffWindowClose s fun t => t = s.dev) ∧
    (∀ (ini : Ini) (mask : BitVec 8), Open s ini MNT_SEAM →
      Does (.seamRelease ini mask) s fun t => (∀ b < 8, t.bit MNT_SEAM_HELD b = (s.dev.bit MNT_SEAM_HELD b && !mask.getLsbD b)) ∧
        Keeps s.dev t [MNT_SEAM]))


/-! ### Boot and structure -/

/-- Rules R48 to R56, R67 and R397: the power-on reset puts every register back and leaves flash as it is; a boot starts where the reset
was held and the supply has risen, and without a candidate ends in loader state; a candidate that fails makes way for the next or
for loader state with its code, one that passes is loaded and locked; a confirmation with the key spends the fuses its image asks
for, once. -/
def Obligations.ImageBoot : Prop :=
  ∀ s : State,
    ((∀ a < 2, (s.dev.arr a).job = none ∧ (s.dev.arr a).susp = none) →
      Does .powerOnReset s fun t => (∀ a, t.reg a = regReset a) ∧ t.boot.held = true ∧ t.img.loaded = false ∧
        (∀ x, 0x300000000 ≤ x → x < 0x400000000 → t.byte x = s.dev.byte x)) ∧
    (s.dev.boot.held = true →
      Does .supplyRise s fun t => t.boot.rise = true ∧ t.mnt.xtalStart = true ∧ t.rd TREF_STATUS_SLOW_ON_RC = 1 ∧
        Keeps s.dev t [TREF_STATUS]) ∧
    (∀ strap, s.dev.boot.held = true → s.dev.boot.rise = true → s.fuses.floor < 2 ^ 32 →
      Does (.resetRelease strap) s fun t => t.boot.held = false ∧ t.boot.strap = strap ∧ t.mnt.stage = .regulators ∧
        t.rd STR_FLOOR_VALUE = s.fuses.floor ∧ t.rd STR_STATUS_KEY0_REVOKED = (if s.fuses.revoked0 then 1 else 0) ∧
        t.rd STR_STATUS_KEY1_REVOKED = (if s.fuses.revoked1 then 1 else 0) ∧ MemKeeps s.dev t ∧
        (t.boot.select = none → t.rd STR_STATUS_LOADER_STATE = 1 ∧ t.rd STR_STATUS_LOAD_CODE = Status.imgNoImage.code ∧
          t.rd (CSP_CFG_ROLE 0) = 1 ∧ t.rd (CSP_CFG_ENABLE 0) = 1) ∧
        (∀ c, t.boot.select = some c → c.cands ≠ [] ∧ c.full = false)) ∧
    (∀ strap, (s.dev.boot.held = false ∨ s.dev.boot.rise = false) → Does (.resetRelease strap) s fun t => t = s.dev) ∧
    (∀ c b l, s.dev.boot.select = some c → c.cands = b :: l →
      (let named := c.full && !c.auto
       let u := ((s.dev.cmacParts b).onBoot fun x =>
         { x with select := if c.full then some { c with cands := [] } else none, loading := some b }).slotChosen b named
       s.dev.imageCheck s.fuses b = .ok →
        Does .imageCmacDone s fun t => t = (u.loadSections s.fuses.device b).healthPin ∧ u.rd STR_STATUS_SLOT = (if b then 1 else 0) ∧
          u.rd STR_STATUS_EXEC_SLOT = (if b then 1 else 0) ∧ u.rd STR_STATUS_LOADER_STATE = 0 ∧ u.boot.loading = some b ∧
          u.rd STR_SEQ_VALUE = imgSeq (s.dev.slotHeader b) ∧
          u.rd STR_STATUS_TRIAL = (if s.dev.slotConfirmed b || named then 0 else 1)) ∧
      (s.dev.imageCheck s.fuses b ≠ .ok → l = [] →
        Does .imageCmacDone s fun t => t.rd STR_STATUS_LOADER_STATE = 1 ∧
          t.rd STR_STATUS_LOAD_CODE = (s.dev.imageCheck s.fuses b).code ∧ t.boot.select = none ∧ t.boot.loading = none ∧
          t.rd FLT_STATUS_LOADER = 1 ∧ t.rd FLT_STATUS_HEALTH_LOW = 1 ∧ t.rd (CSP_CFG_ROLE 0) = 1 ∧
          t.rd PRS_STATUS_GRANT_JMP = (if s.dev.boot.strap then 1 else s.dev.rd PRS_STATUS_GRANT_JMP) ∧
          Keeps (s.dev.cmacParts b) t
            [STR_STATUS, FLT_STATUS, CSP_CFG 0, CSP_STATUS 0, PRS_STATUS, FLT_LOG_WR, FLT_LOG_RD, FLT_LOG_LOST, FLT_EVENTS]) ∧
      (s.dev.imageCheck s.fuses b ≠ .ok → l ≠ [] →
        Does .imageCmacDone s fun t => t.boot.select = some { c with cands := l, last := (s.dev.imageCheck s.fuses b).code } ∧
          t.boot.loading = s.dev.boot.loading ∧ Keeps (s.dev.cmacParts b) t []) ∧
      Keeps s.dev (s.dev.cmacParts b)
        [CE_DONE 9, CE_EVENTS, CE_CNT_REQ, CE_CNT_OPS_0, CE_CNT_OPS_1, CE_ENG, PCK_ENT_STATUS] ∧
      (headerOk (s.dev.slotHeader b) = true → s.dev.slotBroken b = false →
        (s.dev.cmacParts b).rd (CE_DONE_COUNT 9) =
          (s.dev.rd (CE_DONE_COUNT 9) + ceilDiv (imgLen (s.dev.slotHeader b) - 16) 4096) % 65536)) ∧
    (∀ b, s.dev.boot.loading = some b → s.dev.boot.select = none →
      Does .imageLoadLock s fun t => t.rd STR_STATUS_LOCKED = 1 ∧ t.boot.loading = none ∧ t.img.loaded = true) ∧
    (s.dev.boot.loading = none → Does .imageLoadLock s fun t => t = s.dev) ∧
    (∀ (ini : Ini) (key : Word), Open s ini STR_CONFIRM →
      ((key.toNat ≠ 0x434F4E46 ∨ s.dev.rd STR_STATUS_CONFIRMED = 1 ∨ s.dev.rd STR_STATUS_LOADER_STATE = 1 ∨
          s.dev.rd STR_STATUS_LOCKED = 0) →
        ∃ t, exec (.strConfirm ini key) s = .next t ∧ t.fuses = s.fuses ∧ Keeps s.dev t.dev []) ∧
      (let seq := s.dev.rd STR_SEQ_VALUE
       key.toNat = 0x434F4E46 → s.dev.rd STR_STATUS_CONFIRMED = 0 →
        s.dev.rd STR_STATUS_LOADER_STATE = 0 → s.dev.rd STR_STATUS_LOCKED = 1 → s.fuses.raises < 128 →
        ∃ t, exec (.strConfirm ini key) s = .next t ∧ t.pending = s.pending ∧ t.dev.rd STR_STATUS_CONFIRMED = 1 ∧
          t.dev.rd STR_STATUS_TRIAL = 0 ∧
          t.fuses = { s.fuses with
            floor := if bitOf s.dev.img.flags 0 ∧ s.fuses.floor < seq then seq else s.fuses.floor
            raises := if bitOf s.dev.img.flags 0 ∧ s.fuses.floor < seq then s.fuses.raises + 1 else s.fuses.raises
            revoked0 := s.fuses.revoked0 || (bitOf s.dev.img.flags 1 && decide (s.dev.img.key ≠ 0))
            revoked1 := s.fuses.revoked1 || (bitOf s.dev.img.flags 1 && decide (s.dev.img.key = 0)) } ∧
          RegsKeep s.dev t.dev [STR_STATUS, STR_FLOOR, FLC_CMD (s.dev.rd STR_STATUS_SLOT), FLC_EVENTS (s.dev.rd STR_STATUS_SLOT)] ∧
          MemKeeps (s.dev.pageProgram (s.dev.rd STR_STATUS_SLOT == 1) 127) t.dev))


/-- Rules R60 to R69, R293 and R425: an operation of STR_CMD is refused while another is open or where its slot is the one executed from;
an image operation is verified first, with AUTO on the slot rule R52 chooses, and answers its
loader code where it fails; what needs presence opens the window of 30 s, a
press held inside it starts the action and its end refuses it; a warm restructure keeps the ledger's history; four seal patterns
that fail in a row are a break. -/
def Obligations.RestructureAndPresence : Prop :=
  (∀ (s : State) (ini : Ini), Open s ini STR_CMD →
    (∀ c, (c = .strUnlockDebug ini ∨ c = .strFactoryReset ini ∨ c = .strEraseAllPockets ini ∨
        ∃ b auto, c = .strArm ini b ∨ c = .strWarmRestructure ini b ∨ c = .strFullRestructure ini b auto) →
      (s.dev.rd STR_CMD_PENDING = 1 ∨ s.dev.rd PRS_STATUS_WAITING = 1) →
      Does c s fun t => t.rd STR_CMD_RESULT = Status.busy.code ∧ t.boot = s.dev.boot ∧ Keeps s.dev t [STR_CMD]) ∧
    (s.dev.rd STR_CMD_PENDING = 0 → s.dev.rd PRS_STATUS_WAITING = 0 → s.dev.boot.op = none → s.dev.boot.imgErase = none →
      (∀ c g b auto, (c, g, auto) ∈ [(Instr.strArm ini b, 1, false), (.strWarmRestructure ini b, 2, false),
          (.strFullRestructure ini b auto, 3, auto)] →
        (s.dev.rd STR_STATUS_LOCKED = 1 → s.dev.rd STR_STATUS_EXEC_SLOT = (if b then 1 else 0) → (g = 3 ∧ auto = true) →
          Does c s fun t => t.rd STR_CMD_PENDING = 1 ∧
            t.boot = { s.dev.boot with op := some { op := g, slot := b, auto := auto, ini := ini.val, stage := .verify } } ∧
            Keeps s.dev t [STR_CMD]) ∧
        (s.dev.rd STR_STATUS_LOCKED = 1 → s.dev.rd STR_STATUS_EXEC_SLOT = (if b then 1 else 0) → ¬ (g = 3 ∧ auto = true) →
          Does c s fun t => t.rd STR_CMD_RESULT = Status.busy.code ∧ t.boot = s.dev.boot ∧ Keeps s.dev t [STR_CMD]) ∧
        ((s.dev.rd STR_STATUS_LOCKED = 0 ∨ s.dev.rd STR_STATUS_EXEC_SLOT = (if b then 0 else 1)) →
          Does c s fun t => t.rd STR_CMD_PENDING = 1 ∧
            t.boot = { s.dev.boot with op := some { op := g, slot := b, auto := auto, ini := ini.val, stage := .verify } } ∧
            Keeps s.dev t [STR_CMD])) ∧
      (s.dev.granted = false →
        (∀ c ∈ [Instr.strUnlockDebug ini, .strFactoryReset ini, .strEraseAllPockets ini],
          Does c s fun t => t.rd PRS_STATUS_WAITING = 1 ∧ t.rd PRS_GRANT_WINDOW_S = 30 ∧ t.rd STR_CMD_PENDING = 1 ∧
            (∃ o, t.boot.op = some o ∧ o.stage = .window) ∧ Keeps s.dev t [STR_CMD, PRS_STATUS, PRS_GRANT])) ∧
      (s.dev.granted = true →
        (Does (.strUnlockDebug ini) s fun t => t.boot.debug = true ∧ t.boot.op = none ∧ t.rd STR_CMD_RESULT = Status.ok.code ∧
          t.rd STR_CMD_PENDING = 0 ∧ Keeps s.dev t [STR_CMD, GPIO_HOST_EVT]) ∧
        (s.dev.sec.queue = [] →
          Does (.strEraseAllPockets ini) s fun t => ∀ n < 64, (t.pocket n).holds = false)))) ∧
  (∀ (s : State) o, s.dev.boot.op = some o → o.auto = false →
    (let g := s.dev.imageCheck s.fuses o.slot
     o.stage = .verify → o.op ≤ 3 →
      (g ≠ .ok →
        Does .strVerifyDone s fun t => t.rd STR_CMD_RESULT = g.code ∧ t.rd STR_CMD_PENDING = 0 ∧ t.boot.op = none ∧
          Keeps (s.dev.cmacParts o.slot) t [STR_CMD, GPIO_HOST_EVT]) ∧
      (g = .ok → o.op = 1 → o.slot ∈ s.dev.boot.imgGrant →
        Does .strVerifyDone s fun t => t.rd STR_CMD_RESULT = Status.ok.code ∧ t.rd STR_CMD_PENDING = 0 ∧ t.boot.op = none ∧
          MemKeeps (s.dev.pageProgram o.slot 124) t ∧
          RegsKeep (s.dev.cmacParts o.slot) t [STR_CMD, GPIO_HOST_EVT, FLC_CMD (slotArr o.slot), FLC_EVENTS (slotArr o.slot)]) ∧
      (g = .ok → o.op = 2 → s.dev.img.loaded = false →
        Does .strVerifyDone s fun t => t.rd STR_CMD_RESULT = Status.imgNotWarm.code ∧ t.rd STR_CMD_PENDING = 0 ∧ t.boot.op = none ∧
          Keeps (s.dev.cmacParts o.slot) t [STR_CMD, GPIO_HOST_EVT]) ∧
      (g = .ok → (o.op = 3 ∨ o.op = 1 ∧ s.dev.img.loaded = false ∧ o.slot ∉ s.dev.boot.imgGrant) → s.dev.granted = false →
        Does .strVerifyDone s fun t => t.rd PRS_STATUS_WAITING = 1 ∧ t.rd PRS_GRANT_WINDOW_S = 30 ∧
          t.boot.op = some { o with stage := .window } ∧
          Keeps (s.dev.cmacParts o.slot) t [PRS_STATUS, PRS_GRANT])) ∧
    (s.dev.mnt.stage ≠ .wakeFailed → s.dev.boot.press = some true → s.dev.rd PRS_STATUS_WAITING = 1 → s.dev.boot.imgErase = none →
      o.op = 4 →
      Does .presBtnHold s fun t => t.boot.debug = true ∧ t.boot.op = none ∧ t.boot.press = some false ∧ t.rd PRS_STATUS_WAITING = 0 ∧
        t.rd PRS_GRANT_WINDOW_S = 0 ∧ t.rd STR_CMD_RESULT = Status.ok.code ∧ t.rd STR_CMD_PENDING = 0 ∧
        Keeps s.dev t [STR_CMD, PRS_STATUS, PRS_GRANT, GPIO_HOST_EVT]) ∧
    (let img := s.dev.slotImage o.slot
     o.op = 2 → o.stage = .boundary →
      Does .warmCommit s fun t => t.rd STR_CMD_RESULT = Status.ok.code ∧ t.rd STR_CMD_PENDING = 0 ∧ t.boot.op = none ∧
        t.rd STR_STATUS_CONFIRMED = 1 ∧ t.rd STR_STATUS_SLOT = (if o.slot then 1 else 0) ∧ t.rd STR_SEQ_VALUE = imgSeq img ∧
        t.se.led.use = s.dev.se.led.use ∧ t.se.led.present = hasSect img 0x0B)) ∧
  (∀ (s : State) o, s.dev.boot.op = some o → o.op = 3 → o.auto = true → o.stage = .verify →
    (let r := s.dev.choose52 s.fuses s.dev.candidates .imgNoImage
     (r.1 = none →
        Does .strVerifyDone s fun t => t.rd STR_CMD_RESULT = r.2.code ∧ t.rd STR_CMD_PENDING = 0 ∧ t.boot.op = none ∧ MemKeeps s.dev t) ∧
      (∀ b, r.1 = some b → s.dev.granted = false →
        Does .strVerifyDone s fun t => t.rd PRS_STATUS_WAITING = 1 ∧ t.rd PRS_GRANT_WINDOW_S = 30 ∧
          t.boot.op = some { o with slot := b, stage := .window } ∧ MemKeeps s.dev t))) ∧
  (∀ s : State,
    (Does .presBtnPress s fun t => t.rd PRS_STATUS_BTN = 1 ∧ t.boot.press = some (s.dev.rd PRS_STATUS_WAITING == 1) ∧
      Keeps s.dev t [PRS_STATUS]) ∧
    (s.dev.mnt.stage = .wakeFailed →
      Does .presBtnHold s fun t => t.mnt = { s.dev.mnt with stage := .regulators, tries := 0, drive := s.dev.rd MNT_LADDER_XTAL_DRIVE } ∧
        t.rd MNT_LADDER_REG_FAILS = 0 ∧ t.rd MNT_LADDER_WAS_WAKE_FAILED = 1 ∧ Keeps s.dev t [MNT_LADDER, FLT_STATUS]) ∧
    (s.dev.mnt.stage ≠ .wakeFailed → (s.dev.boot.press ≠ some true ∨ s.dev.rd PRS_STATUS_WAITING = 0) →
      Does .presBtnHold s fun t => t = s.dev) ∧
    (s.dev.rd PRS_STATUS_WAITING = 1 → s.dev.boot.imgErase = none →
      Does .presenceWindowExpiry s fun t => t.rd PRS_STATUS_WAITING = 0 ∧ t.rd PRS_GRANT_WINDOW_S = 0 ∧ t.boot.op = none ∧
        t.rd STR_CMD_RESULT = Status.presenceRequired.code ∧ t.rd STR_CMD_PENDING = 0 ∧
        Keeps s.dev t [STR_CMD, PRS_STATUS, PRS_GRANT, GPIO_HOST_EVT]) ∧
    (∀ b, s.dev.rd PRS_STATUS_WAITING = 1 → s.dev.boot.imgErase = some b →
      Does .presenceWindowExpiry s fun t => t.boot.imgErase = none ∧ t.rd (CSP_SLV_LAST_STATUS 0) = Status.presenceRequired.code ∧
        t.rd (CSP_EVENTS_SLV_DONE 0) = 1 ∧ Keeps s.dev t [PRS_STATUS, PRS_GRANT, CSP_SLV_LAST 0, CSP_EVENTS 0]) ∧
    ((s.dev.rd PRS_STATUS_SEAL_POLICY = 1 ∨ s.dev.rd PRS_STATUS_SEAL_POLICY = 2) →
      (Does (.sealCheck true) s fun t => t.boot.mismatches = 0 ∧ t.rd PRS_STATUS_SEAL_OK = 1 ∧ Keeps s.dev t [PRS_STATUS]) ∧
      (s.dev.boot.mismatches < 3 →
        Does (.sealCheck false) s fun t => t.boot.mismatches = s.dev.boot.mismatches + 1 ∧ t.rd PRS_STATUS_SEAL_OK = 0 ∧
          t.rd PRS_STATUS_SEAL_BROKEN = s.dev.rd PRS_STATUS_SEAL_BROKEN ∧ Keeps s.dev t [PRS_STATUS]) ∧
      (s.dev.boot.mismatches = 3 → s.dev.rd PRS_STATUS_SEAL_POLICY = 1 →
        Does (.sealCheck false) s fun t => t.rd PRS_STATUS_SEAL_BROKEN = 1 ∧ t.rd PRS_STATUS_GRANT_SEAL = 1 ∧
          t.rd PRS_GRANT_GRANT_S = 600 ∧ t.rd FLT_EVENTS_RECORD = 1 ∧ MemKeeps s.dev t) ∧
      (s.dev.boot.mismatches = 3 → s.dev.rd PRS_STATUS_SEAL_POLICY = 2 → s.dev.sec.queue = [] →
        Does (.sealCheck false) s fun t => t.rd PRS_STATUS_SEAL_BROKEN = 1 ∧ ∀ n < 64, (t.pocket n).holds = false)) ∧
    (s.dev.rd PRS_STATUS_SEAL_POLICY ≠ 1 → s.dev.rd PRS_STATUS_SEAL_POLICY ≠ 2 → ∀ same, Does (.sealCheck same) s fun t => t = s.dev) ∧
    (Does .sealGrantExpiry s fun t => t.rd PRS_STATUS_GRANT_SEAL = 0 ∧ t.rd PRS_GRANT_GRANT_S = 0 ∧
      Keeps s.dev t [PRS_STATUS, PRS_GRANT]))


/-! ### Wired links and the switch -/

/-- Rules R432 to R435, R443 to R445 and R470 with Table 12-1: how a wired link moves between its states, what a link that goes down
drops, when it falls back to the lower rate, and what ring and dual-homed operation do with a port that comes up or goes down. -/
def Obligations.WiredLinks : Prop :=
  ∀ (s : State) (l : Fin 2),
    (s.dev.rd (WL_STATUS_STATE l) = 2 → (s.dev.rd (WL_CFG_AN_EN l) = 0 ∨ s.dev.rd (WL_STATUS_RATE_NOW l) = 1) →
      ((s.dev.rd FSW_RING_MODE = 0 ∨ s.dev.rd FSW_RING_MODE = 2 ∨
          s.dev.rd FSW_RING_MODE = 3 ∧ s.dev.rd FSW_RING_ACTIVE_VALID = 1) →
        Does (.linkUp l none) s fun t => t.rd (WL_STATUS_STATE l) = 4 ∧ t.rd (WL_STATUS_SYNC l) = 1 ∧ t.rd (WL_STATUS_LOS l) = 0 ∧
          t.rd (WL_EVENTS_LINK_UP l) = 1 ∧ Keeps s.dev t ([WL_STATUS l, WL_EVENTS l] ++ svcRegs)) ∧
      (s.dev.rd FSW_RING_MODE = 1 →
        Does (.linkUp l none) s fun t => t.rd (WL_STATUS_STATE l) = 4 ∧ (t.eport l).hold = true ∧ t.blocked l = true ∧
          Keeps s.dev t ([WL_STATUS l, WL_EVENTS l] ++ svcRegs)) ∧
      (s.dev.rd FSW_RING_MODE = 3 → s.dev.rd FSW_RING_ACTIVE_VALID = 0 →
        Does (.linkUp l none) s fun t => t.rd (WL_STATUS_STATE l) = 4 ∧ t.rd FSW_RING_ACTIVE = l ∧ t.rd FSW_RING_ACTIVE_VALID = 1 ∧
          t.io.fdb = [])) ∧
    (s.dev.rd (WL_STATUS_STATE l) = 2 → s.dev.rd (WL_CFG_AN_EN l) = 1 → s.dev.rd (WL_STATUS_RATE_NOW l) = 0 →
      Does (.linkUp l none) s fun t => t.rd (WL_STATUS_STATE l) = 3 ∧ t.rd (WL_STATUS_SYNC l) = 1 ∧ Keeps s.dev t [WL_STATUS l]) ∧
    (∀ v : BitVec 16, s.dev.rd (WL_STATUS_STATE l) = 3 → s.dev.rd FSW_RING_MODE = 0 →
      Does (.linkUp l (some v)) s fun t => t.rd (WL_STATUS_STATE l) = 4 ∧ t.rd (WL_STATUS_LP_ABILITY l) = v.toNat ∧
        t.rd (WL_STATUS_AN_DONE l) = 1 ∧ t.rd (WL_EVENTS_AN_DONE l) = 1 ∧
        Keeps s.dev t ([WL_STATUS l, WL_EVENTS l] ++ svcRegs)) ∧
    (∀ c, s.dev.rd (WL_STATUS_STATE l) ≠ 4 → Does (.linkDown l c) s fun t => t = s.dev) ∧
    (s.dev.rd (WL_STATUS_STATE l) = 4 → NoStamps s.dev l → (s.dev.rd FSW_RING_MODE = 0 ∨ s.dev.rd FSW_RING_MODE = 2) →
      (s.dev.rd (WL_CFG_RATE l) < 2 →
        Does (.linkDown l .los) s fun t => t.rd (WL_STATUS_STATE l) = 2 ∧ t.rd (WL_STATUS_RATE_NOW l) = s.dev.rd (WL_CFG_RATE l) ∧
          t.rd (WL_STATUS_LOS l) = 1 ∧ t.rd (WL_STATUS_SYNC l) = 0 ∧ t.rd (WL_EVENTS_LINK_DOWN l) = 1 ∧
          t.eport l = { EPort.init with hold := (s.dev.eport l).hold } ∧
          t.rd FSW_CNT_Q_DROP_COUNT =
            min (s.dev.rd FSW_CNT_Q_DROP_COUNT + ((List.range 4).flatMap (s.dev.eport l).queue).length) 0xFFFFFFFF ∧
          Keeps s.dev t ([WL_STATUS l, WL_EVENTS l, FSW_CNT_Q_DROP, FSW_BUF_STAT] ++ svcRegs)) ∧
      (s.dev.rd (WL_CFG_RATE l) < 2 →
        Does (.linkDown l .anRestart) s fun t => t.rd (WL_STATUS_STATE l) = 2 ∧ t.rd (WL_EVENTS_LINK_DOWN l) = 1 ∧
          t.rd (WL_STATUS_AN_DONE l) = 0 ∧ t.eport l = { EPort.init with hold := (s.dev.eport l).hold } ∧
          Keeps s.dev t ([WL_STATUS l, WL_EVENTS l, FSW_CNT_Q_DROP, FSW_BUF_STAT] ++ svcRegs)) ∧
      (s.dev.sfpSees = true →
        Does (.sfpModuleChange l true) s fun t => t.rd (WL_STATUS_STATE l) = 1 ∧ t.rd (WL_STATUS_MOD_ABS l) = 1 ∧
          t.rd (WL_EVENTS_MODULE l) = 1 ∧ t.eport l = { EPort.init with hold := (s.dev.eport l).hold } ∧
          Keeps s.dev t ([WL_STATUS l, WL_EVENTS l, FSW_CNT_Q_DROP, FSW_BUF_STAT] ++ svcRegs)) ∧
      (s.dev.rd (WL_CFG_RATE l) < 2 → s.dev.rd (WL_STATUS_LOS l) = 0 → s.dev.rd (WL_STATUS_MOD_ABS l) = 0 →
        Does (.linkDown l .sync) s fun t => ∃ u : Dev, t = u.charge (0x1C + l.val) .linkFault 0 ∧ u.rd (WL_STATUS_STATE l) = 2 ∧
          u.rd (WL_CNT_SYNC_LOSS_COUNT l) = min (s.dev.rd (WL_CNT_SYNC_LOSS_COUNT l) + 1) 0xFFFFFFFF ∧
          Keeps s.dev u ([WL_STATUS l, WL_EVENTS l, WL_CNT_SYNC_LOSS l, FSW_CNT_Q_DROP, FSW_BUF_STAT] ++ svcRegs)) ∧
      (s.dev.rd (WL_CFG_RATE l) = 2 → s.dev.rd (WL_CFG_FALLBACK_EN l) = 1 → s.dev.rd (WL_STATUS_RATE_NOW l) = 1 →
        max 1 (s.dev.rd (WL_FALLBACK_LOSSES l)) ≤ 1 + ((s.dev.link l).losses.filter fun x =>
          decide (tsDiff s.dev.now x < ((max 1 (s.dev.rd (WL_FALLBACK_WINDOW_S l)) * 8000000 : Nat) : Int))).length →
        Does (.linkDown l .los) s fun t => t.rd (WL_STATUS_STATE l) = 2 ∧ t.rd (WL_STATUS_FALLEN l) = 1 ∧
          t.rd (WL_EVENTS_FALLBACK l) = 1 ∧ t.rd (WL_STATUS_RATE_NOW l) = 0 ∧ (t.link l).losses = [])) ∧
    (s.dev.rd (WL_STATUS_STATE l) = 4 → NoStamps s.dev l → s.dev.rd (WL_CFG_RATE l) < 2 →
      (s.dev.rd FSW_RING_MODE = 1 → Does (.linkDown l .los) s fun t => t.rd (WL_STATUS_STATE l) = 2 ∧ t.io.fdb = []) ∧
      (s.dev.rd FSW_RING_MODE = 3 → s.dev.rd FSW_RING_ACTIVE_VALID = 1 → s.dev.rd FSW_RING_ACTIVE = l →
        (s.dev.rd (WL_STATUS_STATE (1 - l.val)) = 4 →
          Does (.linkDown l .los) s fun t => t.rd FSW_RING_ACTIVE = 1 - l.val ∧ t.rd FSW_RING_ACTIVE_VALID = 1 ∧
            t.rd FSW_EVENTS_FAILOVER = 1 ∧ t.io.fdb = []) ∧
        (s.dev.rd (WL_STATUS_STATE (1 - l.val)) ≠ 4 →
          Does (.linkDown l .los) s fun t => t.rd FSW_RING_ACTIVE_VALID = 0))) ∧
    (s.dev.rd (WL_STATUS_STATE l) = 3 → s.dev.waited (.an l) (us 500000) = true →
      Does (.anTimeout l) s fun t => t.rd (WL_STATUS_STATE l) = 2 ∧ Keeps s.dev t [WL_STATUS l]) ∧
    (s.dev.rd (WL_STATUS_STATE l) = 2 → s.dev.rd (WL_CFG_RATE l) = 2 → s.dev.rd (WL_STATUS_FALLEN l) = 0 →
      s.dev.waited (.search l) (us 20000) = true →
      Does (.searchRateSwitch l) s fun t => t.rd (WL_STATUS_RATE_NOW l) = 1 - s.dev.rd (WL_STATUS_RATE_NOW l) ∧
        Keeps s.dev t [WL_STATUS l]) ∧
    (s.dev.sfpSees = false →
      (∀ absent, Does (.sfpModuleChange l absent) s fun t => t = s.dev) ∧ Does (.linkTxFault l) s fun t => t = s.dev) ∧
    (s.dev.sfpSees = true →
      (s.dev.rd (WL_STATUS_STATE l) ≠ 4 →
        Does (.sfpModuleChange l true) s fun t => t.rd (WL_STATUS_MOD_ABS l) = 1 ∧ t.rd (WL_EVENTS_MODULE l) = 1 ∧
          t.rd (WL_STATUS_FALLEN l) = 0 ∧ (t.link l).settling = false ∧
          t.rd (WL_STATUS_STATE l) = min 1 (s.dev.rd (WL_STATUS_STATE l)) ∧ Keeps s.dev t [WL_STATUS l, WL_EVENTS l]) ∧
      (Does (.sfpModuleChange l false) s fun t => t.rd (WL_STATUS_MOD_ABS l) = 0 ∧ t.rd (WL_EVENTS_MODULE l) = 1 ∧
        (t.link l).settling = true ∧ t.rd (WL_STATUS_STATE l) = s.dev.rd (WL_STATUS_STATE l) ∧
        Keeps s.dev t [WL_STATUS l, WL_EVENTS l]) ∧
      ((s.dev.rd (WL_STATUS_STATE l) = 2 ∨ s.dev.rd (WL_STATUS_STATE l) = 3) →
        Does (.linkTxFault l) s fun t => ∃ u : Dev, t = u.charge (0x1C + l.val) .linkFault 0 ∧ u.rd (WL_STATUS_STATE l) = 5 ∧
          u.rd (WL_STATUS_TX_FAULT l) = 1 ∧ u.rd (WL_EVENTS_TX_FAULT l) = 1 ∧ Keeps s.dev u [WL_STATUS l, WL_EVENTS l])) ∧
    ((s.dev.link l).settling = true → s.dev.waited (.module l) (us 300000) = true →
      Does (.moduleSettled l) s fun t => (t.link l).settling = false ∧
        (s.dev.rd (WL_STATUS_STATE l) = 1 → t.rd (WL_STATUS_STATE l) = 2) ∧ Keeps s.dev t [WL_STATUS l]) ∧
    (s.dev.rd (WL_STATUS_STATE l) = 5 → s.dev.waited (.txFault l) (us 100000) = true →
      Does (.linkFaultRelease l) s fun t => t.rd (WL_STATUS_STATE l) = 2 ∧ t.rd (WL_STATUS_TX_FAULT l) = 0 ∧
        Keeps s.dev t [WL_STATUS l])


/-- Rules R431, R436 to R438, R441, R442, R445 to R448 and R454: what a received frame counts as, where the switch sends it, what an egress
port does when its frame has left, how the ring opens and closes, and how an internal descriptor and an EVENT are served. -/
def Obligations.SwitchFrames : Prop :=
  (∀ (s : State) (l : Fin 2) (octets : List Byte) (cut : Bool) (ts : BitVec 48) (frac : Fin 25),
    let f := octets.take (octets.length - 4)
    s.dev.rd (WL_STATUS_STATE l) = 4 →
    (beAt octets 12 2 = 0x8808 →
      Does (.wlFrameRx l octets cut ts frac) s fun t =>
        t.rd (WL_CNT_PAUSE_COUNT l) = min (s.dev.rd (WL_CNT_PAUSE_COUNT l) + 1) 0xFFFFFFFF ∧ Keeps s.dev t [WL_CNT_PAUSE l]) ∧
    (beAt octets 12 2 ≠ 0x8808 →
      (min 2048 (s.dev.rd (WL_CFG_MAX_LEN l)) < octets.length →
        Does (.wlFrameRx l octets cut ts frac) s fun t =>
          t.rd (WL_CNT_LONG_COUNT l) = min (s.dev.rd (WL_CNT_LONG_COUNT l) + 1) 0xFFFFFFFF ∧ Keeps s.dev t [WL_CNT_LONG l]) ∧
      (octets.length ≤ min 2048 (s.dev.rd (WL_CFG_MAX_LEN l)) → octets.length < 64 →
        Does (.wlFrameRx l octets cut ts frac) s fun t =>
          t.rd (WL_CNT_SHORT_COUNT l) = min (s.dev.rd (WL_CNT_SHORT_COUNT l) + 1) 0xFFFFFFFF ∧ Keeps s.dev t [WL_CNT_SHORT l]) ∧
      (octets.length ≤ min 2048 (s.dev.rd (WL_CFG_MAX_LEN l)) → 64 ≤ octets.length →
        (cut = true ∨ octets.drop f.length ≠ leBytes 4 (crc32 f)) → s.dev.rd FSW_CFG_CUT_THROUGH = 0 →
        Does (.wlFrameRx l octets cut ts frac) s fun t =>
          t.rd (WL_CNT_FCS_COUNT l) = min (s.dev.rd (WL_CNT_FCS_COUNT l) + 1) 0xFFFFFFFF ∧ Keeps s.dev t [WL_CNT_FCS l]) ∧
      (let u := s.dev.bump (WL_CNT_RX_COUNT l)
       let vid := s.dev.vidOf l f
       let q := s.dev.queueOf (s.dev.pcpOf l f)
       octets.length ≤ min 2048 (s.dev.rd (WL_CFG_MAX_LEN l)) → 64 ≤ octets.length → octets.drop f.length = leBytes 4 (crc32 f) →
        (s.dev.rd FSW_CFG_ENABLE = 0 → Does (.wlFrameRx l octets false ts frac) s fun t => t = u) ∧
        (s.dev.rd FSW_CFG_ENABLE = 1 → s.dev.member l vid = false →
          Does (.wlFrameRx l octets false ts frac) s fun t =>
            t.rd FSW_CNT_VLAN_DROP_COUNT = min (s.dev.rd FSW_CNT_VLAN_DROP_COUNT + 1) 0xFFFFFFFF ∧
            Keeps s.dev t [WL_CNT_RX l, FSW_CNT_VLAN_DROP]) ∧
        (let w := u.fdbLearn l vid (srcOf f)
         s.dev.rd FSW_CFG_ENABLE = 1 → s.dev.member l vid = true → s.dev.ringShape f = false → s.dev.blocked l = false →
          (dstOf f ≠ s.dev.fswMac → isGroup f = false → w.fdbPort (dstOf f) vid = some l.val →
            Does (.wlFrameRx l octets false ts frac) s fun t =>
              t.rd FSW_CNT_FILTER_COUNT = min (s.dev.rd FSW_CNT_FILTER_COUNT + 1) 0xFFFFFFFF ∧ t.io = w.io) ∧
          (let g := w.egressForm (1 - l.val) vid (w.pcpOf l f) f
           dstOf f ≠ s.dev.fswMac → isGroup f = false → w.fdbPort (dstOf f) vid = some (1 - l.val) →
            w.forwarding (1 - l.val) = true →
            w.egressRoom (1 - l.val) q g.length = true → (w.eport (1 - l.val)).sending = none →
            (∀ q, (w.eport (1 - l.val)).queue q = []) →
            Does (.wlFrameRx l octets false ts frac) s fun t =>
              (t.eport (1 - l.val)).sending = some { octets := g, tx := none, stamp := false, stomp := false } ∧ MemKeeps s.dev t) ∧
          (dstOf f = s.dev.fswMac → w.isRequest f = true →
            (w.io.mx.length < 8 →
              Does (.wlFrameRx l octets false ts frac) s fun t =>
                t.io.mx = w.io.mx ++ [{ port := l, src := srcOf f, tci := if tagged f then some (tciOf f) else none,
                                        body := payload f }] ∧ MemKeeps s.dev t) ∧
            (8 ≤ w.io.mx.length →
              Does (.wlFrameRx l octets false ts frac) s fun t => t.io = w.io ∧ t.rd FSW_EVENTS_MX_DROP = 1)) ∧
          (let n := w.rd FSW_IRX_SIZE_ENTRIES
           dstOf f = s.dev.fswMac → w.isRequest f = false →
            (ringFree n (w.rd FSW_IRX_WR_WR) (w.rd FSW_IRX_RD_RD) 0 = false →
              Does (.wlFrameRx l octets false ts frac) s fun t => t.rd FSW_EVENTS_IRX_FULL = 1 ∧ MemKeeps s.dev t) ∧
            (ringFree n (w.rd FSW_IRX_WR_WR) (w.rd FSW_IRX_RD_RD) 0 = true →
              Does (.wlFrameRx l octets false ts frac) s fun t => t.rd FSW_IRX_WR_WR = (w.rd FSW_IRX_WR_WR + 1) % n)))))) ∧
  (∀ s : State,
    (∀ (p : Fin 2) (ts : BitVec 48) (frac : Fin 25) f,
      let e := s.dev.eport p
      e.sending = some f → f.tx = none →
      Does (.egressFrameSent p ts frac) s fun t => t.rd (WL_CNT_TX_COUNT p) = min (s.dev.rd (WL_CNT_TX_COUNT p) + 1) 0xFFFFFFFF ∧
        ((∀ q < 4, e.queue q = []) → (t.eport p).sending = none) ∧
        (∀ q g r, q < 4 → e.queue q = g :: r → (∀ k < 4, q < k → e.queue k = []) →
          (t.eport p).sending = some g ∧ (t.eport p).queue q = r) ∧
        t.rd FSW_BUF_STAT_FREE_KIB = (512 - (t.bufUsed + 1023) / 1024) % 1024 ∧ Keeps s.dev t [WL_CNT_TX p, FSW_BUF_STAT]) ∧
    (∀ (mac : BitVec 48) (vid : BitVec 12),
      Does (.fdbAgeOut mac vid) s fun t => Keeps s.dev t [] ∧
        ∀ e, e ∈ t.io.fdb ↔ e ∈ s.dev.io.fdb ∧ ¬(e.1 = leBytes 6 mac.toNat ∧ e.2.1 = vid.toNat ∧
          ((us (1000000 * max 1 (s.dev.rd FSW_CFG_AGE_S)) : Nat) : Int) ≤ tsDiff s.dev.now e.2.2.2)) ∧
    (s.dev.rd FSW_RING_MODE = 2 → s.dev.rd FSW_CFG_ENABLE = 1 → s.dev.waited .ringCheck s.dev.checkTime = true →
      (s.dev.rd FSW_RING_BLOCKED = 0 → s.dev.io.seen = true → s.dev.io.streak = 2 →
        Does .ringCheckTimer s fun t => t.rd FSW_RING_BLOCKED = 1 ∧ t.rd FSW_EVENTS_RING_CLOSED = 1 ∧ t.io.fdb = [] ∧
          t.io.seen = false ∧ MemKeeps s.dev t) ∧
      (s.dev.io.seen = false →
        Does .ringCheckTimer s fun t => t.io.streak = 0 ∧ t.rd FSW_RING_BLOCKED = s.dev.rd FSW_RING_BLOCKED ∧
          t.io.fdb = s.dev.io.fdb ∧ MemKeeps s.dev t)) ∧
    (s.dev.rd FSW_RING_MODE = 2 → s.dev.rd FSW_RING_BLOCKED = 1 → s.dev.waited .ringSeen (3 * s.dev.checkTime) = true →
      Does .ringCheckTimeout s fun t => t.rd FSW_RING_BLOCKED = 0 ∧ t.rd FSW_EVENTS_RING_BROKEN = 1 ∧ t.io.fdb = [] ∧
        t.io.streak = 0 ∧ MemKeeps s.dev t) ∧
    (∀ p : Fin 2, s.dev.waited (.hold p) (4 * s.dev.checkTime) = true → Does (.ringPortUnblockTimeout p) s fun t => (t.eport p).hold = false ∧
      (∀ q, (t.eport p).queue q = (s.dev.eport p).queue q) ∧ Keeps s.dev t []) ∧
    (∀ (ini : Ini) (v : Word), Open s ini FSW_RING →
      (v.toNat % 4 = 3 → s.dev.rd (WL_STATUS_STATE 0) = 4 →
        Does (.ringModeWrite ini v) s fun t => t.rd FSW_RING_MODE = 3 ∧ t.rd FSW_RING_ACTIVE = 0 ∧ t.rd FSW_RING_ACTIVE_VALID = 1 ∧
          t.io.fdb = [] ∧ t.rd FSW_RING_RING_ID = v.toNat / 65536) ∧
      (v.toNat % 4 = 3 → s.dev.rd (WL_STATUS_STATE 0) ≠ 4 → s.dev.rd (WL_STATUS_STATE 1) = 4 →
        Does (.ringModeWrite ini v) s fun t => t.rd FSW_RING_MODE = 3 ∧ t.rd FSW_RING_ACTIVE = 1 ∧ t.rd FSW_RING_ACTIVE_VALID = 1 ∧
          t.io.fdb = []) ∧
      (v.toNat % 4 = 3 → s.dev.rd (WL_STATUS_STATE 0) ≠ 4 → s.dev.rd (WL_STATUS_STATE 1) ≠ 4 →
        Does (.ringModeWrite ini v) s fun t => t.rd FSW_RING_MODE = 3 ∧ t.rd FSW_RING_ACTIVE_VALID = 0 ∧ Keeps s.dev t [FSW_RING]) ∧
      (v.toNat % 4 ≠ 3 →
        Does (.ringModeWrite ini v) s fun t => t.rd FSW_RING_MODE = v.toNat % 4 ∧ t.rd FSW_RING_ACTIVE_VALID = 0 ∧
          t.rd FSW_RING_RING_ID = v.toNat / 65536 ∧ t.rd FSW_RING_CHECK_MS = v.toNat / 256 % 256 ∧
          (v.toNat % 4 ≠ s.dev.rd FSW_RING_MODE → t.rd FSW_RING_BLOCKED = 0) ∧ Keeps s.dev t [FSW_RING])) ∧
    (s.dev.rd FSW_ITX_SIZE_ENTRIES = 0 → Does .internalTx s fun t => t = s.dev) ∧
    (let n := s.dev.rd FSW_ITX_SIZE_ENTRIES
     let i := s.dev.rd FSW_ITX_RD_RD
     let a := 32 * s.dev.rd FSW_ITX_BASE_ADDR + 32 * i
     let r := s.dev.rdMem 0x10 a 32
     let d := r.2.2
     n ≠ 0 → s.dev.rd FSW_CFG_ENABLE = 1 → s.dev.itxWaits = false → i % n ≠ s.dev.rd FSW_ITX_WR_WR % n → r.2.1 = .ok →
      (itxBad d = true → Does .internalTx s fun t => t = r.1.itxDone a .badDesc none ∧ t.rd FSW_EVENTS_ITX_DONE = 1) ∧
      (itxBad d = false → fieldAt d 2 2 < 60 →
        Does .internalTx s fun t => t = r.1.itxDone a .tooLong none ∧ t.rd FSW_EVENTS_ITX_DONE = 1) ∧
      (∀ p : Fin 2,
        let m := r.1.rdMem 0x10 (fieldAt d 8 4) (fieldAt d 2 2)
        itxBad d = false → fieldAt d 0 1 = 2 ^ p.val → fieldAt d 1 1 % 4 = 0 → 60 ≤ fieldAt d 2 2 →
        fieldAt d 2 2 + 4 ≤ r.1.maxLen p → r.1.linkIsUp p = true → m.2.1 = .ok →
        m.1.egressRoom p (fieldAt d 1 1 / 16 % 4) m.2.2.length = true →
        Does .internalTx s fun t =>
          t = (m.1.egressPut p (fieldAt d 1 1 / 16 % 4) { octets := m.2.2, tx := none, stamp := false, stomp := false }).itxDone a .ok none ∧
          t.rd FSW_EVENTS_ITX_DONE = 1)) ∧
    (s.dev.eventDue = true →
      Does .milxonEvent s fun t => t.io.risen = 0 ∧ t.io.events = (s.dev.io.events + 1) % 65536 ∧
        t.io.gap = (s.dev.rd GPIO_HOST_CFG_MIN_GAP_US != 0) ∧ MemKeeps s.dev t) ∧
    (s.dev.eventDue = false → Does .milxonEvent s fun t => t = s.dev) ∧
    (s.dev.waited .event (us (s.dev.rd GPIO_HOST_CFG_MIN_GAP_US)) = true →
      (s.dev.io.risen = 0 → Does .milxonEventGapEnd s fun t => t.io = { s.dev.io with gap := false } ∧ Keeps s.dev t []) ∧
      (s.dev.io.risen ≠ 0 → s.dev.rd FSW_CFG_ENABLE = 1 → s.dev.rd GPIO_HOST_CFG_NOTIFY_EN = 1 →
        Does .milxonEventGapEnd s fun t => t.io.risen = 0 ∧ t.io.events = (s.dev.io.events + 1) % 65536 ∧
          t.io.gap = (s.dev.rd GPIO_HOST_CFG_MIN_GAP_US != 0) ∧ MemKeeps s.dev t)))


/-! ### The host -/

/-- Rules R449 to R453 and R455 to R458: a request on a wired link leaves the queue, runs word by word, and is answered with as many words
as it asks for; a repeated WRITE is answered as before and not run again; a transaction on a CSP slave runs the same way and is recorded when
its select is released; in loader state an erase waits for presence and a program is refused by its first failing check. -/
def Obligations.HostProtocol : Prop :=
  (∀ (s : State) r rest,
    let u := s.dev.onIo fun p => { p with mx := rest }
    s.dev.io.mx = r :: rest →
    (∀ count st, r.op = 1 → s.dev.mxStalled 0x10 r.addr = false → r.refusal = some st →
      Does (.milxonRead .wired count) s fun t => t = u.mxSend r (mxReply 1 r.tag st 0 0 r.addr)) ∧
    (∀ count, r.op = 1 → s.dev.mxStalled 0x10 r.addr = true → Does (.milxonRead .wired count) s fun t => t = s.dev) ∧
    ((s.dev.io.kept.find? fun k => k.src == r.src && k.tag == r.tag) = none → r.refusal = none →
    (∀ count,
      let g := u.mxRun s.fuses 0x10 r.addr r.noInc (List.replicate r.count none)
      r.op = 1 → s.dev.mxStalled 0x10 r.addr = false →
      g.data.length = 4 * r.count ∧ g.done ≤ r.count ∧
      ∃ t, exec (.milxonRead .wired count) s = .next t ∧ t.pending = s.pending ∧ t.fuses = g.fuses ∧
        t.dev = g.dev.mxSend r (mxReply 1 r.tag g.st (if g.ovr then 1 else 0) g.done (mxAddr r.addr g.done r.noInc) ++ g.data)) ∧
    (∀ data,
      let g := u.mxRun s.fuses 0x10 r.addr r.noInc r.words
      let o := mxReply 2 r.tag g.st (if g.ovr then 2 else 0) g.done (mxAddr r.addr g.done r.noInc)
      r.op = 2 →
      g.data = [] ∧ g.done ≤ r.count ∧
      ∃ t, exec (.milxonWrite .wired data) s = .next t ∧ t.pending = s.pending ∧ t.fuses = g.fuses ∧
        t.dev = (g.dev.mxSend r o).mxKeep r o ∧ t.dev.io.kept.head? = some { src := r.src, tag := r.tag, octets := o }) ∧
    (∀ count, r.op = 3 →
      Does (.milxonPing .wired count) s fun t =>
        (∃ next, t = u.drew.mxSend r (mxReply 3 r.tag .ok 0 4 next ++ s.dev.pingWords)) ∧ MemKeeps s.dev t ∧
        t.freeCtr = s.dev.freeCtr + 1))) ∧
  (∀ (s : State) r rest k data, s.dev.io.mx = r :: rest → r.op = 2 →
    (s.dev.io.kept.find? fun k => k.src == r.src && k.tag == r.tag) = some k →
    Does (.milxonWrite .wired data) s fun t => t.io.kept = s.dev.io.kept ∧ t.io.mx = rest ∧ MemKeeps s.dev t ∧
      t.rd FSW_CNT_MX_REPLAY_COUNT = min (s.dev.rd FSW_CNT_MX_REPLAY_COUNT + 1) 0xFFFFFFFF) ∧
  (∀ s : State, s.dev.io.mx = [] →
    (∀ count, Does (.milxonRead .wired count) s fun t => t = s.dev) ∧
    (∀ data, Does (.milxonWrite .wired data) s fun t => t = s.dev) ∧
    (∀ count, Does (.milxonPing .wired count) s fun t => t = s.dev)) ∧
  (∀ (s : State) (n : Fin 2) (flags : Byte) (tag : BitVec 16) (addr : Word), s.dev.slvServes n = true → s.dev.slvTx n = none →
    s.dev.imgBusy = false →
    (∀ count : BitVec 16, s.dev.mxStalled 0x11 addr.toNat = true → Does (.milxonRead (.csp n flags tag addr) count) s fun t => t = s.dev) ∧
    (∀ count : BitVec 16,
      let g := s.dev.mxRun s.fuses 0x11 addr.toNat (flags.getLsbD 0) (List.replicate count.toNat none)
      s.dev.mxStalled 0x11 addr.toNat = false →
      Does (.milxonRead (.csp n flags tag addr) count) s fun t => t.resp.data = g.data ∧ t.resp.status = g.st ∧
        g.data.length = 4 * count.toNat ∧ t.rd (CSP_STATUS_SEL_ACTIVE n) = 1 ∧
        ∃ x, t.slvTx n = some x ∧ x.op = 1 ∧ x.status = g.st ∧ x.words = g.done ∧ x.next = mxAddr addr.toNat g.done (flags.getLsbD 0)) ∧
    (∀ data : List Word,
      let g := s.dev.mxRun s.fuses 0x11 addr.toNat (flags.getLsbD 0) (data.map some)
      Does (.milxonWrite (.csp n flags tag addr) data) s fun t => t.resp.status = g.st ∧ t.rd (CSP_STATUS_SEL_ACTIVE n) = 1 ∧
        (∃ x, t.slvTx n = some x ∧ x.op = 2 ∧ x.status = g.st ∧ x.words = g.done) ∧
        (addr.toNat % 4 ≠ 0 → g.st = .misaligned ∧ g.done = 0 ∧ MemKeeps s.dev t)) ∧
    (∀ count : Fin 5,
      Does (.milxonPing (.csp n flags tag addr) count) s fun t => t.resp.data = s.dev.pingWords.take (4 * count.val) ∧
        (∃ x, t.slvTx n = some x ∧ x.op = 3 ∧ x.words = count) ∧ Keeps s.dev t [CSP_STATUS n])) ∧
  (∀ (s : State) (n : Fin 2) (op : Option Byte),
    (∀ x, s.dev.slvTx n = some x → x.silent = false → x.words < 65536 → x.next < 2 ^ 32 → bitOf x.flags 0 = false →
      (Does (.cspSelRelease n op false) s fun t => t.slvTx n = none ∧ t.rd (CSP_STATUS_SEL_ACTIVE n) = 0 ∧
        t.rd (CSP_SLV_LAST_STATUS n) = x.status.code ∧ t.rd (CSP_SLV_LAST_WORDS n) = x.words ∧ t.rd (CSP_SLV_NEXT_ADDR n) = x.next ∧
        t.rd (CSP_EVENTS_SLV_DONE n) = 1 ∧ Keeps s.dev t [CSP_STATUS n, CSP_SLV_LAST n, CSP_SLV_NEXT n, CSP_EVENTS n]) ∧
      (x.op = 2 → x.status = .ok →
        Does (.cspSelRelease n op true) s fun t => t.slvTx n = none ∧ t.rd (CSP_SLV_LAST_STATUS n) = Status.torn.code ∧
          t.rd (CSP_EVENTS_TORN n) = 1 ∧ t.rd (CSP_CNT_TORN_COUNT n) = min (s.dev.rd (CSP_CNT_TORN_COUNT n) + 1) 0xFFFFFFFF ∧
          Keeps s.dev t [CSP_STATUS n, CSP_SLV_LAST n, CSP_SLV_NEXT n, CSP_EVENTS n, CSP_CNT_TORN n])) ∧
    (∀ o : Byte, s.dev.slvTx n = none → s.dev.slvServes n = true → s.dev.imgBusy = false →
      (o.toNat = 0 ∨ 4 ≤ o.toNat) → s.dev.rd STR_STATUS_LOADER_STATE = 0 →
      Does (.cspSelRelease n (some o) false) s fun t => t.rd (CSP_EVENTS_BAD_OP n) = 1 ∧
        t.rd (CSP_SLV_LAST_STATUS n) = Status.badOp.code ∧ Keeps s.dev t [CSP_SLV_LAST n, CSP_SLV_NEXT n, CSP_EVENTS n])) ∧
  (∀ (s : State) (addr : Word), s.dev.rd STR_STATUS_LOADER_STATE = 1 → s.dev.slvServes 0 = true → s.dev.slvTx 0 = none →
    s.dev.imgBusy = false →
    (∀ b, addr.toNat = slotBase b → s.dev.imgEraseBusy b = true →
      Does (.imgErase addr) s fun t => (∃ x, t.slvTx 0 = some x ∧ x.op = 0x20 ∧ x.status = .busy) ∧ t.boot = s.dev.boot ∧
        Keeps s.dev t [CSP_STATUS 0]) ∧
    (∀ b, addr.toNat = slotBase b → s.dev.imgEraseBusy b = false →
      (s.dev.granted = true →
        Does (.imgErase addr) s fun t => b ∈ t.boot.imgGrant ∧ t.boot.imgErase = none ∧
          t.rd (CSP_SLV_LAST_STATUS 0) = Status.ok.code ∧ t.rd (CSP_EVENTS_SLV_DONE 0) = 1 ∧
          RegsKeep s.dev t [CSP_STATUS 0, CSP_SLV_LAST 0, CSP_EVENTS 0]) ∧
      (s.dev.granted = false → s.dev.boot.op = none → s.dev.rd PRS_STATUS_WAITING = 0 →
        Does (.imgErase addr) s fun t => t.boot.imgErase = some b ∧ t.rd PRS_STATUS_WAITING = 1 ∧ t.rd PRS_GRANT_WINDOW_S = 30 ∧
          Keeps s.dev t [CSP_STATUS 0, PRS_STATUS, PRS_GRANT])) ∧
    (addr.toNat ≠ 0x10000000 → addr.toNat ≠ 0x10400000 →
      Does (.imgErase addr) s fun t => (∃ x, t.slvTx 0 = some x ∧ x.op = 0x20 ∧ x.status = Config.imgStatus) ∧ t.boot = s.dev.boot ∧
        Keeps s.dev t [CSP_STATUS 0]) ∧
    (∀ data : List Word, data.length ≠ 128 →
      Does (.imgProgram addr data) s fun t =>
        (∃ x, t.slvTx 0 = some x ∧ x.op = 0x21 ∧ x.status = (if data.length < 128 then .torn else .badOp) ∧ x.words = 0) ∧
        t.boot = s.dev.boot ∧ t.flash = s.dev.flash ∧ Keeps s.dev t [CSP_STATUS 0]) ∧
    (∀ data : List Word, data.length = 128 →
      (s.dev.imgCheck addr.toNat ≠ .ok →
        Does (.imgProgram addr data) s fun t =>
          (∃ x, t.slvTx 0 = some x ∧ x.op = 0x21 ∧ x.status = s.dev.imgCheck addr.toNat ∧ x.words = 0) ∧ t.boot = s.dev.boot ∧
          t.flash = s.dev.flash ∧ Keeps s.dev t [CSP_STATUS 0]) ∧
      (∀ a : Fin 2, s.dev.imgCheck addr.toNat = .ok → a.val = (addr.toNat - 0x10000000) / 0x400000 →
        Does (.imgProgram addr data) s fun t => t.boot.imgProg = some addr.toNat ∧ t.rd (FLC_CMD_PENDING a) = 1 ∧
          (∃ j, (t.arr a).job = some j ∧ j.op = 1 ∧ j.data = data.flatMap (fun w => leBytes 4 w.toNat) ∧
            j.block = (addr.toNat - 0x10000000) % 0x400000 / 0x10000 ∧ j.page = (addr.toNat - 0x10000000) % 0x10000 / 512) ∧
          Keeps s.dev t [CSP_STATUS 0, FLC_CMD a, FLC_STATE a])))


/-! ### Serial ports -/

/-- Rules R460 and R464: a start takes its parameters and is busy until the transfer ends with its octets counted, its result and its
events. Rules R462, R463 and R466 with Tables 12-16 and 12-18: a UART's FIFOs keep their order and drop what finds no room; a line's edge shows
in GPIO_IN and raises the event its type names; SET, CLR and TOGGLE change the bits of their mask and no other. -/
def Obligations.SerialPorts : Prop :=
  (∀ (s : State) (ini : Ini),
    (∀ (n : Fin 8) (v : Word), Open s ini (CSP_M_CMD n) → v.getLsbD 31 = true →
      (s.dev.rd (CSP_STATUS_M_BUSY n) = 0 → s.dev.rd (CSP_CFG_ENABLE n) = 1 → s.dev.rd (CSP_CFG_ROLE n) = 0 → v.toNat % 65536 ≠ 0 →
        Does (.cspMasterStart ini n v) s fun t => t.rd (CSP_STATUS_M_BUSY n) = 1 ∧ t.rd (CSP_STATUS_SEL_ACTIVE n) = 1 ∧
          t.rd (CSP_M_CMD_LEN n) = v.toNat % 65536 ∧ t.cspAct n = (v.toNat, s.dev.rd (CSP_M_ADDR_ADDR n)) ∧
          Keeps s.dev t [CSP_M_CMD n, CSP_STATUS n]) ∧
      (s.dev.rd (CSP_STATUS_M_BUSY n) = 1 →
        Does (.cspMasterStart ini n v) s fun t => t.io = s.dev.io ∧ Keeps s.dev t [])) ∧
    (∀ (n : Fin 8) (v : Word), Open s ini (CSP_M_CMD n) → v.getLsbD 31 = false →
      Does (.cspMasterStart ini n v) s fun t => t.rd (CSP_M_CMD_LEN n) = v.toNat % 65536 ∧ t.io = s.dev.io ∧
        Keeps s.dev t [CSP_M_CMD n]) ∧
    (∀ (n : Fin 8) data,
      let a := (s.dev.cspAct n).1
      s.dev.rd (CSP_STATUS_M_BUSY n) = 1 →
      (let r := s.dev.cspMove n data (a % 65536)
       Does (.cspMasterDone n data) s fun t => t.rd (CSP_M_STAT_RESULT n) = r.2.code ∧ t.rd (CSP_M_STAT_DONE n) = a % 65536 ∧
          t.rd (CSP_STATUS_M_BUSY n) = 0 ∧ t.rd (CSP_STATUS_SEL_ACTIVE n) = (if bitOf a 29 then 1 else 0) ∧
          t.rd (CSP_EVENTS_M_DONE n) = 1 ∧ Keeps r.1 t [CSP_M_STAT n, CSP_STATUS n, CSP_EVENTS n]) ∧
      (let r := s.dev.cspMove n data (min data.length (a % 65536))
       s.dev.rd (CSP_CFG_RDY_EN n) = 1 →
        s.dev.rd (CSP_CFG_RDY_TIMEOUT_US n) ≠ 0 →
        Does (.cspRdyTimeout n data) s fun t => t.rd (CSP_M_STAT_RESULT n) = Status.rdyTimeout.code ∧
          t.rd (CSP_M_STAT_DONE n) = min data.length (a % 65536) ∧ t.rd (CSP_STATUS_M_BUSY n) = 0 ∧
          t.rd (CSP_EVENTS_RDY_TIMEOUT n) = 1 ∧ Keeps r.1 t [CSP_M_STAT n, CSP_STATUS n, CSP_EVENTS n])) ∧
    (∀ (i : Fin 2) (v : Word), Open s ini (I2C_CMD i) → v.getLsbD 31 = true → s.dev.rd (I2C_CFG_ENABLE i) = 1 →
      s.dev.rd (I2C_STAT_BUSY i) = 0 →
      Does (.i2cStart ini i v) s fun t => t.rd (I2C_STAT_BUSY i) = 1 ∧ t.i2cAct i = v.toNat ∧ Keeps s.dev t [I2C_CMD i, I2C_STAT i]) ∧
    (∀ (i : Fin 2) (v : Word), Open s ini (I2C_CMD i) →
      (v.getLsbD 31 = false ∨ s.dev.rd (I2C_CFG_ENABLE i) = 0 ∨ s.dev.rd (I2C_STAT_BUSY i) = 1) →
      Does (.i2cStart ini i v) s fun t => t.io = s.dev.io ∧ Keeps s.dev t [I2C_CMD i]) ∧
    (∀ (i : Fin 2) (w : Byte) (data : List Byte),
      let a := s.dev.i2cAct i
      let d := data.take (bits a 16 8)
      let l := [I2C_STAT i, I2C_EVENTS i] ++ (List.range 64).map (I2C_BUF i)
      s.dev.rd (I2C_STAT_BUSY i) = 1 →
      (Does (.i2cDone i .ok w data) s fun t => t.rd (I2C_STAT_RESULT i) = Status.ok.code ∧ t.rd (I2C_STAT_WDONE i) = bits a 8 8 ∧
        t.rd (I2C_STAT_RDONE i) = d.length ∧ t.rd (I2C_STAT_BUSY i) = 0 ∧ t.rd (I2C_EVENTS_DONE i) = 1 ∧
        (t.i2cBuf i).take d.length = d ∧ Keeps s.dev t l) ∧
      (Does (.i2cDone i .nack w data) s fun t => t.rd (I2C_STAT_RESULT i) = Status.i2cNack.code ∧
        t.rd (I2C_STAT_WDONE i) = min w.toNat (bits a 8 8) ∧ t.rd (I2C_EVENTS_NACK i) = 1 ∧ t.rd (I2C_STAT_BUSY i) = 0 ∧
        Keeps s.dev t l) ∧
      (Does (.i2cDone i .arbLost w data) s fun t => t.rd (I2C_STAT_RESULT i) = Status.i2cArbLost.code ∧
        t.rd (I2C_EVENTS_ARB_LOST i) = 1 ∧ t.rd (I2C_STAT_BUSY i) = 0 ∧ Keeps s.dev t l) ∧
      (s.dev.waited (.i2c i) (us 25000) = true → Does (.i2cTimeout i w data) s fun t => t.rd (I2C_STAT_RESULT i) = Status.i2cTimeout.code ∧
        t.rd (I2C_EVENTS_TIMEOUT i) = 1 ∧ t.rd (I2C_STAT_BUSY i) = 0 ∧ Keeps s.dev t l))) ∧
  (∀ (s : State) (ini : Ini),
    (∀ (u : Fin 4) (b : Byte) framing parity brk,
      (s.dev.rd (UART_CFG_ENABLE u) = 0 ∨ s.dev.bit MNT_SEAM_HELD 4 = true ∨
        s.dev.rd (UART_RS485_HALF_DUPLEX u) = 1 ∧ s.dev.rd (UART_STATUS_DE u) = 1) →
      Does (.uartRxByte u b framing parity brk) s fun t => t = s.dev) ∧
    (∀ (u : Fin 4) (b : Byte), s.dev.rd (UART_CFG_ENABLE u) = 1 → s.dev.bit MNT_SEAM_HELD 4 = false →
      (s.dev.rd (UART_RS485_HALF_DUPLEX u) = 0 ∨ s.dev.rd (UART_STATUS_DE u) = 0) →
      ((s.dev.uartRx u).length < 64 →
        (Does (.uartRxByte u b false false false) s fun t => t.uartRx u = s.dev.uartRx u ++ [(s.dev.uartChar u b).toNat] ∧
          t.rd (UART_STATUS_RX_LEVEL u) = (s.dev.uartRx u).length + 1 ∧
          (s.dev.rd (UART_THRESH_RX_TH u) ≤ (s.dev.uartRx u).length + 1 → t.rd (UART_EVENTS_RX_THRESH u) = 1) ∧
          Keeps s.dev t [UART_STATUS u, UART_EVENTS u]) ∧
        (Does (.uartRxByte u b true false true) s fun t => t.uartRx u = s.dev.uartRx u ++ [0x100] ∧ t.rd (UART_EVENTS_BREAK u) = 1 ∧
          Keeps s.dev t [UART_STATUS u, UART_EVENTS u])) ∧
      (64 ≤ (s.dev.uartRx u).length →
        Does (.uartRxByte u b false false false) s fun t => t.io = s.dev.io ∧ t.rd (UART_EVENTS_OVERRUN u) = 1 ∧
          t.rd (UART_CNT_DROP_COUNT u) = min (s.dev.rd (UART_CNT_DROP_COUNT u) + 1) 0xFFFFFFFF ∧
          Keeps s.dev t [UART_CNT_DROP u, UART_EVENTS u])) ∧
    (∀ (u : Fin 4) (v : Word), Open s ini (UART_DATA u) →
      ((s.dev.uartTx u).length < 64 →
        Does (.uartDataWrite ini u v) s fun t => t.uartTx u = s.dev.uartTx u ++ [BitVec.ofNat 8 v.toNat] ∧
          t.rd (UART_STATUS_TX_LEVEL u) = (s.dev.uartTx u).length + 1 ∧ t.rd (UART_STATUS_TX_IDLE u) = 0 ∧
          Keeps s.dev t [UART_STATUS u]) ∧
      (64 ≤ (s.dev.uartTx u).length →
        Does (.uartDataWrite ini u v) s fun t => t.io = s.dev.io ∧
          t.rd (UART_CNT_DROP_COUNT u) = min (s.dev.rd (UART_CNT_DROP_COUNT u) + 1) 0xFFFFFFFF ∧ Keeps s.dev t [UART_CNT_DROP u])) ∧
    (∀ u : Fin 4, Open s ini (UART_DATA u) →
      (∀ x r, s.dev.uartRx u = x :: r →
        Does (.uartDataRead ini u) s fun t => t.resp.data = leBytes 4 x ∧ t.uartRx u = r ∧
          (r.length < 128 → t.rd (UART_STATUS_RX_LEVEL u) = r.length) ∧ Keeps s.dev t [UART_STATUS u]) ∧
      (s.dev.uartRx u = [] →
        Does (.uartDataRead ini u) s fun t => t.resp.data = leBytes 4 0x80000000 ∧ t.io = s.dev.io ∧ Keeps s.dev t [])) ∧
    (∀ u : Fin 4, s.dev.uartRx u ≠ [] →
      Does (.uartRxTimeout u) s fun t => t.rd (UART_EVENTS_RX_TIMEOUT u) = 1 ∧ Keeps s.dev t [UART_EVENTS u]) ∧
    (∀ u : Fin 4, s.dev.uartTx u = [] →
      Does (.uartDeRelease u) s fun t => t.rd (UART_STATUS_DE u) = 0 ∧ Keeps s.dev t [UART_STATUS u]) ∧
    (∀ u : Fin 4, s.dev.uartTx u ≠ [] → Does (.uartDeRelease u) s fun t => t = s.dev) ∧
    (∀ (u : Fin 4) b r, s.dev.uartTx u = b :: r → s.dev.rd (UART_CFG_ENABLE u) = 1 →
      Does (.uartTxCharSent u) s fun t => t.uartTx u = r ∧ t.io.sent = [s.dev.uartChar u b] ∧
        t.rd (UART_STATUS_TX_IDLE u) = (if r.isEmpty then 1 else 0) ∧ (r = [] → t.rd (UART_EVENTS_TX_IDLE u) = 1) ∧
        (r.length ≤ s.dev.rd (UART_THRESH_TX_TH u) → t.rd (UART_EVENTS_TX_THRESH u) = 1) ∧
        Keeps s.dev t [UART_STATUS u, UART_EVENTS u]) ∧
    (∀ (l : Fin 32) rising,
      let ty := if l.val < 16 then bits (s.dev.rd GPIO_TYPE0_TYPE) (2 * l) 2 else bits (s.dev.rd GPIO_TYPE1_TYPE) (2 * (l - 16)) 2
      s.dev.gpioSees l = true → s.dev.bit GPIO_IN_IN l = !rising →
      Does (.gpioEdge l rising) s fun t => t.bit GPIO_IN_IN l = rising ∧
        t.bit GPIO_EVENTS_EVENTS l = (s.dev.bit GPIO_EVENTS_EVENTS l || (rising && bitOf ty 0) || (!rising && bitOf ty 1)) ∧
        (∀ j, j ≠ l.val → t.bit GPIO_IN_IN j = s.dev.bit GPIO_IN_IN j ∧ t.bit GPIO_EVENTS_EVENTS j = s.dev.bit GPIO_EVENTS_EVENTS j) ∧
        Keeps s.dev t [GPIO_IN, GPIO_EVENTS]) ∧
    (∀ m : Word,
      (Open s ini GPIO_SET → Does (.gpioSet ini m) s fun t => t.reg GPIO_OUT = s.dev.reg GPIO_OUT ||| m ∧ Keeps s.dev t [GPIO_OUT]) ∧
      (Open s ini GPIO_CLR →
        Does (.gpioClr ini m) s fun t => t.reg GPIO_OUT = s.dev.reg GPIO_OUT &&& ~~~m ∧ Keeps s.dev t [GPIO_OUT]) ∧
      (Open s ini GPIO_TOGGLE →
        Does (.gpioToggle ini m) s fun t => t.reg GPIO_OUT = s.dev.reg GPIO_OUT ^^^ m ∧ Keeps s.dev t [GPIO_OUT])))
end

