-- ==== Sys2Proof/Laws/SMap.lean ====
section
/-!
SUPPORT. The laws of sparse maps: a read after a write, and that a write keeps the canonical form.
-/

namespace Sys2Proof.Machine

variable {α : Type} {d : Nat → α}

theorem mapGet_erase_same (m : List (Nat × α)) (k : Nat) : mapGet d (mapErase m k) k = d k := by
  induction m with
  | nil => rfl
  | cons p r ih =>
    obtain ⟨j, v⟩ := p
    simp only [mapErase]
    split
    · exact ih
    · simp [mapGet, *]

theorem mapGet_erase_ne (m : List (Nat × α)) {k j : Nat} (h : j ≠ k) : mapGet d (mapErase m k) j = mapGet d m j := by
  induction m with
  | nil => rfl
  | cons p r ih =>
    obtain ⟨i, v⟩ := p
    simp only [mapErase]
    split
    · rename_i e
      simp [mapGet, ih, show i ≠ j from fun x => h (x ▸ e)]
    · simp [mapGet, ih]

theorem mapGet_insert_same (m : List (Nat × α)) (k : Nat) (v : α) : mapGet d (mapInsert m k v) k = v := by
  induction m with
  | nil => simp [mapInsert, mapGet]
  | cons p r ih =>
    obtain ⟨j, w⟩ := p
    simp only [mapInsert]
    split
    · simp [mapGet]
    · split
      · simp [mapGet]
      · simp [mapGet, *]

theorem mapGet_insert_ne (m : List (Nat × α)) {k j : Nat} (v : α) (h : j ≠ k) :
    mapGet d (mapInsert m k v) j = mapGet d m j := by
  induction m with
  | nil => simp [mapInsert, mapGet, Ne.symm h]
  | cons p r ih =>
    obtain ⟨i, w⟩ := p
    simp only [mapInsert]
    split
    · simp [mapGet, Ne.symm h]
    · split
      · rename_i e
        simp [mapGet, Ne.symm h, show i ≠ j from fun x => h (x ▸ e)]
      · simp [mapGet, ih]

variable [DecidableEq α]

@[simp] theorem mapGet_put_same (m : List (Nat × α)) (k : Nat) (v : α) : mapGet d (mapPut d m k v) k = v := by
  unfold mapPut
  split
  · rename_i h; rw [mapGet_erase_same, h]
  · exact mapGet_insert_same m k v

theorem mapGet_put_ne (m : List (Nat × α)) {k j : Nat} (v : α) (h : j ≠ k) :
    mapGet d (mapPut d m k v) j = mapGet d m j := by
  unfold mapPut
  split
  · exact mapGet_erase_ne m h
  · exact mapGet_insert_ne m v h

/-- The canonical form, unfolded once: the head is above every bound the list had, and no default is listed. -/
theorem mapWf_cons {k : Nat} {v : α} {r : List (Nat × α)} :
    mapWf d ((k, v) :: r) = true ↔ v ≠ d k ∧ (∀ p ∈ r.head?, k < p.1) ∧ mapWf d r = true := by
  cases r with
  | nil => simp [mapWf]
  | cons q r => obtain ⟨j, w⟩ := q; simp [mapWf, and_assoc]

/-- In a canonical map every key after the head is above it. -/
theorem mapWf_lt {k : Nat} {v : α} {r : List (Nat × α)} (h : mapWf d ((k, v) :: r) = true) :
    ∀ p ∈ r, k < p.1 := by
  induction r generalizing k v with
  | nil => simp
  | cons q r ih =>
    obtain ⟨j, w⟩ := q
    rw [mapWf_cons] at h
    obtain ⟨_, h1, h2⟩ := h
    have hj : k < j := by simpa using h1
    intro p hp
    rcases List.mem_cons.1 hp with rfl | hp
    · exact hj
    · exact Nat.lt_trans hj (ih h2 p hp)

theorem mapErase_head {r : List (Nat × α)} {k b : Nat} (h : ∀ p ∈ r, b < p.1) : ∀ p ∈ mapErase r k, b < p.1 := by
  induction r with
  | nil => simp [mapErase]
  | cons q r ih =>
    obtain ⟨j, w⟩ := q
    simp only [List.mem_cons, forall_eq_or_imp] at h
    simp only [mapErase]
    split
    · exact ih h.2
    · simp only [List.mem_cons, forall_eq_or_imp]; exact ⟨h.1, ih h.2⟩

theorem head_of_all {r : List (Nat × α)} {b : Nat} (h : ∀ p ∈ r, b < p.1) : ∀ p ∈ r.head?, b < p.1 := by
  cases r with
  | nil => simp
  | cons q r => simpa using h q (by simp)

theorem mapWf_erase {m : List (Nat × α)} (k : Nat) (h : mapWf d m = true) : mapWf d (mapErase m k) = true := by
  induction m with
  | nil => rfl
  | cons q r ih =>
    obtain ⟨j, w⟩ := q
    have h' := mapWf_cons.1 h
    simp only [mapErase]
    split
    · exact ih h'.2.2
    · exact mapWf_cons.2 ⟨h'.1, head_of_all (mapErase_head (mapWf_lt h)), ih h'.2.2⟩

theorem mapWf_insert {m : List (Nat × α)} {k : Nat} {v : α} (h : mapWf d m = true) (hv : v ≠ d k) :
    mapWf d (mapInsert m k v) = true := by
  induction m with
  | nil => simpa [mapInsert, mapWf] using hv
  | cons q r ih =>
    obtain ⟨j, w⟩ := q
    have h' := mapWf_cons.1 h
    simp only [mapInsert]
    split
    · rename_i hkj
      exact mapWf_cons.2 ⟨hv, by simpa using hkj, h⟩
    · split
      · rename_i _ e
        subst e
        exact mapWf_cons.2 ⟨hv, h'.2.1, h'.2.2⟩
      · rename_i h1 h2
        have hjk : j < k := by omega
        refine mapWf_cons.2 ⟨h'.1, ?_, ih h'.2.2⟩
        cases r with
        | nil => simpa [mapInsert] using hjk
        | cons q2 r2 =>
          obtain ⟨i, u⟩ := q2
          have hji : j < i := by simpa using h'.2.1
          simp only [mapInsert]
          split
          · simpa using hjk
          · split
            · simpa using hjk
            · simpa using hji

/-- A write keeps the canonical form. -/
theorem mapWf_put {m : List (Nat × α)} (k : Nat) (v : α) (h : mapWf d m = true) : mapWf d (mapPut d m k v) = true := by
  unfold mapPut
  split
  · exact mapWf_erase k h
  · rename_i hv; exact mapWf_insert h hv

end Sys2Proof.Machine
end

