-- ==== Sys2Proof/Laws/State.lean ====
section
/-!
SUPPORT. What each update of the device leaves as it was, field by field, and what a read after a write of a record gives.
All but the last group hold by unfolding one update.
-/

namespace Sys2Proof.Machine

variable (s : Dev)

/-! ### A register write changes the register file alone -/

@[simp] theorem Dev.setReg_mem (a : Nat) (v : Word) : (s.setReg a v).mem = s.mem := rfl
@[simp] theorem Dev.setReg_chk (a : Nat) (v : Word) : (s.setReg a v).chk = s.chk := rfl
@[simp] theorem Dev.setReg_resp (a : Nat) (v : Word) : (s.setReg a v).resp = s.resp := rfl
@[simp] theorem Dev.setReg_freeCtr (a : Nat) (v : Word) : (s.setReg a v).freeCtr = s.freeCtr := rfl
@[simp] theorem Dev.setReg_fab (a : Nat) (v : Word) : (s.setReg a v).fab = s.fab := rfl
@[simp] theorem Dev.setReg_tb (a : Nat) (v : Word) : (s.setReg a v).tb = s.tb := rfl
@[simp] theorem Dev.setReg_img (a : Nat) (v : Word) : (s.setReg a v).img = s.img := rfl
@[simp] theorem Dev.setReg_boot (a : Nat) (v : Word) : (s.setReg a v).boot = s.boot := rfl
@[simp] theorem Dev.setReg_waits (a : Nat) (v : Word) : (s.setReg a v).waits = s.waits := rfl
@[simp] theorem Dev.setReg_rings (a : Nat) (v : Word) : (s.setReg a v).rings = s.rings := rfl
@[simp] theorem Dev.setReg_bands (a : Nat) (v : Word) : (s.setReg a v).bands = s.bands := rfl
@[simp] theorem Dev.setReg_paths (a : Nat) (v : Word) : (s.setReg a v).paths = s.paths := rfl
@[simp] theorem Dev.setReg_sleeves (a : Nat) (v : Word) : (s.setReg a v).sleeves = s.sleeves := rfl
@[simp] theorem Dev.setReg_bank (a : Nat) (v : Word) : (s.setReg a v).bank = s.bank := rfl
@[simp] theorem Dev.setReg_flash (a : Nat) (v : Word) : (s.setReg a v).flash = s.flash := rfl
@[simp] theorem Dev.setReg_weave (a : Nat) (v : Word) : (s.setReg a v).weave = s.weave := rfl
@[simp] theorem Dev.setReg_pairs (a : Nat) (v : Word) : (s.setReg a v).pairs = s.pairs := rfl
@[simp] theorem Dev.setReg_wdts (a : Nat) (v : Word) : (s.setReg a v).wdts = s.wdts := rfl
@[simp] theorem Dev.setReg_dbg (a : Nat) (v : Word) : (s.setReg a v).dbg = s.dbg := rfl
@[simp] theorem Dev.setReg_timers (a : Nat) (v : Word) : (s.setReg a v).timers = s.timers := rfl
@[simp] theorem Dev.setReg_chans (a : Nat) (v : Word) : (s.setReg a v).chans = s.chans := rfl
@[simp] theorem Dev.setReg_lineTog (a : Nat) (v : Word) : (s.setReg a v).lineTog = s.lineTog := rfl
@[simp] theorem Dev.setReg_mboxFrom (a : Nat) (v : Word) : (s.setReg a v).mboxFrom = s.mboxFrom := rfl
@[simp] theorem Dev.setReg_mnt (a : Nat) (v : Word) : (s.setReg a v).mnt = s.mnt := rfl
@[simp] theorem Dev.setReg_flt (a : Nat) (v : Word) : (s.setReg a v).flt = s.flt := rfl
@[simp] theorem Dev.setReg_pool (a : Nat) (v : Word) : (s.setReg a v).pool = s.pool := rfl
@[simp] theorem Dev.setReg_se (a : Nat) (v : Word) : (s.setReg a v).se = s.se := rfl
@[simp] theorem Dev.setReg_ml (a : Nat) (v : Word) : (s.setReg a v).ml = s.ml := rfl
@[simp] theorem Dev.setReg_sec (a : Nat) (v : Word) : (s.setReg a v).sec = s.sec := rfl
@[simp] theorem Dev.setReg_io (a : Nat) (v : Word) : (s.setReg a v).io = s.io := rfl

/-! ### The field operations are writes of a field -/

@[simp] theorem Dev.set_eq (f : Fld) : s.set f = s.wr f 1 := rfl
@[simp] theorem Dev.clr_eq (f : Fld) : s.clr f = s.wr f 0 := rfl
@[simp] theorem Dev.put_eq (f : Fld) (b : Bool) : s.put f b = s.wr f (if b then 1 else 0) := rfl
@[simp] theorem Dev.st_eq (f : Fld) (c : Status) : s.st f c = s.wr f c.code := rfl
@[simp] theorem Dev.add_eq (f : Fld) (n : Nat) : s.add f n = s.wr f (min (s.rd f + n) (2 ^ f.w - 1)) := rfl
@[simp] theorem Dev.bump_eq (f : Fld) : s.bump f = s.wr f (min (s.rd f + 1) (2 ^ f.w - 1)) := rfl
@[simp] theorem Dev.on_eq (f : Fld) : s.on f = (s.rd f != 0) := rfl

@[simp] theorem Dev.wr_mem (f : Fld) (v : Nat) : (s.wr f v).mem = s.mem := rfl
@[simp] theorem Dev.wr_chk (f : Fld) (v : Nat) : (s.wr f v).chk = s.chk := rfl
@[simp] theorem Dev.wr_resp (f : Fld) (v : Nat) : (s.wr f v).resp = s.resp := rfl
@[simp] theorem Dev.wr_freeCtr (f : Fld) (v : Nat) : (s.wr f v).freeCtr = s.freeCtr := rfl
@[simp] theorem Dev.wr_fab (f : Fld) (v : Nat) : (s.wr f v).fab = s.fab := rfl
@[simp] theorem Dev.wr_tb (f : Fld) (v : Nat) : (s.wr f v).tb = s.tb := rfl
@[simp] theorem Dev.wr_img (f : Fld) (v : Nat) : (s.wr f v).img = s.img := rfl
@[simp] theorem Dev.wr_boot (f : Fld) (v : Nat) : (s.wr f v).boot = s.boot := rfl
@[simp] theorem Dev.wr_waits (f : Fld) (v : Nat) : (s.wr f v).waits = s.waits := rfl
@[simp] theorem Dev.wr_rings (f : Fld) (v : Nat) : (s.wr f v).rings = s.rings := rfl
@[simp] theorem Dev.wr_bands (f : Fld) (v : Nat) : (s.wr f v).bands = s.bands := rfl
@[simp] theorem Dev.wr_paths (f : Fld) (v : Nat) : (s.wr f v).paths = s.paths := rfl
@[simp] theorem Dev.wr_sleeves (f : Fld) (v : Nat) : (s.wr f v).sleeves = s.sleeves := rfl
@[simp] theorem Dev.wr_bank (f : Fld) (v : Nat) : (s.wr f v).bank = s.bank := rfl
@[simp] theorem Dev.wr_flash (f : Fld) (v : Nat) : (s.wr f v).flash = s.flash := rfl
@[simp] theorem Dev.wr_weave (f : Fld) (v : Nat) : (s.wr f v).weave = s.weave := rfl
@[simp] theorem Dev.wr_pairs (f : Fld) (v : Nat) : (s.wr f v).pairs = s.pairs := rfl
@[simp] theorem Dev.wr_wdts (f : Fld) (v : Nat) : (s.wr f v).wdts = s.wdts := rfl
@[simp] theorem Dev.wr_dbg (f : Fld) (v : Nat) : (s.wr f v).dbg = s.dbg := rfl
@[simp] theorem Dev.wr_timers (f : Fld) (v : Nat) : (s.wr f v).timers = s.timers := rfl
@[simp] theorem Dev.wr_chans (f : Fld) (v : Nat) : (s.wr f v).chans = s.chans := rfl
@[simp] theorem Dev.wr_lineTog (f : Fld) (v : Nat) : (s.wr f v).lineTog = s.lineTog := rfl
@[simp] theorem Dev.wr_mboxFrom (f : Fld) (v : Nat) : (s.wr f v).mboxFrom = s.mboxFrom := rfl
@[simp] theorem Dev.wr_mnt (f : Fld) (v : Nat) : (s.wr f v).mnt = s.mnt := rfl
@[simp] theorem Dev.wr_flt (f : Fld) (v : Nat) : (s.wr f v).flt = s.flt := rfl
@[simp] theorem Dev.wr_pool (f : Fld) (v : Nat) : (s.wr f v).pool = s.pool := rfl
@[simp] theorem Dev.wr_se (f : Fld) (v : Nat) : (s.wr f v).se = s.se := rfl
@[simp] theorem Dev.wr_ml (f : Fld) (v : Nat) : (s.wr f v).ml = s.ml := rfl
@[simp] theorem Dev.wr_sec (f : Fld) (v : Nat) : (s.wr f v).sec = s.sec := rfl
@[simp] theorem Dev.wr_io (f : Fld) (v : Nat) : (s.wr f v).io = s.io := rfl

/-! ### The other updates leave the registers as they were -/

@[simp] theorem Dev.setBand_reg (b : Nat) (v : Band) (r : Nat) : (s.setBand b v).reg r = s.reg r := rfl
@[simp] theorem Dev.setBand_rd (b : Nat) (v : Band) (f : Fld) : (s.setBand b v).rd f = s.rd f := rfl
@[simp] theorem Dev.setRing_reg (b c : Nat) (v : Ring) (r : Nat) : (s.setRing b c v).reg r = s.reg r := rfl
@[simp] theorem Dev.setRing_rd (b c : Nat) (v : Ring) (f : Fld) : (s.setRing b c v).rd f = s.rd f := rfl
@[simp] theorem Dev.markAt_reg (w : Wait) (t : Nat) (r : Nat) : (s.markAt w t).reg r = s.reg r := rfl
@[simp] theorem Dev.markAt_rd (w : Wait) (t : Nat) (f : Fld) : (s.markAt w t).rd f = s.rd f := rfl
@[simp] theorem Dev.unmark_reg (w : Wait) (r : Nat) : (s.unmark w).reg r = s.reg r := rfl
@[simp] theorem Dev.unmark_rd (w : Wait) (f : Fld) : (s.unmark w).rd f = s.rd f := rfl
@[simp] theorem Dev.mark_reg (w : Wait) (r : Nat) : (s.mark w).reg r = s.reg r := rfl
@[simp] theorem Dev.mark_rd (w : Wait) (f : Fld) : (s.mark w).rd f = s.rd f := rfl
@[simp] theorem Dev.setPath_reg (p : Nat) (v : Path) (r : Nat) : (s.setPath p v).reg r = s.reg r := rfl
@[simp] theorem Dev.setPath_rd (p : Nat) (v : Path) (f : Fld) : (s.setPath p v).rd f = s.rd f := rfl
@[simp] theorem Dev.setSleeve_reg (n : Nat) (v : Sleeve) (r : Nat) : (s.setSleeve n v).reg r = s.reg r := rfl
@[simp] theorem Dev.setSleeve_rd (n : Nat) (v : Sleeve) (f : Fld) : (s.setSleeve n v).rd f = s.rd f := rfl
@[simp] theorem Dev.setArr_reg (a : Nat) (v : FlashArr) (r : Nat) : (s.setArr a v).reg r = s.reg r := rfl
@[simp] theorem Dev.setArr_rd (a : Nat) (v : FlashArr) (f : Fld) : (s.setArr a v).rd f = s.rd f := rfl
@[simp] theorem Dev.setPair_reg (x : Nat) (v : Pair) (r : Nat) : (s.setPair x v).reg r = s.reg r := rfl
@[simp] theorem Dev.setPair_rd (x : Nat) (v : Pair) (f : Fld) : (s.setPair x v).rd f = s.rd f := rfl
@[simp] theorem Dev.setWdt_reg (x : Nat) (v : Wdt) (r : Nat) : (s.setWdt x v).reg r = s.reg r := rfl
@[simp] theorem Dev.setWdt_rd (x : Nat) (v : Wdt) (f : Fld) : (s.setWdt x v).rd f = s.rd f := rfl
@[simp] theorem Dev.setTimer_reg (k : Nat) (v : Timer) (r : Nat) : (s.setTimer k v).reg r = s.reg r := rfl
@[simp] theorem Dev.setTimer_rd (k : Nat) (v : Timer) (f : Fld) : (s.setTimer k v).rd f = s.rd f := rfl
@[simp] theorem Dev.setChan_reg (i : Nat) (v : Chan) (r : Nat) : (s.setChan i v).reg r = s.reg r := rfl
@[simp] theorem Dev.setChan_rd (i : Nat) (v : Chan) (f : Fld) : (s.setChan i v).rd f = s.rd f := rfl
@[simp] theorem Dev.setUnit_reg (c : Nat) (v : FUnit) (r : Nat) : (s.setUnit c v).reg r = s.reg r := rfl
@[simp] theorem Dev.setUnit_rd (c : Nat) (v : FUnit) (f : Fld) : (s.setUnit c v).rd f = s.rd f := rfl
@[simp] theorem Dev.setEng_reg (k : Nat) (v : LinkEng) (r : Nat) : (s.setEng k v).reg r = s.reg r := rfl
@[simp] theorem Dev.setEng_rd (k : Nat) (v : LinkEng) (f : Fld) : (s.setEng k v).rd f = s.rd f := rfl
@[simp] theorem Dev.setPocket_reg (n : Nat) (v : Pocket) (r : Nat) : (s.setPocket n v).reg r = s.reg r := rfl
@[simp] theorem Dev.setPocket_rd (n : Nat) (v : Pocket) (f : Fld) : (s.setPocket n v).rd f = s.rd f := rfl
@[simp] theorem Dev.setByte_reg (k : Nat) (v : Byte) (r : Nat) : (s.setByte k v).reg r = s.reg r := rfl
@[simp] theorem Dev.setByte_rd (k : Nat) (v : Byte) (f : Fld) : (s.setByte k v).rd f = s.rd f := rfl
@[simp] theorem Dev.setChk_reg (k : Nat) (v : Byte) (r : Nat) : (s.setChk k v).reg r = s.reg r := rfl
@[simp] theorem Dev.setChk_rd (k : Nat) (v : Byte) (f : Fld) : (s.setChk k v).rd f = s.rd f := rfl
@[simp] theorem Dev.answer_reg (i a : Nat) (c : Status) (d : List Byte) (b : Bool) (r : Nat) : (s.answer i a c d b).reg r = s.reg r := rfl
@[simp] theorem Dev.answer_rd (i a : Nat) (c : Status) (d : List Byte) (b : Bool) (f : Fld) : (s.answer i a c d b).rd f = s.rd f := rfl
@[simp] theorem Dev.drew_reg (r : Nat) : (s.drew).reg r = s.reg r := rfl
@[simp] theorem Dev.drew_rd (f : Fld) : (s.drew).rd f = s.rd f := rfl

/-! ### A record read after it is written -/

@[simp] theorem Dev.band_setBand (b : Nat) (v : Band) : (s.setBand b v).band b = v := mapGet_put_same _ _ _
theorem Dev.band_setBand_ne (b : Nat) (v : Band) {j : Nat} (h : j ≠ b) : (s.setBand b v).band j = s.band j := mapGet_put_ne _ _ h
theorem Dev.ring_setRing (b c : Nat) (v : Ring) : (s.setRing b c v).ring b c = v := mapGet_put_same _ _ _
theorem Dev.ring_setRing_ne (b c : Nat) (v : Ring) {i j : Nat} (h : 2 * i + j ≠ 2 * b + c) : (s.setRing b c v).ring i j = s.ring i j :=
  mapGet_put_ne _ _ h
@[simp] theorem Dev.since_markAt (w : Wait) (t : Nat) : (s.markAt w t).since w = some t := by simp [Dev.since, Dev.markAt]
@[simp] theorem Dev.since_mark (w : Wait) : (s.mark w).since w = some s.now := by simp [Dev.mark]
@[simp] theorem Dev.since_unmark (w : Wait) : (s.unmark w).since w = none := by simp [Dev.since, Dev.unmark]
@[simp] theorem Dev.path_setPath (p : Nat) (v : Path) : (s.setPath p v).path p = v := mapGet_put_same _ _ _
theorem Dev.path_setPath_ne (p : Nat) (v : Path) {j : Nat} (h : j ≠ p) : (s.setPath p v).path j = s.path j := mapGet_put_ne _ _ h
@[simp] theorem Dev.sleeve_setSleeve (n : Nat) (v : Sleeve) : (s.setSleeve n v).sleeve n = v := mapGet_put_same _ _ _
theorem Dev.sleeve_setSleeve_ne (n : Nat) (v : Sleeve) {j : Nat} (h : j ≠ n) : (s.setSleeve n v).sleeve j = s.sleeve j := mapGet_put_ne _ _ h
@[simp] theorem Dev.arr_setArr (a : Nat) (v : FlashArr) : (s.setArr a v).arr a = v := mapGet_put_same _ _ _
theorem Dev.arr_setArr_ne (a : Nat) (v : FlashArr) {j : Nat} (h : j ≠ a) : (s.setArr a v).arr j = s.arr j := mapGet_put_ne _ _ h
@[simp] theorem Dev.pair_setPair (x : Nat) (v : Pair) : (s.setPair x v).pair x = v := mapGet_put_same _ _ _
theorem Dev.pair_setPair_ne (x : Nat) (v : Pair) {j : Nat} (h : j ≠ x) : (s.setPair x v).pair j = s.pair j := mapGet_put_ne _ _ h
@[simp] theorem Dev.wdt_setWdt (x : Nat) (v : Wdt) : (s.setWdt x v).wdt x = v := mapGet_put_same _ _ _
theorem Dev.wdt_setWdt_ne (x : Nat) (v : Wdt) {j : Nat} (h : j ≠ x) : (s.setWdt x v).wdt j = s.wdt j := mapGet_put_ne _ _ h
@[simp] theorem Dev.timer_setTimer (k : Nat) (v : Timer) : (s.setTimer k v).timer k = v := mapGet_put_same _ _ _
theorem Dev.timer_setTimer_ne (k : Nat) (v : Timer) {j : Nat} (h : j ≠ k) : (s.setTimer k v).timer j = s.timer j := mapGet_put_ne _ _ h
@[simp] theorem Dev.chan_setChan (i : Nat) (v : Chan) : (s.setChan i v).chan i = v := mapGet_put_same _ _ _
theorem Dev.chan_setChan_ne (i : Nat) (v : Chan) {j : Nat} (h : j ≠ i) : (s.setChan i v).chan j = s.chan j := mapGet_put_ne _ _ h
@[simp] theorem Dev.unit_setUnit (c : Nat) (v : FUnit) : (s.setUnit c v).unit c = v := mapGet_put_same _ _ _
theorem Dev.unit_setUnit_ne (c : Nat) (v : FUnit) {j : Nat} (h : j ≠ c) : (s.setUnit c v).unit j = s.unit j := mapGet_put_ne _ _ h
@[simp] theorem Dev.eng_setEng (k : Nat) (v : LinkEng) : (s.setEng k v).eng k = v := mapGet_put_same _ _ _
theorem Dev.eng_setEng_ne (k : Nat) (v : LinkEng) {j : Nat} (h : j ≠ k) : (s.setEng k v).eng j = s.eng j := mapGet_put_ne _ _ h
@[simp] theorem Dev.pocket_setPocket (n : Nat) (v : Pocket) : (s.setPocket n v).pocket n = v := mapGet_put_same _ _ _
theorem Dev.pocket_setPocket_ne (n : Nat) (v : Pocket) {j : Nat} (h : j ≠ n) : (s.setPocket n v).pocket j = s.pocket j := mapGet_put_ne _ _ h
@[simp] theorem Dev.byte_setByte (k : Nat) (v : Byte) : (s.setByte k v).byte k = v := mapGet_put_same _ _ _
theorem Dev.byte_setByte_ne (k : Nat) (v : Byte) {j : Nat} (h : j ≠ k) : (s.setByte k v).byte j = s.byte j := mapGet_put_ne _ _ h

/-! ### Registers and fields read after they are written -/

@[simp] theorem Dev.reg_setReg (a : Nat) (v : Word) : (s.setReg a v).reg a = v := mapGet_put_same _ _ _

theorem Dev.reg_setReg_ne {a b : Nat} (v : Word) (h : b ≠ a) : (s.setReg a v).reg b = s.reg b := mapGet_put_ne _ _ h

/-- A field of another register is as it was. -/
theorem Dev.rd_setReg_ne {a : Nat} (v : Word) {g : Fld} (h : g.addr ≠ a) : (s.setReg a v).rd g = s.rd g := by
  simp [Dev.rd, Dev.reg_setReg_ne s v h]

theorem Dev.reg_wr_ne {f : Fld} (v : Nat) {b : Nat} (h : b ≠ f.addr) : (s.wr f v).reg b = s.reg b :=
  Dev.reg_setReg_ne s _ h

theorem Dev.rd_wr_ne {f : Fld} (v : Nat) {g : Fld} (h : g.addr ≠ f.addr) : (s.wr f v).rd g = s.rd g :=
  Dev.rd_setReg_ne s _ h

/-- The bits of a word with one field set. -/
theorem setField_toNat (x : Word) (f : Fld) (v : Nat) (h : f.lo + f.w ≤ 32) :
    (setField x f v).toNat =
      x.toNat % 2 ^ f.lo + 2 ^ f.lo * (v % 2 ^ f.w) + 2 ^ (f.lo + f.w) * (x.toNat / 2 ^ (f.lo + f.w)) := by
  have hx := x.isLt
  have h0 : 0 < 2 ^ f.lo := Nat.two_pow_pos _
  have h1 := Nat.mod_lt x.toNat h0
  have h2 := Nat.mod_lt v (Nat.two_pow_pos f.w)
  have h3 : 2 ^ (f.lo + f.w) = 2 ^ f.lo * 2 ^ f.w := Nat.pow_add ..
  have h4 : 2 ^ f.lo * (v % 2 ^ f.w) + 2 ^ f.lo ≤ 2 ^ f.lo * 2 ^ f.w := by
    rw [← Nat.mul_succ]; exact Nat.mul_le_mul_left _ h2
  have h5 : (2 : Nat) ^ 32 = 2 ^ (f.lo + f.w) * 2 ^ (32 - (f.lo + f.w)) := by
    rw [← Nat.pow_add]; congr 1; omega
  have h6 : x.toNat / 2 ^ (f.lo + f.w) < 2 ^ (32 - (f.lo + f.w)) := by
    apply Nat.div_lt_of_lt_mul; rw [← h5]; exact hx
  have h7 : 2 ^ (f.lo + f.w) * (x.toNat / 2 ^ (f.lo + f.w)) + 2 ^ (f.lo + f.w) ≤ 2 ^ 32 := by
    rw [← Nat.mul_succ, h5]; exact Nat.mul_le_mul_left _ h6
  simp only [setField, BitVec.toNat_ofNat]
  apply Nat.mod_eq_of_lt
  omega

/-- A field reads what was last written to it. -/
theorem Dev.rd_wr (f : Fld) (v : Nat) (h : f.lo + f.w ≤ 32) : (s.wr f v).rd f = v % 2 ^ f.w := by
  have h0 : 0 < 2 ^ f.lo := Nat.two_pow_pos _
  have h1 := Nat.mod_lt (s.reg f.addr).toNat h0
  simp only [Dev.rd, Dev.wr, Dev.reg_setReg, bits, setField_toNat _ _ _ h]
  rw [Nat.pow_add, Nat.mul_assoc, Nat.add_assoc, ← Nat.mul_add, Nat.add_comm, Nat.mul_add_div h0,
    Nat.div_eq_of_lt h1, Nat.add_zero, Nat.add_mul_mod_self_left, Nat.mod_mod]

/-- A field that lies below the one written in the same register is as it was. -/
theorem Dev.rd_wr_below (f : Fld) (v : Nat) (g : Fld) (h : f.lo + f.w ≤ 32) (ha : g.addr = f.addr) (hb : g.lo + g.w ≤ f.lo) :
    (s.wr f v).rd g = s.rd g := by
  obtain ⟨d, hd⟩ := Nat.exists_eq_add_of_le hb
  simp only [Dev.rd, Dev.wr, ha, Dev.reg_setReg, bits, setField_toNat _ _ _ h]
  have e1 : 2 ^ f.lo = 2 ^ g.lo * (2 ^ g.w * 2 ^ d) := by rw [hd, Nat.pow_add, Nat.pow_add, Nat.mul_assoc]
  have e2 : 2 ^ (f.lo + f.w) = 2 ^ g.lo * (2 ^ g.w * (2 ^ d * 2 ^ f.w)) := by
    rw [Nat.pow_add, e1, Nat.mul_assoc, Nat.mul_assoc]
  rw [e2, e1]
  generalize (s.reg f.addr).toNat = x
  rw [Nat.mul_assoc, Nat.mul_assoc (2 ^ g.lo), Nat.add_assoc, ← Nat.mul_add, Nat.add_comm, Nat.mul_add_div (Nat.two_pow_pos _)]
  rw [Nat.mul_assoc, Nat.mul_assoc (2 ^ g.w), ← Nat.mul_add, Nat.add_comm, Nat.add_mul_mod_self_left]
  rw [Nat.mod_mul_right_div_self, Nat.mod_mul_right_mod]

/-- A field that lies above the one written in the same register is as it was. -/
theorem Dev.rd_wr_above (f : Fld) (v : Nat) (g : Fld) (h : f.lo + f.w ≤ 32) (ha : g.addr = f.addr) (hb : f.lo + f.w ≤ g.lo) :
    (s.wr f v).rd g = s.rd g := by
  obtain ⟨d, hd⟩ := Nat.exists_eq_add_of_le hb
  simp only [Dev.rd, Dev.wr, ha, Dev.reg_setReg, bits, setField_toNat _ _ _ h]
  generalize (s.reg f.addr).toNat = x
  have h0 : 0 < 2 ^ f.lo := Nat.two_pow_pos _
  have h1 := Nat.mod_lt x h0
  have h2 := Nat.mod_lt v (Nat.two_pow_pos f.w)
  have h4 : 2 ^ f.lo * (v % 2 ^ f.w) + 2 ^ f.lo ≤ 2 ^ f.lo * 2 ^ f.w := by
    rw [← Nat.mul_succ]; exact Nat.mul_le_mul_left _ h2
  have h3 : 2 ^ (f.lo + f.w) = 2 ^ f.lo * 2 ^ f.w := Nat.pow_add ..
  have key : (x % 2 ^ f.lo + 2 ^ f.lo * (v % 2 ^ f.w) + 2 ^ (f.lo + f.w) * (x / 2 ^ (f.lo + f.w))) / 2 ^ (f.lo + f.w) =
      x / 2 ^ (f.lo + f.w) := by
    rw [Nat.add_mul_div_left _ _ (Nat.two_pow_pos _), Nat.div_eq_of_lt (by rw [h3]; omega), Nat.zero_add]
  rw [hd, Nat.pow_add 2 (f.lo + f.w), ← Nat.div_div_eq_div_mul, ← Nat.div_div_eq_div_mul x, key]

end Sys2Proof.Machine
end

