-- ==== Sys2Proof/Laws/Memory.lean ====
section
/-!
SUPPORT. The laws of memory: a read after a write, and that every operation on memory keeps its canonical form.
-/

namespace Sys2Proof.Machine

/-- Taking entries out of a map keeps its canonical form. -/
theorem mapWf_filter {α : Type} [DecidableEq α] {d : Nat → α} (p : Nat × α → Bool) {m : List (Nat × α)}
    (h : mapWf d m = true) : mapWf d (m.filter p) = true := by
  induction m with
  | nil => rfl
  | cons x r ih =>
    obtain ⟨k, v⟩ := x
    have hr : mapWf d r = true := (mapWf_cons.1 h).2.2
    have hlt := mapWf_lt h
    simp only [List.filter_cons]
    split
    · refine mapWf_cons.2 ⟨(mapWf_cons.1 h).1, head_of_all fun q hq => hlt q (List.mem_filter.1 hq).1, ih hr⟩
    · exact ih hr

variable {s : Dev}

theorem wf_setByte (k : Nat) (v : Byte) (h : Memory.wf s = true) : Memory.wf (s.setByte k v) = true := by
  simp only [Memory.wf, Bool.and_eq_true] at h ⊢
  exact ⟨mapWf_put k v h.1, h.2⟩

theorem wf_setChk (k : Nat) (v : Byte) (h : Memory.wf s = true) : Memory.wf (s.setChk k v) = true := by
  simp only [Memory.wf, Bool.and_eq_true] at h ⊢
  exact ⟨h.1, mapWf_put k v h.2⟩

theorem wf_setBytes (l : List Byte) : ∀ (s : Dev) (k : Nat), Memory.wf s = true → Memory.wf (s.setBytes k l) = true := by
  induction l with
  | nil => intro s k h; exact h
  | cons b r ih => intro s k h; exact ih _ _ (wf_setByte k b h)

theorem wf_setUnitAt (k : Nat) (u : Unit8) (h : Memory.wf s = true) : Memory.wf (s.setUnitAt k u) = true :=
  wf_setChk _ _ (wf_setChk _ _ (wf_setBytes _ s k h))

theorem wf_scrub (k n : Nat) (h : Memory.wf s = true) : Memory.wf (s.scrub k n) = true := by
  simp only [Memory.wf, Bool.and_eq_true] at h ⊢
  exact ⟨mapWf_filter _ h.1, mapWf_filter _ h.2⟩

/-- A register write leaves memory as it was. -/
theorem wf_wr (f : Fld) (v : Nat) : Memory.wf (s.wr f v) = Memory.wf s := rfl

/-- A byte outside the ones written reads as before. -/
theorem byte_setBytes_ne (l : List Byte) : ∀ (s : Dev) (k j : Nat), (j < k ∨ k + l.length ≤ j) → (s.setBytes k l).byte j = s.byte j := by
  induction l with
  | nil => intro s k j _; rfl
  | cons b r ih =>
    intro s k j h
    simp only [List.length_cons] at h
    rw [Dev.setBytes, ih _ _ _ (by omega), Dev.byte_setByte_ne _ _ _ (by omega)]

/-- The bytes written are the ones read. -/
theorem byte_setBytes (l : List Byte) : ∀ (s : Dev) (k i : Nat) (h : i < l.length), (s.setBytes k l).byte (k + i) = l[i] := by
  induction l with
  | nil => intro s k i h; simp at h
  | cons b r ih =>
    intro s k i h
    cases i with
    | zero =>
      rw [Dev.setBytes, Nat.add_zero, byte_setBytes_ne r _ _ _ (by omega)]
      exact Dev.byte_setByte s k b
    | succ i =>
      have := ih (s.setByte k b) (k + 1) i (by simpa using h)
      rw [Dev.setBytes, show k + (i + 1) = k + 1 + i by omega, this]
      rfl

/-- A register write and a store do not meet: every register is as it was. -/
theorem setBytes_reg (l : List Byte) : ∀ (s : Dev) (k a : Nat), (s.setBytes k l).reg a = s.reg a := by
  induction l with
  | nil => intro s k a; rfl
  | cons b r ih => intro s k a; rw [Dev.setBytes, ih]; rfl

theorem wf_reset : Memory.wf Dev.reset = true := rfl

end Sys2Proof.Machine
end

