-- ==== Sys2Proof/Laws/Store.lean ====
section
/-!
SUPPORT. What a transfer to or from memory can change beside memory: the error and count registers of the fabric, of the
flash controllers and of the weave controller, the reservations of the pairs and the darn counts of flash blocks.
-/

namespace Sys2Proof.Machine

/-- The registers that count and log what transfers meet (rules R24, R33, R331 and R332). -/
def countRegs : List Nat :=
  [SYS_FAB_STATUS, SYS_FAB_ERR_ADDR, SYS_FAB_ERR_SRC, SYS_FAB_DARN_COUNT, WV_UNCORR_ADDR, WV_CNT_UNCORR, WV_EVENTS,
   WV_CNT_DEMAND_DARN, WV_CNT_CHECK_ONLY, FLC_UNCORR_ADDR 0, FLC_UNCORR_COUNT 0, FLC_EVENTS 0, FLC_DARN_COUNT 0,
   FLC_UNCORR_ADDR 1, FLC_UNCORR_COUNT 1, FLC_EVENTS 1, FLC_DARN_COUNT 1]

/-- A device without what a transfer may change. -/
def Dev.core (s : Dev) : Dev := { s with regs := [], mem := [], chk := [], pairs := [], flash := [] }

/-- `t` differs from `s` by a transfer to or from memory at most. -/
structure Moved (s t : Dev) : Prop where
  regs : ∀ a, a ∉ countRegs → t.reg a = s.reg a
  rest : t.core = s.core

theorem Moved.refl (s : Dev) : Moved s s := ⟨fun _ _ => rfl, rfl⟩

theorem Moved.trans {s t u : Dev} (h : Moved s t) (g : Moved t u) : Moved s u :=
  ⟨fun a ha => (g.regs a ha).trans (h.regs a ha), g.rest.trans h.rest⟩

/-- A field of a register that no transfer touches is as it was. -/
theorem Moved.rd {s t : Dev} (h : Moved s t) {f : Fld} (hf : f.addr ∉ countRegs) : t.rd f = s.rd f := by
  simp [Dev.rd, h.regs _ hf]

theorem Moved.wr {s t : Dev} (h : Moved s t) (f : Fld) (v : Nat) (hf : f.addr ∈ countRegs) : Moved s (t.wr f v) :=
  ⟨fun a ha => (Dev.reg_wr_ne t v (fun e => ha (by rw [e]; exact hf))).trans (h.regs a ha), h.rest⟩

theorem moved_logFab (s : Dev) {f : Fld} (code a ini cls : Nat) (hf : f.addr ∈ countRegs) :
    Moved s (s.logFab f code a ini cls) := by
  have h : Moved s ((s.set f).wr SYS_FAB_STATUS_LAST_CODE code) :=
    ((Moved.refl s).wr _ _ hf).wr _ _ (by simp [countRegs, SYS_FAB_STATUS_LAST_CODE])
  unfold Dev.logFab
  dsimp only
  split
  · exact ((h.wr _ _ (by simp [countRegs, SYS_FAB_ERR_ADDR_ADDR])).wr _ _ (by simp [countRegs, SYS_FAB_ERR_SRC_CLASS])).wr _ _
      (by simp [countRegs, SYS_FAB_ERR_SRC_INITIATOR])
  · exact h

theorem moved_logReach (s : Dev) (ini a : Nat) (st : Status) : Moved s (s.logReach ini a st) := by
  unfold Dev.logReach
  split
  · exact moved_logFab _ _ _ _ _ (by simp [countRegs, SYS_FAB_STATUS_UNMAPPED])
  · exact moved_logFab _ _ _ _ _ (by simp [countRegs, SYS_FAB_STATUS_ROUTE_DENIED])
  · exact .refl s

theorem moved_countTransit (s : Dev) (ini a o : Nat) : Moved s (s.countTransit ini a o) := by
  unfold Dev.countTransit
  split
  · exact ((Moved.refl s).wr _ _ (by simp [countRegs, SYS_FAB_DARN_COUNT_COUNT])).trans
      (moved_logFab _ _ _ _ _ (by simp [countRegs, SYS_FAB_STATUS_TRANSIT_DARN]))
  · exact moved_logFab _ _ _ _ _ (by simp [countRegs, SYS_FAB_STATUS_TRANSIT_UNCORR])
  · exact .refl s

/-- A flash array that an address names is array 0 or 1. -/
theorem target_flash {s : Dev} {ini a x : Nat} (h : s.target ini a = some (.flash x)) : x = 0 ∨ x = 1 := by
  unfold Dev.target at h
  repeat' split at h
  all_goals first
    | (simp at h; done)
    | (injection h with h; injection h with h; omega)
    | (rw [Option.map_eq_some_iff] at h; obtain ⟨_, _, h⟩ := h; cases h)

theorem reach_target {s : Dev} {ini a : Nat} {st : Status} {t : Target} (h : s.reach ini a = (st, some t)) :
    s.target ini a = some t := by
  unfold Dev.reach at h
  split at h
  · simp at h
  · rename_i u hu
    split at h
    · simp at h
    · split at h
      · simp at h
      · rw [hu]; simp at h; rw [h.2]

/-- A register window lies at 0x4000_0000 or above. -/
theorem target_win {s : Dev} {ini a w : Nat} (h : s.target ini a = some (.win w)) : 0x40000000 ≤ a := by
  unfold Dev.target at h
  repeat' split at h
  all_goals first
    | (injection h with h; cases h; done)
    | (simp at h; done)
    | skip
  rw [Option.map_eq_some_iff] at h
  obtain ⟨i, hi, -⟩ := h
  have g : ((windows.findIdx? fun w => decide (w.1 ≤ a) && decide (a ≤ w.2.1)).isSome) = true := by
    unfold windowOf at hi; rw [hi]; rfl
  rw [List.findIdx?_isSome, List.any_eq_true] at g
  obtain ⟨w, hw, he⟩ := g
  have low : ∀ w ∈ windows, 0x40000000 ≤ w.1 := by decide
  simp only [Bool.and_eq_true, decide_eq_true_eq] at he
  exact Nat.le_trans (low w hw) he.1

theorem moved_countRead (s : Dev) (t : Target) (a o : Nat) (ht : ∀ x, t = .flash x → x = 0 ∨ x = 1) :
    Moved s (s.countRead t a o) := by
  unfold Dev.countRead
  split
  · exact .refl s
  · rename_i x
    have hx := ht x rfl
    have h : Moved s (if s.on (FLC_EVENTS_UNCORR x) then s else s.wr (FLC_UNCORR_ADDR_ADDR x) a) := by
      split
      · exact .refl s
      · exact (Moved.refl s).wr _ _ (by rcases hx with rfl | rfl <;> simp [countRegs, FLC_UNCORR_ADDR_ADDR])
    exact (h.wr _ _ (by rcases hx with rfl | rfl <;> simp [countRegs, FLC_UNCORR_COUNT_COUNT])).wr _ _
      (by rcases hx with rfl | rfl <;> simp [countRegs, FLC_EVENTS_UNCORR])
  · rename_i x _ _
    have hx := ht x rfl
    have h : Moved s (s.bump (FLC_DARN_COUNT_COUNT x)) :=
      (Moved.refl s).wr _ _ (by rcases hx with rfl | rfl <;> simp [countRegs, FLC_DARN_COUNT_COUNT])
    exact ⟨h.regs, h.rest⟩
  · have h : Moved s (if s.on WV_EVENTS_UNCORR then s else s.wr WV_UNCORR_ADDR_ADDR a) := by
      split
      · exact .refl s
      · exact (Moved.refl s).wr _ _ (by simp [countRegs, WV_UNCORR_ADDR_ADDR])
    exact (h.wr _ _ (by simp [countRegs, WV_EVENTS_UNCORR])).wr _ _ (by simp [countRegs, WV_CNT_UNCORR_COUNT])
  · exact (Moved.refl s).wr _ _ (by simp [countRegs, WV_CNT_DEMAND_DARN_COUNT])
  · exact (Moved.refl s).wr _ _ (by simp [countRegs, WV_CNT_CHECK_ONLY_COUNT])

theorem moved_breakResv (s : Dev) (ini k : Nat) : Moved s (s.breakResv ini k) := by
  have one : ∀ (t : Dev) (x : Nat), Moved t (if (t.pair x).resv = some (k / 8 * 8) ∧ ¬ (ini < 2 ∧ t.carrier ini = x) then
      t.setPair x { t.pair x with resv := none } else t) := fun t x => by
    split <;> exact ⟨fun _ _ => rfl, rfl⟩
  exact (one s 0).trans (one _ 1)

theorem moved_setByte (s : Dev) (k : Nat) (v : Byte) : Moved s (s.setByte k v) := ⟨fun _ _ => rfl, rfl⟩

theorem moved_setChk (s : Dev) (k : Nat) (v : Byte) : Moved s (s.setChk k v) := ⟨fun _ _ => rfl, rfl⟩

theorem moved_setBytes (l : List Byte) : ∀ (s : Dev) (k : Nat), Moved s (s.setBytes k l) := by
  induction l with
  | nil => exact fun s _ => .refl s
  | cons b r ih => exact fun s k => (moved_setByte s k b).trans (ih _ _)

theorem moved_setUnitAt (s : Dev) (k : Nat) (u : Unit8) : Moved s (s.setUnitAt k u) :=
  ((moved_setBytes _ s k).trans (moved_setChk _ _ _)).trans (moved_setChk _ _ _)

/-- A unit read below the register windows. -/
theorem moved_readUnit (s : Dev) (ini a : Nat) (d : BitVec 64) (c : BitVec 16) (ha : a < 0x40000000) :
    Moved s (s.readUnit ini a d c).1 := by
  unfold Dev.readUnit
  split
  · rename_i h
    exact absurd (target_win (reach_target h)) (by omega)
  · rename_i t _ h
    exact (moved_countRead s t a (s.fetchUnit t a).outcome fun x e => target_flash (e ▸ reach_target h)).trans
      (moved_countTransit _ _ _ _)
  · exact moved_logReach _ _ _ _

/-- A unit written below the register windows. -/
theorem moved_writeUnit (s : Dev) (ini a : Nat) (u : Unit8) (ha : a < 0x40000000) : Moved s (s.writeUnit ini a u).1 := by
  unfold Dev.writeUnit
  split
  · exact .refl s
  · exact .refl s
  · exact .refl s
  · rename_i h
    exact absurd (target_win (reach_target h)) (by omega)
  · dsimp only
    refine Moved.trans ?_ ((moved_breakResv _ _ _).trans (moved_setUnitAt _ _ _))
    split
    · exact moved_countTransit _ _ _ _
    · exact .refl s
  · exact moved_logReach _ _ _ _

/-- A unit merged below the register windows. -/
theorem moved_mergeUnit (s : Dev) (ini a o : Nat) (new : List Byte) (ha : a < 0x40000000) :
    Moved s (s.mergeUnit ini a o new).1 := by
  unfold Dev.mergeUnit
  split
  · exact .refl s
  · exact .refl s
  · exact .refl s
  · rename_i h
    exact absurd (target_win (reach_target h)) (by omega)
  · rename_i t _ _ _ _ h
    have hc := moved_countRead s t a (s.fetchUnit t a).outcome fun x e => target_flash (e ▸ reach_target h)
    dsimp only
    split
    · exact hc
    · exact hc.trans ((moved_breakResv _ _ _).trans (moved_setUnitAt _ _ _))
  · exact moved_logReach _ _ _ _

/-- A write of bytes to memory, whatever it meets. -/
theorem moved_store (ini : Nat) (n : Nat) : ∀ (s : Dev) (a : Nat) (l : List Byte), a + l.length ≤ 0x40000000 →
    Moved s (s.store ini n a l).1 := by
  induction n with
  | zero => exact fun s _ _ _ => .refl s
  | succ n ih =>
    intro s a l h
    unfold Dev.store
    split
    · exact .refl s
    · rename_i hl
      have pos : 0 < l.length := List.length_pos_iff.mpr hl
      dsimp only
      have now : Moved s (if (l.take (8 - a % 8)).length = 8 then
          (((s.writeUnit ini a (woven (BitVec.ofNat 64 (ofLe (l.take (8 - a % 8)))))).1,
            (s.writeUnit ini a (woven (BitVec.ofNat 64 (ofLe (l.take (8 - a % 8)))))).2, none) : Dev × Status × Option Nat)
          else s.mergeUnit ini (a / 8 * 8) (a % 8) (l.take (8 - a % 8))).1 := by
        split
        · exact moved_writeUnit _ _ _ _ (by omega)
        · exact moved_mergeUnit _ _ _ _ _ (by omega)
      by_cases hd : l.drop (8 - a % 8) = []
      · rw [hd]
        cases n <;> simpa [Dev.store] using now
      · exact now.trans (ih _ _ _ (by
          have := List.length_pos_iff.mpr hd
          simp only [List.length_drop] at this ⊢
          omega))

/-- A read of memory, whatever it meets. -/
theorem moved_load (ini : Nat) (n : Nat) : ∀ (s : Dev) (a : Nat), a / 8 * 8 + 8 * n ≤ 0x40000000 →
    Moved s (s.load ini n a).1 := by
  induction n with
  | zero => exact fun s _ _ => .refl s
  | succ n ih => exact fun s a h => (moved_readUnit _ _ _ _ _ (by omega)).trans (ih _ _ (by omega))

/-- A read of a unit that stands clean in a segment changes nothing. -/
theorem readUnit_clean {s : Dev} {ini a n : Nat} (hr : s.reach ini a = (.ok, some (.seg n)))
    (hu : (s.unitAt (s.place (.seg n) a)).outcome = 0) : ∃ v, s.readUnit ini a 0 0 = (s, .ok, v, none) := by
  have hf : ∀ u : Unit8, u.flip 0 0 = u := fun u => by simp [Unit8.flip]
  refine ⟨{ s.unitAt (s.place (.seg n) a) with data := (s.unitAt (s.place (.seg n) a)).delivered }, ?_⟩
  simp only [Dev.readUnit, hr, Dev.fetchUnit, hf, hu]
  rfl

/-- A read of a range whose units all stand clean in segments changes nothing and meets no fault. -/
theorem load_clean (s : Dev) (ini : Nat) (n : Nat) : ∀ a : Nat,
    (∀ k < n, ∃ v, s.readUnit ini (a / 8 * 8 + 8 * k) 0 0 = (s, .ok, v, none)) →
    (s.load ini n a).1 = s ∧ (s.load ini n a).2.2.2 = [] := by
  induction n with
  | zero => exact fun _ _ => ⟨rfl, rfl⟩
  | succ n ih =>
    intro a h
    obtain ⟨v, hv⟩ := h 0 (by omega)
    have := ih (a / 8 * 8 + 8) fun k hk => by
      obtain ⟨w, hw⟩ := h (k + 1) (by omega)
      exact ⟨w, by rw [← hw]; congr 1; omega⟩
    simp only [Nat.mul_zero, Nat.add_zero] at hv
    simp only [Dev.load, hv]
    exact ⟨this.1, by simp [this.2]⟩

/-- An engine's read of such a range leaves the state as it is. -/
theorem touch_clean {s : Dev} {ini a n : Nat}
    (h : ∀ k < (a % 8 + n + 7) / 8, ∃ v, s.readUnit ini (a / 8 * 8 + 8 * k) 0 0 = (s, .ok, v, none)) :
    s.touch ini [(a, n)] = s := by
  have := load_clean s ini _ a h
  simp only [Dev.touch, Dev.each, List.foldl, Dev.rdMem, this.1, this.2, Dev.chargeUncorr]

/-- An engine's write to memory. -/
theorem moved_stow (s : Dev) (ini a : Nat) (l : List Byte) (h : a + l.length ≤ 0x40000000) : Moved s (s.stow ini a l) :=
  moved_store _ _ _ _ _ h

/-! ### Units and their bytes -/

/-- Bytes of a number are as many as asked for. -/
theorem leBytes_length (n : Nat) : ∀ v, (leBytes n v).length = n := by
  induction n with
  | zero => intro v; rfl
  | succ n ih => intro v; simp [leBytes, ih]

/-- Little-endian bytes of the number that bytes stand for are those bytes. -/
theorem leBytes_ofLe (l : List Byte) : leBytes l.length (ofLe l) = l := by
  induction l with
  | nil => rfl
  | cons b r ih =>
    have hb := b.isLt
    have h1 : BitVec.ofNat 8 (b.toNat + 256 * ofLe r) = b := by
      apply BitVec.eq_of_toNat_eq; simp only [BitVec.toNat_ofNat]; omega
    rw [List.length_cons, ofLe, leBytes, h1, show (b.toNat + 256 * ofLe r) / 256 = ofLe r by omega, ih]

/-- The number that `n` little-endian bytes of `v` stand for is `v` modulo `256 ^ n`. -/
theorem ofLe_leBytes (n : Nat) : ∀ v, ofLe (leBytes n v) = v % 256 ^ n := by
  induction n with
  | zero => intro v; simp [leBytes, ofLe, Nat.mod_one]
  | succ n ih =>
    intro v
    rw [leBytes, ofLe, ih, Nat.pow_succ, Nat.mul_comm (256 ^ n), Nat.mod_mul]
    simp

/-- A number of `n` bytes is below `256 ^ n`. -/
theorem ofLe_lt (l : List Byte) : ofLe l < 256 ^ l.length := by
  induction l with
  | nil => simp [ofLe]
  | cons b r ih =>
    have := b.isLt
    rw [ofLe, List.length_cons, Nat.pow_succ]; omega

/-- A unit with valid check bytes is clean, and is delivered as it is stored (rule R329). -/
theorem woven_outcome (d : BitVec 64) : (woven d).outcome = 0 := by
  have h (x : BitVec 8) : (x ^^^ x).toNat = 0 := by simp
  simp only [Unit8.outcome, syndromes, woven, h]; rfl

@[simp] theorem woven_delivered (d : BitVec 64) : (woven d).delivered = d := by
  rw [Unit8.delivered, woven_outcome]; rfl

section

variable {s : Dev}

@[simp] theorem Dev.bytes_setChk (k : Nat) (v : Byte) (j n : Nat) : (s.setChk k v).bytes j n = s.bytes j n := rfl

/-- A store changes memory alone. -/
theorem setBytes_flash (l : List Byte) : ∀ (s : Dev) (k : Nat), (s.setBytes k l).flash = s.flash ∧ (s.setBytes k l).chk = s.chk := by
  induction l with
  | nil => intro s k; exact ⟨rfl, rfl⟩
  | cons b r ih => intro s k; rw [Dev.setBytes, (ih _ _).1, (ih _ _).2]; exact ⟨rfl, rfl⟩

@[simp] theorem setUnitAt_flash (k : Nat) (u : Unit8) : (s.setUnitAt k u).flash = s.flash := by
  unfold Dev.setUnitAt Dev.setChk; exact (setBytes_flash _ _ _).1

/-- The unit stored is the one read. -/
theorem unitAt_setUnitAt (k : Nat) (u : Unit8) : (s.setUnitAt k u).unitAt k = u := by
  have hb : (s.setUnitAt k u).bytes k 8 = leBytes 8 u.data.toNat := by
    apply List.ext_getElem
    · simp [Dev.bytes, leBytes_length]
    · intro i h₁ h₂
      simp only [Dev.bytes, List.getElem_map, List.getElem_range]
      exact byte_setBytes _ _ _ _ (by simpa using h₂)
  have hd : BitVec.ofNat 64 (ofLe (leBytes 8 u.data.toNat)) = u.data := by
    rw [ofLe_leBytes]; apply BitVec.eq_of_toNat_eq; simp; omega
  have hw : mapGet chkReset (s.setUnitAt k u).chk (2 * (k / 8)) = u.weft := by
    simp only [Dev.setUnitAt, Dev.setChk]
    rw [mapGet_put_ne _ _ (by omega), mapGet_put_same]
  have hp : mapGet chkReset (s.setUnitAt k u).chk (2 * (k / 8) + 1) = u.warp := by
    simp only [Dev.setUnitAt, Dev.setChk]; rw [mapGet_put_same]
  rw [Dev.unitAt, hb, hd, hw, hp]

/-- A unit apart from the one stored reads as before. -/
theorem unitAt_setUnitAt_ne {k j : Nat} (u : Unit8) (h : j / 8 ≠ k / 8) (hk : k % 8 = 0) (hj : j % 8 = 0) :
    (s.setUnitAt k u).unitAt j = s.unitAt j := by
  have hb : (s.setUnitAt k u).bytes j 8 = s.bytes j 8 := by
    apply List.ext_getElem
    · simp [Dev.bytes]
    · intro i h₁ h₂
      simp only [Dev.bytes, List.length_map, List.length_range] at h₁
      simp only [Dev.bytes, List.getElem_map, List.getElem_range]
      exact byte_setBytes_ne _ _ _ _ (by rw [leBytes_length]; omega)
  have hc (x : Nat) (hx : x / 2 = j / 8) : mapGet chkReset (s.setUnitAt k u).chk x = mapGet chkReset s.chk x := by
    simp only [Dev.setUnitAt, Dev.setChk]
    rw [mapGet_put_ne _ _ (by omega), mapGet_put_ne _ _ (by omega)]
    rw [(setBytes_flash _ _ _).2]
  rw [Dev.unitAt, hb, hc _ (by omega), hc _ (by omega)]; rfl

end

end Sys2Proof.Machine
end

