-- ==== Sys2Proof/Tests/Slice0.lean ====
section
/-!
SUPPORT. Tests: the smoke test of well-formedness, a state that meets the hypotheses of every statement, and small tests of
single commands. No expected value here was taken from a run of the model.
-/

open Sys2Proof Sys2Proof.Machine

set_option maxRecDepth 20000
set_option Elab.async false

/-! ### Small states -/

/-- The block after a boot: reset released, an image in force with every route, every domain on and every segment ready. -/
def Slice0.base : Dev :=
  let s := State.reset.dev
  let s := { s with
    boot := { s.boot with held := false }, tb := { s.tb with onSlow := false },
    img := { s.img with loaded := true, routes := List.replicate 21 (0x1FFF, 0xFFFFF), segUse := List.replicate 8 0, pEntry := 0x10001000 } }
  (List.range 8).foldl (fun s n => s.set (WV_SEG_READY n)) (s.setReg MNT_DOMAIN_STAT 0x155555)

/-- `base` with the registers named holding the words named, and a further change. -/
def Slice0.st (l : List (Nat × Word)) (f : Dev → Dev := id) : State :=
  { State.reset with dev := f (l.foldl (fun s p => s.setReg p.1 p.2) Slice0.base) }

/-- Does the initiator reach the register, as a check that computes? -/
def Slice0.opens (s : State) (i a : Nat) : Bool :=
  match s.dev.reach i a with
  | (.ok, some (.win _)) => true
  | _ => false

theorem Slice0.open_of {s : State} {i a : Nat} (h : Slice0.opens s i a = true) : Open s i a := by
  unfold Slice0.opens at h
  split at h
  · exact ⟨_, ‹_›⟩
  · cases h


/-! ### Well-formed commands: one ill-formed term for each check -/

theorem test_wf_burst_empty : WellFormed (.memoryAccess 0 [{ ini := 0, addr := 0, kind := .read 0, flips := [], waited := 0 }]) = false := by
  decide
theorem test_wf_burst_long : WellFormed (.memoryAccess 0 [{ ini := 0, addr := 4, kind := .read 253, flips := [], waited := 0 }]) = false := by
  decide
theorem test_wf_burst_flips :
    WellFormed (.memoryAccess 0 [{ ini := 0, addr := 0, kind := .read 4, flips := [(1, 1, 0)], waited := 0 }]) = false := by decide
theorem test_wf_burst : WellFormed (.memoryAccess 0 [{ ini := 0, addr := 0, kind := .read 64, flips := [(7, 1, 0)], waited := 0 }]) = true := by
  decide
theorem test_wf_header :
    WellFormed (.headerDone 0 [0, 0, 0, 0, 0, 0] false [] { darn := false, uncorr := none }) = false := by decide
theorem test_wf_psdu :
    WellFormed (.sleeveFrameEnd 0 .complete (List.replicate 2048 0) { snr := 0, freqOff := 0, clockOff := 0 }) = false := by
  decide +kernel

/-- A data frame's header of a plan, short addresses, no IE of its own. -/
def Slice0.mhr : MhrPlan :=
  { pending := false, compress := false, dstPan := 0, dst := .short 0, srcPan := 0, src := .short 0, seq := 0, sec := none,
    sched := [], ies := [], payIes := [] }

/-- The descriptor fields of a plan: SUN FSK, mode 0, no CCA. -/
def Slice0.txPlan : TxPlan :=
  { mode := 0, phyA := 0, phyB := 0, fcs2 := true, preamble := 8, power := 0, aerial := 0, ccaMode := 0, ccaDbm := 0, ccaUs := 0,
    tag := 0 }

/-- The place of a plan: the first queue entry, descriptor and buffer of frame memory. -/
def Slice0.place : PlacePlan := { entry := 0, desc := 0, buf := 0 }

open Slice0 in
theorem test_wf_mhr :
    mhrPlanWf mhr = true ∧
      mhrPlanWf { mhr with sched := [{ sf := 0, transmits := true, shared := false, chOff := 0, slots := List.replicate 60 0 }] } = false ∧
      mhrPlanWf { mhr with ies := [(0x22, List.replicate 128 0)] } = false ∧ mhrPlanWf { mhr with ies := [(0x7E, [])] } = false ∧
      mhrPlanWf { mhr with ies := [(0x7F, [])] } = false ∧
      mhrPlanWf { mhr with payIes := [(0, List.replicate 2048 0)] } = false := by decide +kernel
open Slice0 in
theorem test_wf_plans :
    let bad := { mhr with ies := [(0x7E, [])] }
    let f : FragPlan := { at_ := place, link := 0, tx := txPlan, mhr := bad }
    let a : AckPlan := { at_ := place, tx := txPlan, mhr := { mhr with sec := some (0, 0, 0) }, tail := [] }
    let o : OwnPlan := { at_ := place, tx := txPlan, mhr := bad, tail := [] }
    WellFormed (.prepEvent 0 0 [{ sf := 0, link := 0, desc := none, req := none, own := some o }] false) = false ∧
      WellFormed (.rxVerdict 0 0 0 (some a) []) = false ∧
      WellFormed (.rxVerdict 0 0 0 none [f]) = false ∧ WellFormed (.submission 0 [f]) = false ∧
      WellFormed (.submissionRelease 0 [f]) = false ∧ WellFormed (.txnTimeout 0 [f]) = false ∧
      WellFormed (.txnResend 0 [f]) = false := by decide
theorem test_wf_i2c :
    WellFormed (.i2cDone 0 .ok 0 (List.replicate 256 0)) = false ∧ WellFormed (.i2cTimeout 0 0 (List.replicate 256 0)) = false := by
  decide +kernel
theorem test_wf_lengths :
    WellFormed (.milxonWrite .wired (List.replicate 65536 0)) = false ∧ WellFormed (.cspMasterDone 0 (List.replicate 65536 0)) = false ∧
      WellFormed (.cspRdyTimeout 0 (List.replicate 65536 0)) = false := by
  simp only [WellFormed, List.length_replicate]
  decide

/-! ### A check from FIPS 197, appendix B of the standard the cipher chapter cites -/

theorem test_aes_fips197 :
    aes (List.range 16) ((List.range 16).map (17 * ·)) =
      [0x69, 0xC4, 0xE0, 0xD8, 0x6A, 0x7B, 0x04, 0x30, 0xD8, 0xCD, 0xB7, 0x80, 0x70, 0xB4, 0xC5, 0x5A] := by decide +kernel


/-! ### Hypotheses met: the block as a machine, the timebase, bands -/

open Slice0 in
theorem test_hyp_idleStep :
    let a := st []
    let b := st [] fun d => d.onTb fun t => { t with cyc := 4, period := 5 }
    (a.pending = [] ∧ a.dev.boot.held = false ∧ a.dev.ml.ptOp = none ∧ a.dev.tb.onSlow = false ∧
        a.dev.tb.cyc + 1 < a.dev.tb.period) ∧
      (b.dev.boot.held = false ∧ b.dev.ml.ptOp = none ∧ b.dev.tb.onSlow = false ∧ b.dev.tb.period ≤ b.dev.tb.cyc + 1) ∧
      (let c := st [] fun d => d.onTb fun t => { t with onSlow := true }
       c.dev.boot.held = false ∧ c.dev.ml.ptOp = none ∧ c.dev.tb.onSlow = true) := by decide

open Slice0 in
theorem test_hyp_stWrite :
    (0x40080004#32).toNat % 4 = 0 ∧ (st []).dev.reach 0 0x40080004 = (.ok, some (.win 12)) ∧
      (st []).dev.stChange (gtShared 0x40080004) (sameCycle 0x40080004 1 0) = true := by decide

open Slice0 in
theorem test_hyp_plainWrite :
    let a := SYS_FAB_STATUS
    a % 4 = 0 ∧ opens (st []) 0 a = true ∧ (∃ r, regFind a = some r ∧ r.w1c ≠ 0) ∧ ownWrite a = false ∧ (a < 0x40004000 ∨ 0x40008000 ≤ a) ∧
      (st []).dev.stChange a (sameCycle a 0xFFFFFFFF 0) = false ∧ opens (st []) 0 0x40000F00 = true ∧
      regFind (gtShared 0x40000F00) = none ∧ ownWrite 0x40000F00 = false := by
  refine ⟨by decide, by decide, ⟨_, rfl, by decide⟩, by decide, by decide, by decide, by decide, by decide, by decide⟩

open Slice0 in
theorem test_hyp_opens :
    Open (st []) 0 FSW_EVENTS ∧ Open (st []) 0 FLT_EVENTS ∧ Open (st []) 0 FLT_INT_EN ∧ Open (st []) 0 SYS_FAB_DARN_COUNT ∧
      Open (st []) 0 STR_LOCK_LOG ∧ Open (st []) 0 TREF_TIME_LO ∧ Open (st []) 0 TREF_PPS_CAP_LO ∧ Open (st []) 0 SE_ASN_LO :=
  ⟨open_of (by decide), open_of (by decide), open_of (by decide), open_of (by decide), open_of (by decide), open_of (by decide), open_of (by decide),
    open_of (by decide)⟩

open Slice0 in
theorem test_hyp_segmentStore :
    (0x2003FFF8#32).toNat % 8 = 0 ∧ (st []).dev.fab.waiting = [] ∧
      (st []).dev.reach 0 0x2003FFF8 = (.ok, some (.seg 0)) ∧ (st []).dev.reach 0 0x201FFFF8 = (.ok, some (.seg 7)) := by decide

open Slice0 in
theorem test_hyp_deniedRead :
    (0x60000004#32).toNat % 8 + 4 ≤ 8 ∧ (st []).dev.fab.waiting = [] ∧ (st []).dev.reach 0 0x60000004 = (.unmapped, none) ∧
      (st []).dev.isWin 0 (0x60000004 / 8 * 8) = false ∧ (st []).dev.reach 0 (0x60000004 / 8 * 8) = (.unmapped, none) ∧
      (st []).dev.reach 0 0x103F0000 = (.routeDenied, none) ∧ (st []).dev.isWin 0 (0x103F0000 / 8 * 8) = false := by decide

open Slice0 in
theorem test_hyp_timebase :
    let a := st []
    let b := st [] fun d => d.onTb fun t => { t with fresh := false }
    let c := st [(TREF_CTRL, 1), (TREF_STATUS, 1)]
    (a.dev.boot.held = false ∧ a.dev.tb.onSlow = false ∧ a.dev.tb.fresh = true) ∧ b.dev.tb.fresh = false ∧
      (c.dev.up 1 = true ∧ c.dev.rd TREF_CTRL_MODE = 1 ∧ c.dev.rd TREF_STATUS_CLK_PRESENT = 1 ∧
        7999920 ≤ (8000080#24).toNat ∧ (8000080#24).toNat ≤ 8000080 ∧ 7999920 ≤ (7999920#24).toNat) := by decide

open Slice0 in
theorem test_hyp_phase :
    Open (st []) 0 TREF_PHASE_ADJ ∧ Open (st []) 0 TREF_STEP ∧ (st []).dev.rd SE_CTRL_RUN = 0 ∧
      (Open (st [(SE_CTRL, 1)]) 0 TREF_STEP ∧ (st [(SE_CTRL, 1)]).dev.rd SE_CTRL_RUN = 1) ∧
      ((st [(TREF_STATUS, 0x10)]).dev.rd TREF_STATUS_SLEWING = 1 ∧ (st [(TREF_STATUS, 0x10)]).dev.tb.onSlow = false) ∧
      State.reset.dev.tb.onSlow = true :=
  ⟨open_of (by decide), open_of (by decide), by decide, ⟨open_of (by decide), by decide⟩, by decide, by decide⟩

open Slice0 in
theorem test_hyp_pps :
    let s := st [(TREF_CTRL, 0x30), (TREF_PPS_OUT_PERIOD, 1000), (TREF_PPS_OUT_PHASE, 7)] fun d => d.onTb fun t => { t with count := 3007 }
    s.dev.up 1 = true ∧ s.dev.rd TREF_CTRL_PPS_IN_EN = 1 ∧ s.dev.rd TREF_CTRL_EDGE = 0 ∧ s.dev.rd TREF_CTRL_PPS_OUT_EN = 1 ∧
      ((s.dev.now : Int) - (s.dev.rd TREF_PPS_OUT_PHASE_PHASE : Nat)) % (s.dev.ppsPeriod : Int) = 0 ∧
      (st []).dev.rd TREF_CTRL_PPS_IN_EN = 0 ∧ (st []).dev.rd TREF_CTRL_PPS_OUT_EN = 0 ∧
      tsLe s.dev.tb.ppsEnd s.dev.now = true ∧
      (let w := st [] fun d => d.onTb fun t => { t with ppsEnd := 5 }
       tsLe w.dev.tb.ppsEnd w.dev.now = false) := by decide

open Slice0 in
theorem test_hyp_gain :
    let s := st [(RF_STATE 0, 4), (RF_GAIN 0, 5)] fun d => d.setBand 0 { d.band 0 with upA := 255 }
    s.dev.manual 0 0 = false ∧ s.dev.govHeld 0 0 = false ∧ (∀ n < 32, s.dev.inFrameOn 0 0 n = false) ∧
      -((100 * s.dev.rd (RF_GOV_HIGH_DBFS 0) : Nat) : Int) < 0 ∧ (-60000 : Int) < -((100 * s.dev.lowLevel 0 : Nat) : Int) ∧
      s.dev.upHold 0 ≤ (s.dev.band 0).upA + 2 ∧ s.dev.rd (stepFld 0 0) < 11 ∧
      -((100 * s.dev.lowLevel 0 : Nat) : Int) ≤ -((100 * s.dev.rd (RF_GOV_HIGH_DBFS 0) : Nat) : Int) := by decide

open Slice0 in
theorem test_hyp_hops :
    let w := st [(RF_CHAINS 1, 0x302), (RF_STATE 1, 4)] fun d => d.setBand 1 { d.band 1 with hop := some 2440000 }
    let v := st [(RF_CHAINS 1, 0x302), (RF_STATE 1, 3)]
    Quiet w.dev 1 ∧ Quiet v.dev 1 ∧ opens w 0 (RF_NARROW 1) = true ∧ opens v 0 (RF_NARROW 1) = true ∧ w.dev.narrow 1 = true ∧
      w.dev.rd (RF_STATE_STATE 1) = 4 ∧ (w.dev.band 1).hop = some 2440000 ∧
      v.dev.narrow 1 = true ∧ v.dev.rd (RF_STATE_STATE 1) = 3 ∧ v.dev.rd (RF_STATE_STATE 1) ∈ [1, 3, 5, 6, 7, 9] ∧
      (st []).dev.narrow 1 = false ∧ opens (st []) 0 (RF_NARROW 1) = true ∧ Quiet (st []).dev 1 ∧
      opens w 0x0C (RF_NARROW 1) = true ∧ w.dev.hopWanted 1 2440000 = false := by decide

open Slice0 in
theorem test_hyp_calQueue :
    let s := st [(RF_STATE 0, 4)]
    let t := st [(RF_STATE 0, 4)] fun d => d.setBand 0 { d.band 0 with cal := [(7, 5, false)] }
    let u := st [(RF_STATE 0, 4), (MNT_STATE, 0x8000)]
    (opens s 0 (RF_CAL_REQ 0) = true ∧ s.dev.rd (RF_STATE_STATE 0) ≠ 0 ∧ s.dev.rd (RF_STATE_STATE 0) ≠ 10 ∧ s.dev.rd MNT_STATE_LIMP = 0 ∧
        s.dev.calPending 0 7 = false ∧ s.dev.recalDelta 0 ≤ (signed 8 (100#8).toNat - signed 8 (s.dev.rd (RF_CAL_TEMP_LAST_CAL_C 0))).natAbs ∧
        (signed 8 (0#8).toNat - signed 8 (s.dev.rd (RF_CAL_TEMP_LAST_CAL_C 0))).natAbs < s.dev.recalDelta 0) ∧
      (opens t 0 (RF_CAL_REQ 0) = true ∧ t.dev.rd (RF_STATE_STATE 0) = 4 ∧ t.dev.rd MNT_STATE_LIMP = 0 ∧ t.dev.calPending 0 7 = true ∧
        (∃ c ∈ (t.dev.band 0).cal, c.1 = 7 ∧ c.2.1 ≠ 0)) ∧
      (opens u 0 (RF_CAL_REQ 0) = true ∧ u.dev.rd MNT_STATE_LIMP = 1) := by decide

/-- Band 0 listening with both chains on and calibration item `i` pending. -/
def Slice0.calQ (i : Nat) : Dev :=
  (Slice0.st [(RF_STATE 0, 4), (RF_CHAINS 0, 0x300)] fun d => d.setBand 0 { d.band 0 with cal := [(i, 5, false)] }).dev

/-- Band 0 in a state with an item running. -/
def Slice0.calR (state item : Word) : Dev := (Slice0.st [(RF_STATE 0, state + 65536 * item), (RF_CHAINS 0, 0x1000)]).dev

open Slice0 in
theorem test_hyp_calRuns :
    (Quiet (calQ 2) 0 ∧ (calQ 2).calPending 0 2 = true ∧ (calQ 2).calGap 0 2 = true) ∧
      (Quiet (calQ 7) 0 ∧ (calQ 7).calPending 0 7 = true ∧ (calQ 7).calGap 0 7 = true) ∧
      (Quiet (calR 4 2) 0 ∧ (calR 4 2).rd (RF_STATE_CAL_ITEM 0) = 2 ∧ (calR 4 2).startUp 0 = false ∧ Quiet (calR 4 6) 0 ∧
        (calR 4 6).rd (RF_STATE_CAL_ITEM 0) = 6 ∧ (calR 4 6).startUp 0 = false ∧ ((calR 4 6).band 0).relock = false) ∧
      (Quiet (calR 2 3) 0 ∧ (calR 2 3).startUp 0 = true ∧ nextCal ((calR 2 3).rd (RF_STATE_CAL_ITEM 0)) = some 1 ∧
        Quiet (calR 2 6) 0 ∧ (calR 2 6).rd (RF_STATE_STATE 0) = 2 ∧ (calR 2 6).rd (RF_STATE_CAL_ITEM 0) ≠ 0 ∧
        (calR 2 6).rd MNT_STATE_LIMP = 0 ∧ ((calR 2 6).band 0).outOfService = false) := by decide

open Slice0 in
theorem test_hyp_bandGate :
    Quiet (calR 1 0) 0 ∧ (calR 1 0).rd (RF_STATE_STATE 0) = 1 ∧ (calR 4 0).rd (RF_CHAINS_SLOT_GATE 0) = 1 ∧ Quiet (calR 4 0) 0 ∧
      (calR 4 0).rd (RF_STATE_STATE 0) = 4 ∧ Quiet (calR 8 0) 0 ∧ (calR 8 0).rd (RF_STATE_STATE 0) = 8 := by decide


/-! ### Hypotheses met: transmit paths and sleeves -/

/-- A start command for ring 2, of a 20-octet frame at 0x20000100 with power 0x60 asked for. -/
def Slice0.cmd (ph : TxPhase) : TxCmd :=
  { le := 2, desc := 0x20000000, bytes := leBytes 4 0 ++ leBytes 2 8 ++ leBytes 2 20 ++ leBytes 4 0x20000100 ++ leBytes 4 915000 ++
      leBytes 8 0x60 ++ leBytes 8 0, ts := 1000, minCca := 0, maxThr := none, lbt := false, readSt := .ok, buf := [], held := false, phase := ph,
    power := 0x60, capped := false, folded := false, aerial := 0, ccaDone := false, ccaEnergy := 0, ccaIncomplete := false }

/-- `st` with one command on path 0, whose ring 2 has 16 entries. -/
def Slice0.tx (ph : TxPhase) (l : List (Nat × Word)) : State :=
  Slice0.st ((TXP_CQ_SIZE 0 2, 16) :: (TXP_CONFIG 0, 0x0100A000) :: l) fun d => d.setPath 0 { d.path 0 with cmds := [Slice0.cmd ph] }

open Slice0 in
theorem test_hyp_txDecision :
    let s := tx .armed [(RF_STATE 0, 0x104)]
    let w := tx .armed [(MNT_SUPPLY_STAT, 1)]
    ((s.dev.path 0).cmds = [cmd .armed] ∧ (cmd .armed).phase = .armed ∧ s.dev.rd MNT_SUPPLY_STAT_WARN = 0 ∧ s.dev.txDown 0 = false ∧
        s.dev.rd (RF_STATE_LOCKED 0) = 1 ∧ s.dev.rd (RF_STATE_CAL_ITEM 0) = 0 ∧ (s.dev.path 0).prevEnd = none ∧
        s.dev.narrow 0 = false ∧ (cmd .armed).readSt = .ok ∧ dCcaMode (cmd .armed).bytes = 0 ∧ (cmd .armed).lbt = false ∧
        Quiet s.dev 0) ∧
      ((w.dev.path 0).cmds = [cmd .armed] ∧ w.dev.rd MNT_SUPPLY_STAT_WARN = 1 ∧ (cmd .armed).le < 6 ∧
        (ringGet (w.dev.path 0).rings 2).off = false ∧ 0 < w.dev.rd (TXP_CQ_SIZE_ENTRIES 0 2) ∧
        BelowWindows (w.dev.rd (TXP_CQ_BASE_ADDR 0 2) * 32 + w.dev.rd (TXP_CQ_WR_WR 0 2) * 32)) := by decide

open Slice0 in
theorem test_hyp_txOnAir :
    let o := tx .onAir [(TXP_VSWR 0, 0x0808)]
    let s : State := { o with dev := o.dev.onTb fun t => { t with count := 100000 } }
    (cmd .decided).phase = .decided ∧ tsLe (cmd .decided).ts s.dev.now = true ∧ tsLe (cmd .decided).ts o.dev.now = false ∧
      (s.dev.path 0).cmds = [cmd .onAir] ∧ (cmd .onAir).phase = .onAir ∧ 0x50 ≤ (cmd .onAir).power ∧
      (0#8).toNat < s.dev.rd (TXP_VSWR_FOLD_RL 0) ∧ dPsdu (cmd .onAir).bytes - dFcsLen (cmd .onAir).bytes ≤ 256 ∧
      tsLe (tsAdd (cmd .onAir).ts (s.dev.airtime 0 (cmd .onAir).bytes : Nat)) s.dev.now = true ∧ (cmd .onAir).le < 6 := by decide

open Slice0 in
theorem test_hyp_txFrameEnd :
    let o := tx .onAir [(TXP_VSWR 0, 0x0808)]
    let s : State := { o with dev := o.dev.onTb fun t => { t with count := 100000 } }
    let r := tx .armed [(RF_STATE 0, 7)]
    ((s.dev.txReadRest 0).path 0).cmds = [cmd .onAir] ∧ (ringGet ((s.dev.txReadRest 0).path 0).rings 2).off = false ∧
      0 < (s.dev.txReadRest 0).rd (TXP_CQ_SIZE_ENTRIES 0 2) ∧
      BelowWindows ((s.dev.txReadRest 0).rd (TXP_CQ_BASE_ADDR 0 2) * 32 + (s.dev.txReadRest 0).rd (TXP_CQ_WR_WR 0 2) * 32) ∧
      (s.dev.txReadRest 0).rd (TXP_VSWR_RL_LIMIT 0) ≤ (8#8).toNat ∧
      r.dev.rd (RF_STATE_STATE 0) = 7 ∧ (r.dev.band 0).relock = false ∧ Quiet r.dev 0 ∧ (r.dev.path 0).cmds = [cmd .armed] := by decide

/-- The start command with a frame of 300 octets, so that its buffer is longer than what is read ahead. -/
def Slice0.long : TxCmd :=
  { Slice0.cmd .onAir with
    bytes := leBytes 4 0 ++ leBytes 2 8 ++ leBytes 2 300 ++ leBytes 4 0x20000100 ++ leBytes 4 915000 ++ leBytes 8 0x60 ++ leBytes 8 0 }

open Slice0 in
theorem test_hyp_txCuts :
    let s := tx .armed [(RF_STATE 0, 0x104)]
    let n := st [(RF_STATE 0, 0x104)] fun d => { (d.setPath 0 { d.path 0 with cmds := [long] }) with img := { d.img with routes := [] } }
    ((n.dev.path 0).cmds = [long] ∧ long.phase = .onAir ∧ 32 ≤ (36#8).toNat ∧
        8 * (36#8).toNat < dPsdu long.bytes - dFcsLen long.bytes ∧ dBuf long.bytes % 8 = 0 ∧
        n.dev.reach 0x0E (dBuf long.bytes + 8 * (36#8).toNat) = (.routeDenied, none)) ∧
      ((s.dev.path 0).cmds = [cmd .armed] ∧ (0x0000A000#32).getLsbD 24 = false ∧ (0x0100A000#32).getLsbD 24 = true ∧
        opens s 0 (TXP_CONFIG 0) = true ∧ (ringGet (s.dev.path 0).rings 2).off = false ∧ 0 < s.dev.rd (TXP_CQ_SIZE_ENTRIES 0 2) ∧
        BelowWindows (s.dev.rd (TXP_CQ_BASE_ADDR 0 2) * 32 + s.dev.rd (TXP_CQ_WR_WR 0 2) * 32)) ∧
      (s.dev.rd (RF_STATE_LOCKED 0) = 1 ∧ s.dev.rd (RF_STATE_STATE 0) = 4 ∧ Quiet s.dev 0) := by decide

open Slice0 in
theorem test_hyp_rings :
    let on := st [(TXP_CQ_SIZE 1 5, 16), (SLV_RQ_SIZE 5, 16)]
    let off := st [(TXP_CQ_SIZE 1 5, 16), (SLV_RQ_SIZE 5, 16)] fun d =>
      { d.cqSet 1 5 { resv := 0, off := true } with bank := { d.bank with rings := ringPut [] 5 { resv := 0, off := true } } }
    (st []).dev.rd (TXP_CQ_SIZE_ENTRIES 1 5) = 0 ∧ (st []).dev.rd (SLV_RQ_SIZE_ENTRIES 5) = 0 ∧
      on.dev.rd (TXP_CQ_SIZE_ENTRIES 1 5) ≠ 0 ∧ (ringGet (on.dev.path 1).rings 5).resv = 0 ∧ on.dev.rd (SLV_RQ_SIZE_ENTRIES 5) ≠ 0 ∧
      (1025#32).toNat % 65536 ≠ 0 ∧ (0x10000#32).toNat % 65536 = 0 ∧ (ringGet (off.dev.path 1).rings 5).off = true ∧
      (ringGet (off.dev.path 1).rings 5).resv = 0 ∧ (ringGet off.dev.bank.rings 5).off = true ∧ (ringGet off.dev.bank.rings 5).resv = 0 := by
  decide

/-- Count 100000, the rings of both ISM chains holding usable samples throughout. -/
def Slice0.live (d : Dev) : Dev :=
  ((d.onTb fun t => { t with count := 100000 }).setRing 1 0 { off := none, marks := [] }).setRing 1 1 { off := none, marks := [] }

/-- Sleeve 31, of the ISM band with both chains on, in a state and inside a frame, at count 100000. -/
def Slice0.slv (state : Word) (f : RxFrame) (l : List (Nat × Word)) : State :=
  Slice0.st ((SLV_ASSIGN 31, 0x5F02) :: (RF_CHAINS 1, 0x305) :: (RF_STATE 1, 4) :: (SLV_FSK 31, 0x40) :: (SLV_STATE 31, state) ::
    (SLV_MAX_PSDU 31, 2047) :: (SLV_CTRL 31, 5) :: (SLV_RQ_SIZE 4, 16) :: (RF_WINDOW 1, 2441000) :: l)
    fun d => (Slice0.live d).setSleeve 31 { d.sleeve 31 with frame := some f }

/-- A frame detected on branch 1 at count 77. -/
def Slice0.frm : RxFrame := .start 1 77 none false false

/-- A sync position at which the bits are those of SLV_SYNC0 as `slv` leaves it. -/
def Slice0.sfd : SyncSeen := { word := 0x904E, chip0 := 0, chip1 := 0 }

/-- The same sleeve in a re-search that began a count ago, 8000 counts back. -/
def Slice0.back (l : List (Nat × Word)) : State :=
  Slice0.st ((SLV_ASSIGN 31, 0x5F02) :: (RF_CHAINS 1, 0x305) :: (RF_STATE 1, 4) :: (SLV_STATE 31, 0x47) :: l)
    fun d => (Slice0.live d).setSleeve 31 { d.sleeve 31 with research := true, start := 92000, began := 99999 }

open Slice0 in
theorem test_hyp_detect :
    let s := slv 2 frm []
    (s.dev.rd (SLV_STATE_STATE 31) ∈ [2, 7] ∧ 1 ∈ s.dev.branches 31 ∧ s.dev.detectBad 31 1 (99999#48).toNat = false ∧ s.dev.sniffs 31 = false) ∧
      ((back []).dev.rd (SLV_STATE_STATE 31) ∈ [2, 7] ∧ (back []).dev.detectBad 31 1 (91999#48).toNat = true) ∧
      ((slv 0x13 frm []).dev.rd (SLV_STATE_STATE 31) = 3 ∧ ((slv 0x13 frm []).dev.sleeve 31).frame = some frm ∧
        ((slv 0x13 frm []).dev.divWait 31 : Int) ≤ tsDiff ((slv 0x13 frm []).dev.readPoint 31) frm.tsDetect) := by decide

open Slice0 in
theorem test_hyp_sync :
    let s (x : Word) := slv x frm []
    ((s 0x34).dev.rd (SLV_STATE_STATE 31) = 4 ∧ (s 0x34).dev.rd (SLV_STATE_BRANCH 31) = 1 ∧
        (s 0x34).dev.syncOf 31 sfd = some (false, 0) ∧ 1 ∈ (s 0x34).dev.branches 31 ∧ (s 0x34).dev.sniffs 31 = false ∧
        tsDiff (1077#48).toNat frm.tsDetect ≤ ((s 0x34).dev.syncWait 31 : Int)) ∧
      ((s 0x13).dev.rd (SLV_STATE_STATE 31) = 3 ∧ (s 0x13).dev.syncOf 31 sfd = some (false, 0) ∧ 1 ∈ (s 0x13).dev.branches 31 ∧
        tsDiff (1077#48).toNat frm.tsDetect ≤ ((s 0x13).dev.syncWait 31 : Int)) ∧
      ((s 0x35).dev.rd (SLV_STATE_STATE 31) ∈ [3, 4, 5] ∧ (s 0x35).dev.rd (SLV_CTRL_LINING_EN 31) = 1 ∧
        (s 0x35).dev.syncOf 31 sfd = some (false, 0) ∧ (s 0x35).dev.liningFull 31 8 = true ∧ 1 ∈ (s 0x35).dev.branches 31 ∧
        max 1 ((s 0x35).dev.rd (SLV_ACQ_MARGIN 31)) ≤ 255 ∧ ((s 0x35).dev.sleeve 31).frame = some frm ∧ (1077#48).toNat ≠ frm.tsRef) := by
  decide

open Slice0 in
theorem test_hyp_sniffSync :
    let o := slv 0x34 frm [(MNT_SNIFF, 31)]
    let s : State := { o with dev := { o.dev with mnt := { o.dev.mnt with stage := .window } } }
    s.dev.rd (SLV_STATE_STATE 31) = 4 ∧ s.dev.rd (SLV_STATE_BRANCH 31) = 1 ∧ s.dev.syncOf 31 sfd = some (false, 0) ∧
      1 ∈ s.dev.branches 31 ∧ s.dev.sniffs 31 = true ∧ (s.dev.sleeve 31).frame = some frm ∧ (s.dev.sleeve 31).waiting = [] ∧
      tsDiff (1077#48).toNat frm.tsDetect ≤ (s.dev.syncWait 31 : Int) := by decide

open Slice0 in
theorem test_hyp_research :
    let a := slv 0x34 frm []
    let b := slv 0x34 frm [(SLV_CTRL 31, 0xD)]
    let e := slv 0x34 { frm with tsDetect := 99000 } []
    (a.dev.rd (SLV_STATE_STATE 31) = 4 ∧ a.dev.sniffs 31 = false ∧ (a.dev.sleeve 31).waiting = [] ∧ (a.dev.sleeve 31).frame = some frm ∧
        (a.dev.syncWait 31 : Int) ≤ tsDiff (a.dev.readPoint 31) frm.tsDetect ∧ a.dev.rd (SLV_CTRL_RESEARCH_EN 31) = 0) ∧
      (b.dev.rd (SLV_STATE_STATE 31) = 4 ∧ b.dev.sniffs 31 = false ∧ (b.dev.sleeve 31).waiting = [] ∧
        (b.dev.syncWait 31 : Int) ≤ tsDiff (b.dev.readPoint 31) frm.tsDetect ∧ b.dev.rd (SLV_CTRL_RESEARCH_EN 31) = 1 ∧
        b.dev.researchFrom 31 frm = some (8192, true) ∧ b.dev.slvRest 31 = 2) ∧
      (e.dev.rd (SLV_STATE_STATE 31) = 4 ∧ (e.dev.sleeve 31).frame = some { frm with tsDetect := 99000 } ∧
        tsDiff (e.dev.readPoint 31) 99000 < (e.dev.syncWait 31 : Int)) := by decide

open Slice0 in
theorem test_hyp_reachLive :
    let s : State := { back [] with dev := (back []).dev.onTb fun t => { t with count := 110000 } }
    (s.dev.sleeve 31).research = true ∧ s.dev.rd (SLV_STATE_STATE 31) = 7 ∧ s.dev.readPoint 31 = s.dev.now ∧
      (back []).dev.readPoint 31 ≠ (back []).dev.now := by decide

/-- A sleeve in HEADER, armed for engine 4, with a pool of 16 buffers that has all of them free. -/
def Slice0.hdr : State :=
  Slice0.slv 0x35 Slice0.frm [(SLV_ROUTE 31, 0xC), (LE_MAP, 0x543210), (ML_POOL_CFG, 0x100000), (ML_CFG, 1)]

open Slice0 in
theorem test_hyp_header :
    hdr.dev.rd (SLV_STATE_STATE 31) = 5 ∧ (hdr.dev.sleeve 31).frame = some frm ∧ hdr.dev.rd (SLV_ASSIGN_MODE 31) ≠ 2 ∧
      phrCheck (hdr.dev.rd (SLV_ASSIGN_MODE 31)) frm.coded true [0, 0x28] = some (20, false, false, 0) ∧
      20 ≤ hdr.dev.maxPsdu 31 ∧ hdr.dev.armOf 31 = some 4 ∧ (macOf (whiten false (([0x02, 0x00, 0x01] : List Byte).take 64))).key = none ∧
      hdr.dev.lePhys 4 = 4 ∧ hdr.dev.rqFree (hdr.dev.lePhys 4) = true ∧ (hdr.dev.sleeve 31).waiting = [] ∧
      phrCheck (hdr.dev.rd (SLV_ASSIGN_MODE 31)) frm.coded true [] = none := by decide

open Slice0 in
/-- Whichever free descriptor the pool grants, it grants one. -/
theorem test_hyp_grant :
    ∃ i, (hdr.dev.poolRequest (hdr.dev.rangeOf (hdr.dev.lePhys 4))
      ((macOf (whiten false (([0x02, 0x00, 0x01] : List Byte).take 64))).ftype == 2 ||
        (macOf (whiten false (([0x02, 0x00, 0x01] : List Byte).take 64))).ftype == 3) 20).2 = some i := by
  have h : (macOf (whiten false (([0x02, 0x00, 0x01] : List Byte).take 64))).ftype = 2 := by decide
  have e : hdr.dev.freeDescs = List.range 16 := by decide
  have b : hdr.dev.bufSize = 256 := by decide
  have on : hdr.dev.on ML_CFG_ENABLE = true := by decide
  simp only [h, Dev.poolRequest, e, b, on]
  exact ⟨hdr.dev.freeVal 11 % 16, by simp [Nat.mod_lt]⟩

open Slice0 in
theorem test_hyp_frameEnds :
    let f := { frm with psduLen := 6, ring := some 4, fcs2 := true, desc := some 0 }
    let s := slv 0x36 f []
    s.dev.rd (SLV_STATE_STATE 31) = 6 ∧ s.dev.rd (SLV_STATE_IN_FRAME 31) = 1 ∧ (s.dev.sleeve 31).frame = some f ∧
      (s.dev.sleeve 31).waiting = [] ∧ f.ring = some 4 ∧ (ringGet s.dev.bank.rings 4).off = false ∧
      0 < s.dev.rd (SLV_RQ_SIZE_ENTRIES 4) ∧ BelowWindows (s.dev.rd (SLV_RQ_BASE_ADDR 4) * 64 + s.dev.rd (SLV_RQ_WR_WR 4) * 64) ∧
      s.dev.bufAddr 0 + f.psduLen ≤ 0x40000000 ∧ f.psduLen ≤ ([1, 2, 3, 4, 0, 0] : List Byte).length ∧
      fcsOk f.fcs2 (whiten f.white (([0, 0, 0, 0, 0, 0] : List Byte).take f.psduLen)) = true ∧
      fcsOk f.fcs2 (whiten f.white (([1, 2, 3, 4, 0, 0] : List Byte).take f.psduLen)) = false := by decide

open Slice0 in
theorem test_hyp_chanWrites :
    let a := slv 2 frm []
    let b := slv 0x36 frm []
    let c := st [] fun d => d.setSleeve 31 { d.sleeve 31 with waiting := [(SLV_CHAN 31, 2440000)] }
    let d := st [(RF_CHAINS 1, 0x302), (SLV_ASSIGN 31, 0x5F02)]
    opens a 0 (SLV_CHAN 31) = true ∧ opens b 0 (SLV_CHAN 31) = true ∧ a.dev.narrow (a.dev.slvBand 31) = false ∧
      b.dev.narrow (b.dev.slvBand 31) = false ∧ a.dev.inWindow (a.dev.slvBand 31) ((2440000#32).toNat % 2 ^ 24) = true ∧
      a.dev.rd (SLV_STATE_IN_FRAME 31) = 0 ∧ (a.dev.sleeve 31).research = false ∧
      ((back []).dev.sleeve 31).research = true ∧ (back []).dev.rd (SLV_STATE_IN_FRAME 31) = 0 ∧
      b.dev.inWindow (b.dev.slvBand 31) ((2440000#32).toNat % 2 ^ 24) = true ∧ b.dev.rd (SLV_STATE_IN_FRAME 31) = 1 ∧
      a.dev.inWindow (a.dev.slvBand 31) ((0#32).toNat % 2 ^ 24) = false ∧
      (opens d 0 (SLV_CHAN 31) = true ∧ d.dev.narrow (d.dev.slvBand 31) = true ∧ d.dev.rd (SLV_ASSIGN_BAND 31) ≠ 0) ∧
      c.dev.rd (SLV_STATE_IN_FRAME 31) = 0 ∧ (c.dev.sleeve 31).waiting = [(SLV_CHAN 31, 2440000)] ∧ 2440000 < 2 ^ 24 := by decide

open Slice0 in
theorem test_hyp_restarts :
    let s := slv 2 Slice0.frm []
    let r := st [] fun d => { d with bank := { d.bank with restarting := [0] } }
    s.dev.rd (SLV_ASSIGN_UNSERVED 31) = 0 ∧ s.dev.uncounted (0x20 + s.dev.phys 31) .stateTimeout 0 = false ∧
      (s.dev.counted (s.dev.unit (0x20 + s.dev.phys 31))).length < (s.dev.unit (0x20 + s.dev.phys 31)).threshold ∧
      r.dev.phys 0 ∈ r.dev.bank.restarting := by decide

open Slice0 in
theorem test_hyp_rotation :
    let a := st [(SLV_COMMON, 0x10000), (SLV_SPARES, 0x80000000)]
    let b := st [(SLV_SPARES, 0x80000000), (SLV_ASSIGN 3, 0x5801)] fun d =>
      { d with bank := { d.bank with testing := [31], swap := [(31, 3)] } }
    (0 < a.dev.rd SLV_COMMON_ROT_PERIOD_S ∧ a.dev.waited .slvTest (us (1000000 * a.dev.rd SLV_COMMON_ROT_PERIOD_S)) = true ∧
        a.dev.bit SLV_SPARES_MASK 31 = true ∧ a.dev.bit SLV_RETIRED_MASK 31 = false) ∧
      31 ∈ b.dev.bank.testing ∧ b.dev.waited .slvTest (us 24000) = true ∧ b.dev.nextRotation 31 = some 3 ∧ b.dev.bank.swap = [(31, 3)] ∧
      b.dev.rd (SLV_STATE_IN_FRAME 3) = 0 ∧ b.dev.rotates 31 3 = true ∧ b.dev.bit SLV_SPARES_MASK 31 = true ∧ b.dev.phys 3 ≠ 31 ∧
      b.dev.waited (.swap 31) (us 10000000) = true := by decide

open Slice0 in
/-- Waits that began at the present count are not over. -/
theorem test_hyp_waits :
    let s := st [(SLV_COMMON, 0x10000)] fun d => { d with waits := [(.slvTest, d.now), (.swap 31, d.now)] }
    s.dev.waited .slvTest (us (1000000 * s.dev.rd SLV_COMMON_ROT_PERIOD_S)) = false ∧ s.dev.waited (.swap 31) (us 10000000) = false := by
  decide

/-! ### Hypotheses met: the slot engine -/

/-- A slot engine with slot length 80000: slotframe 0 of one slot with one link at 0x20001000 of the given options, on sub-GHz
channel 0 at 915 MHz, of the broadcast queue whose one entry at 0x20002000 is planned where `next` says so; partner 0 VALID in the
range of LE 0, which is ready; a ledger without rules is present. -/
def Slice0.slotOf (opt next : Nat) (l : List (Nat × Word)) (f : Dev → Dev := id) : State :=
  Slice0.st ([(SE_CTRL, 1), (SE_STATUS, 1), (SE_SLOT_LEN, 80000), (SE_SF_CFG 0, 0x80000001), (SE_SF_BASE 0, 0x20001000),
      (SE_SF_COUNT 0, 1), (SE_HOP_CFG, 1), (SE_HOP_SG 0, 915000), (LE_STATE 0, 5), (LE_STATE 1, 0), (LE_STATE 2, 0), (LE_STATE 3, 0),
      (LE_STATE 4, 0), (LE_STATE 5, 0), (LE_RANGE 0, 0x00100000), (TXP_CONFIG 0, 0x0100A000), (RF_STATE 0, 0x104), (TXP_CQ_SIZE 0 0, 16),
      (RF_WINDOW 0, 915000)] ++ l)
    fun d =>
      let d := d.stow 0x0C 0x20001000 (leBytes 2 0 ++ leBytes 1 0 ++ leBytes 1 opt ++ leBytes 2 0xFFFF ++ leBytes 1 0 ++ leBytes 1 0x80 ++
        leBytes 4 0x200 ++ leBytes 4 next)
      let d := d.stow 0x0C 0x20002000 (leBytes 4 0x20003000 ++ leBytes 2 0xFFFF ++ leBytes 1 3 ++ List.replicate 9 0)
      let d := d.stow 0x0C 0x20003000 ((leBytes 1 0 ++ leBytes 2 0x0600 ++ leBytes 1 0 ++ leBytes 2 8 ++ leBytes 2 20 ++
        leBytes 4 0x20000100 ++ leBytes 4 915000 ++ leBytes 8 0x60 ++ leBytes 8 0))
      let d := d.stow 2 (partnerAddr 0 + 8) (leBytes 8 0x010000000000)
      let d := d.setEng 0 { d.eng 0 with ready := true }
      f { d with se := { d.se with bq := [(0x20001000, 0, 0x20002000, 0x20002000)], led := { d.se.led with present := true } } }

/-- The same with a TX link that has its entry planned. -/
def Slice0.slot (l : List (Nat × Word)) (f : Dev → Dev := id) : State := Slice0.slotOf 0x41 0x20002000 l f

open Slice0 in
theorem test_hyp_slotRuns :
    let a := st []
    let r := slot []
    (opens a 0 SE_CTRL = true ∧ (1#32).getLsbD 0 = true ∧ a.dev.rd SE_CTRL_RUN = 0) ∧
      (opens r 0 SE_CTRL = true ∧ (0#32).getLsbD 0 = false ∧ r.dev.rd SE_CTRL_RUN = 1) := by decide +kernel

open Slice0 in
theorem test_hyp_boundary :
    let r := slot []
    let w := slot [] fun d => { d with se := { d.se with srcWrite := some (some 4095) } }
    let v := slot [] fun d => { d with se := { d.se with srcWrite := some (some 0) } }
    (r.dev.seRuns = true ∧ r.dev.touchTables = r.dev ∧ r.dev.se.source = none ∧ r.dev.se.srcWrite = none ∧ r.dev.se.sfWait = []) ∧
      (w.dev.seRuns = true ∧ w.dev.touchTables = w.dev ∧ w.dev.se.source = none ∧ w.dev.se.srcWrite = some (some 4095) ∧
        w.dev.se.sfWait = [] ∧ w.dev.sourceOk 4095 = false) ∧
      (v.dev.seRuns = true ∧ v.dev.touchTables = v.dev ∧ v.dev.se.source = none ∧ v.dev.se.srcWrite = some (some 0) ∧
        v.dev.se.sfWait = [] ∧ v.dev.sourceOk 0 = true ∧ v.dev.rd SE_STATUS_STATE = 1) := by decide +kernel

open Slice0 in
theorem test_hyp_prepEvent :
    let s := slot []
    let l := s.dev.linkAt 0 0
    let d := putAt (s.dev.peekBytes 2 (s.dev.qDesc 0x20002000) 32) 0x0C (leBytes 4 (s.dev.linkChannel l 7))
    let u := s.dev.put8 2 (s.dev.qDesc 0x20002000) d
    (s.dev.seRuns = true ∧ s.dev.leRuns 0 = true ∧ (s.dev.eng 0).ready = true ∧ s.dev.rd SE_STATUS_STATE ≠ 2 ∧
        ((s.dev.slotLinks 7).any fun l => s.dev.linkLe l == some 0) = true) ∧
      (((s.dev.touch 2 [(l.addr, 16)]).touchPartner 2 l.partner).touchQueue 0 l.queue = s.dev ∧ l.tx = true ∧ l.beacon = false ∧
        l.shared = false ∧ l ∈ s.dev.slotLinks 7 ∧ s.dev.linkLe l = some 0 ∧
        (s.dev.qList l.queue).any s.dev.qInFlight = false ∧ (s.dev.qList l.queue).find? (s.dev.mayGo l 7) = some 0x20002000 ∧
        u.fits (u.airtime (l.band - 1) d) (u.qAckReq 0x20002000) = true) := by decide +kernel

open Slice0 in
theorem test_hyp_prepDone :
    let x : PrepItem := { link := 0x20001000, entry := 0x20002000, req := none, ts := 20000 }
    let p := slot [] fun d => { d with tb := { d.tb with count := 100000 } }.setEng 0 { d.eng 0 with preps := [{ asn := 1, bound := 0, items := [] }] }
    let q := slot [] fun d => d.setEng 0 { d.eng 0 with preps := [{ asn := 1, bound := 20000, items := [] }] }
    let r := slot [] fun d => d.setEng 0 { d.eng 0 with preps := [{ asn := 1, bound := 20000, items := [x] }] }
    let u := (r.dev.setEng 0 { r.dev.eng 0 with preps := [] }).qw 0 x.link 0x0C 4 x.entry
    ((p.dev.eng 0).preps = [{ asn := 1, bound := 0, items := [] }] ∧ p.dev.leRuns 0 = true ∧
        tsLe p.dev.now (tsAdd 0 ((p.dev.txOffset : Int) - us 100)) = false) ∧
      ((q.dev.eng 0).preps = [{ asn := 1, bound := 20000, items := [] }] ∧ q.dev.leRuns 0 = true ∧ (q.dev.eng 0).adv = 0 ∧
        tsLe q.dev.now (tsAdd 20000 ((q.dev.txOffset : Int) - us 100)) = true) ∧
      ((r.dev.eng 0).preps = [{ asn := 1, bound := 20000, items := [x] }] ∧ r.dev.leRuns 0 = true ∧ (r.dev.eng 0).adv = 0 ∧
        tsLe r.dev.now (tsAdd x.ts (-(us 100 : Int))) = true ∧ r.dev.itemReady x = true ∧
        tsLe u.now (tsAdd 20000 ((u.txOffset : Int) - us 100)) = true ∧ (u.eng 0).adv = 0) := by decide +kernel

open Slice0 in
theorem test_hyp_fetch :
    let s := slot []
    let l := s.dev.linkAt 0 0
    let u := s.dev.put8 0x0C (l.addr + 0x0C) (leBytes 4 0)
    s.dev.touch 0x0C [(l.addr, 16)] = s.dev ∧ s.dev.seRuns = true ∧
      l.tx = true ∧ l ∈ s.dev.slotLinks s.dev.se.asn ∧ l.next ≠ 0 ∧ u.linkLe l = some 0 ∧ u.hartHalted 2 = false ∧
      u.rd SE_STATUS_STATE ≠ 2 ∧ (l.band - 1, s.dev.se.asn) ∉ u.se.sent ∧ u.outranked l s.dev.se.asn = false ∧
      ((u.qMark 0 l.next true).seStart 0 (u.issueOf l 0 s.dev.se.asn)).2 = (.none, .ok) := by decide +kernel

/-- A start command issued for the entry of `slot`, its frame asking for an acknowledgement. -/
def Slice0.issued : Issued :=
  { path := 0, le := 0, link := 0x20001000, entry := 0x20002000, desc := 0x20003000, partner := 0xFFFF, asn := 0, ts := 0, ackReq := true,
    shared := false, charges := [] }

open Slice0 in
theorem test_hyp_completion :
    let s := slot [(TXP_CQ_BASE 0 0, 0x20004000), (TXP_CQ_WR 0 0, 1)] fun d => d.stow 0x0E 0x2000401C (leBytes 4 0x20003000)
    let v : State := { s with dev := { s.dev with se := { s.dev.se with issued := [issued] } } }
    let m := s.dev.rdMem 2 (s.dev.rd (TXP_CQ_BASE_ADDR 0 0) * 32 + s.dev.rd (TXP_CQ_RD_RD 0 0) * 32) 32
    let n := v.dev.rdMem 2 (v.dev.rd (TXP_CQ_BASE_ADDR 0 0) * 32 + v.dev.rd (TXP_CQ_RD_RD 0 0) * 32) 32
    (s.dev.rd (TXP_CQ_SIZE_ENTRIES 0 0) ≠ 0 ∧ s.dev.leRuns 0 = true ∧ s.dev.rd (TXP_CQ_WR_WR 0 0) ≠ s.dev.rd (TXP_CQ_RD_RD 0 0) ∧
        (m.1.se.issued.find? fun x => x.path == 0 && x.desc == fieldAt m.2.2 0x1C 4) = none) ∧
      (v.dev.rd (TXP_CQ_SIZE_ENTRIES 0 0) ≠ 0 ∧ v.dev.leRuns 0 = true ∧ v.dev.rd (TXP_CQ_WR_WR 0 0) ≠ v.dev.rd (TXP_CQ_RD_RD 0 0) ∧
        (n.1.se.issued.find? fun x => x.path == 0 && x.desc == fieldAt n.2.2 0x1C 4) = some issued ∧ BelowWindows issued.entry ∧
        fieldAt n.2.2 0 1 = Status.ok.code) := by decide +kernel

/-- The acknowledgement of that frame, awaited. -/
def Slice0.awaited : AckWait :=
  { le := 0, entry := 0x20002000, partner := 0xFFFF, shared := false, ts := 0, asn := 0, link := 0x20001000, tsEnd := 0, chan := 915000 }

/-- `slot` with that acknowledgement awaited, at a time. -/
def Slice0.waits (now : Nat) (l : List (Nat × Word)) : State :=
  Slice0.slot l fun d => { d with tb := { d.tb with count := now }, se := { d.se with acks := [Slice0.awaited] } }

open Slice0 in
theorem test_hyp_ackEnd :
    let k := waits 100000 [(SE_ACCESS, 0xFFFFFFFF)]
    let j := waits 100000 [(SE_ACCESS, 1)]
    let f (s : Dev) := ((s.onSe fun y => { y with acks := y.acks.filter fun z => z != awaited }).qw 0 awaited.entry 8 1
      (min 255 (s.qTries awaited.entry + 1))).qw 0 awaited.entry 0x0A 1 Status.noAck.code
    ((k.dev.se.acks.find? fun x => x.le == 0) = some awaited ∧
        tsLe (tsAdd (k.dev.ackAt awaited) (k.dev.ackGuard : Nat)) k.dev.now = true ∧
        min 255 (k.dev.qTries awaited.entry + 1) < max 1 ((f k.dev).rd SE_ACCESS_MAX_TRIES)) ∧
      ((j.dev.se.acks.find? fun x => x.le == 0) = some awaited ∧
        tsLe (tsAdd (j.dev.ackAt awaited) (j.dev.ackGuard : Nat)) j.dev.now = true ∧
        max 1 ((f j.dev).rd SE_ACCESS_MAX_TRIES) ≤ min 255 (j.dev.qTries awaited.entry + 1)) ∧
      tsLe (tsAdd ((waits 0 []).dev.ackAt awaited) ((waits 0 []).dev.ackGuard : Nat)) (waits 0 []).dev.now = false := by decide +kernel

open Slice0 in
theorem test_hyp_slotAges :
    let c (s : State) := s.dev.seRuns = true ∧ (∀ j < 6, s.dev.leRuns j = decide (j = 0)) ∧ s.dev.rd (LE_RANGE_COUNT 0) = 0 ∧
      s.dev.bqsOf 0 = [0x20001000] ∧ s.dev.qList 0x20001000 = [0x20002000] ∧ s.dev.touchQueue 0 0x20001000 = s.dev
    let s := slot [(LE_RANGE 0, 0)]
    let t := slot [(LE_RANGE 0, 0), (SE_AGING, 0)] fun d => d.stow 2 0x20002006 [0]
    (c s ∧ s.dev.qClass 0x20002000 = 3) ∧
      (c t ∧ t.dev.qClass 0x20002000 < 3 ∧ t.dev.ageLimit (t.dev.qClass 0x20002000) < min 255 (t.dev.qAge 0x20002000 + 1)) := by
  decide +kernel

open Slice0 in
theorem test_hyp_misses :
    let v := slot [(SE_MISS, 0x1F1F)]
    let q := slot [(SE_MISS, 0x1F01)]
    let w := slot [(SE_MISS, 0x1F1F)] fun d => { d with se := { d.se with source := some 0 } }
    let f (s : Dev) := s.pfw 0 0x22 1 (min 31 (s.pMisses 0 + 1))
    (v.dev.seRuns = true ∧ v.dev.pValid 0 = true ∧ v.dev.touchPartner 0x0C 0 = v.dev ∧ (f v.dev).se.source ≠ some 0 ∧
        min 31 (v.dev.pMisses 0 + 1) < missLimit ((f v.dev).rd SE_MISS_QUIET_AFTER) ∧
        min 31 (v.dev.pMisses 0 + 1) < missLimit ((f v.dev).rd SE_MISS_REMOVE_AFTER)) ∧
      (q.dev.pValid 0 = true ∧ q.dev.touchPartner 0x0C 0 = q.dev ∧ (f q.dev).se.source ≠ some 0 ∧
        missLimit ((f q.dev).rd SE_MISS_QUIET_AFTER) ≤ min 31 (q.dev.pMisses 0 + 1) ∧
        min 31 (q.dev.pMisses 0 + 1) < missLimit ((f q.dev).rd SE_MISS_REMOVE_AFTER) ∧ bitOf ((f q.dev).pf 0 0x21 1) 4 = false) ∧
      (w.dev.pValid 0 = true ∧ w.dev.touchPartner 0x0C 0 = w.dev ∧ (f w.dev).se.source = some 0 ∧ w.dev.pMisses 0 ≠ 2) := by
  decide +kernel

open Slice0 in
theorem test_hyp_ackArm :
    let s := waits 100000 [(SLV_ASSIGN 9, 1), (SLV_CHAN 9, 915000)]
    s.dev.seRuns = true ∧ (s.dev.se.acks.find? fun x => x.le == 0) = some awaited ∧
      tsLe (tsAdd (s.dev.ackAt awaited) (-(s.dev.ackGuard : Int))) s.dev.now = true ∧
      s.dev.armPick (fieldAt (s.dev.peekBytes 0x0C awaited.link 16) 8 4) (bits (fieldAt (s.dev.peekBytes 0x0C awaited.link 16) 3 1) 6 2)
        awaited.chan = some (9, false) := by decide +kernel

/-- `slotOf` with an RX link in the present slot, at the middle of it, and start commands on path 0. -/
def Slice0.hear (cmds : List TxCmd) (l : List (Nat × Word)) : State :=
  Slice0.slotOf 0x42 0 l fun d => { (d.setPath 0 { d.path 0 with cmds := cmds }) with tb := { d.tb with count := 40000 } }

open Slice0 in
theorem test_hyp_linkArm :
    let c (s : Dev) :=
      let l := s.linkAt 0 0
      s.seRuns = true ∧ l.rx = true ∧ l ∈ s.slotLinks s.se.asn ∧ l.next = 0 ∧
        (s.se.issued.any fun x => x.link == l.addr && x.asn == s.se.asn) = false ∧
        (s.touch 0x0C [(l.addr, 16)]).touchPartner 0x0C l.partner = s ∧
        tsLe (tsAdd (s.expected l.partner s.se.asn) (-(s.hem l.partner (s.expected l.partner s.se.asn) : Int))) s.now = true
    let w (s : Dev) :=
      let l := s.linkAt 0 0
      let e := s.expected l.partner s.se.asn
      let h := s.hem l.partner e
      (s.blankCovers (l.band - 1) (tsAdd e (-(h : Int))) (tsAdd e (h : Nat)),
        s.armPick l.sleeves l.band (s.linkChannel l s.se.asn))
    let a := hear [] [(SLV_ASSIGN 9, 1), (SLV_CHAN 9, 915000)]
    let b := hear [cmd .armed] [(SE_HEM, 0x10001), (SE_TEMPLATE0, 0x10000 * 500 + 1000)]
    (c a.dev ∧ w a.dev = (false, some (9, false))) ∧ (c (hear [] []).dev ∧ w (hear [] []).dev = (false, none)) ∧
      (c b.dev ∧ (w b.dev).1 = true) := by decide +kernel

open Slice0 in
theorem test_hyp_disarm :
    let t := st [(SLV_CTRL 9, 3), (SLV_STATE 9, 2), (SLV_STATE 10, 0x16)] fun d => { d with se := { d.se with arms := [(11, 5)] } }
    ((t.dev.se.arms.any fun a => a.1 == 9 && !tsLe a.2 t.dev.now) = false ∧ t.dev.rd SE_STATUS_STATE ≠ 2 ∧
        t.dev.rd (SLV_CTRL_SLOT_ARMED 9) = 1 ∧ (t.dev.sleeve 9).released = false ∧ t.dev.rd (SLV_STATE_STATE 9) ∈ [2, 7]) ∧
      ((t.dev.se.arms.any fun a => a.1 == 10 && !tsLe a.2 t.dev.now) = false ∧ t.dev.rd (SLV_STATE_STATE 10) = 6) ∧
      (t.dev.se.arms.any fun a => a.1 == 11 && !tsLe a.2 t.dev.now) = true := by decide


/-! ### Hypotheses met: link engines and partners -/

open Slice0 in
theorem test_hyp_ticks :
    let s := st [(SE_CTRL, 1), (LE_STATE 3, 5), (LE_TICK 3, 1000)] fun d => { d with tb := { d.tb with count := 100000 } }.setEng 3 { d.eng 3 with due := some 4000, tickMin := 4000 }
    let r := st [(LE_STATE 3, 1)]
    let q := st [(LE_STATE 3, 5)]
    (s.dev.leRuns 3 = true ∧
        tickStart s.dev.now (tickTimes (s.dev.rd (LE_TICK_TICK_US 3)) 100 (s.dev.rd SE_CATCHUP_STEP_SHIFT)).1
          (tickTimes (s.dev.rd (LE_TICK_TICK_US 3)) 100 (s.dev.rd SE_CATCHUP_STEP_SHIFT)).2 (s.dev.eng 3).due (s.dev.eng 3).tickMin ≠ none) ∧
      (r.dev.rd (LE_STATE_ROLE 3) = 1 ∧ r.dev.rd (LE_STATE_RUNNING 3) = 0 ∧ (r.dev.eng 3).ready = false ∧ r.dev.up 5 = true) ∧
      (q.dev.rd (LE_STATE_ROLE 3) = 1 ∧ q.dev.rd (LE_STATE_RUNNING 3) = 1 ∧ (q.dev.eng 3).ready = false ∧ q.dev.up 5 = true) ∧
      (st [(LE_STATE 3, 0)]).dev.rd (LE_STATE_ROLE 3) ≠ 1 := by decide

open Slice0 in
theorem test_hyp_engineRotation :
    let a := st [(LE_STATE 0, 5), (LE_STATE 5, 2), (LE_ROT, 0x10000)]
    let b := st [(LE_STATE 0, 5), (LE_STATE 5, 0x12)] fun d => { d with se := { d.se with rotate := true } }
    let w := st [(LE_STATE 5, 2), (LE_ROT, 0x10000)] fun d => { d with waits := [(.leTest, d.now)] }
    (a.dev.leSpare = some 5 ∧ a.dev.rd LE_ROT_PERIOD_S ≠ 0 ∧ a.dev.rd (LE_STATE_SELFTEST 5) = 0 ∧ a.dev.up 5 = true ∧
        a.dev.waited .leTest (us (1000000 * a.dev.rd LE_ROT_PERIOD_S)) = true) ∧
      (w.dev.leSpare = some 5 ∧ w.dev.waited .leTest (us (1000000 * w.dev.rd LE_ROT_PERIOD_S)) = false) ∧
      (b.dev.leSpare = some 5 ∧ b.dev.rd (LE_STATE_SELFTEST 5) = 1 ∧ b.dev.waited .leTest (us 20000) = true ∧ b.dev.leNext = some 0 ∧
        b.dev.se.rotate = true ∧ b.dev.leIdle 0 = true ∧ b.dev.up 5 = true) := by decide

/-- Partner 3 in the range of engine 0, its entry valid or not, a short address of 0x1234 in the arguments. -/
def Slice0.part (flags : Nat) (f : Dev → Dev := id) : State :=
  Slice0.st [(LE_STATE 0, 5), (LE_RANGE 0, 0x00100000), (PT_INDEX, 3), (PT_SHORT, 0xABCD1234), (PT_ATTR0, 0x200)]
    fun d => f (d.stow 2 (partnerAddr 3 + 8) (leBytes 8 (flags * 2 ^ 40)))

open Slice0 in
theorem test_hyp_partners :
    let a := part 0
    let b := part 1
    let k := keyHash [0x34, 0x12, 0xCD, 0xAB]
    let c := part 1 fun d => { d with ml := { d.ml with keys := [(k, [0x34, 0x12, 0xCD, 0xAB], 3)] } }
    (opens a 0 PT_CMD = true ∧ a.dev.rd PT_CMD_PENDING = 0 ∧ a.dev.rd PT_INDEX_INDEX = 3) ∧
      (a.dev.touchPartner (a.dev.ownerOf 3) 3 = a.dev ∧ a.dev.served 3 = true ∧ a.dev.pValid 3 = false ∧ a.dev.ptConflict 3 = false ∧
        keysAdd (keysDrop a.dev.ml.keys 3) 3 a.dev.ptKeys = some [(k, [0x34, 0x12, 0xCD, 0xAB], 3)]) ∧
      (b.dev.touchPartner (b.dev.ownerOf 3) 3 = b.dev ∧ b.dev.served 3 = true ∧ b.dev.pValid 3 = true ∧ b.dev.ptConflict 3 = false ∧
        keysAdd (keysDrop b.dev.ml.keys 3) 3 b.dev.ptKeys = some [(k, [0x34, 0x12, 0xCD, 0xAB], 3)]) ∧
      (c.dev.ptKeys = [[0x34, 0x12, 0xCD, 0xAB]] ∧ c.dev.ptFind [0x34, 0x12, 0xCD, 0xAB] = some 3) ∧
      a.dev.ptFind [0x34, 0x12, 0xCD, 0xAB] = none := by decide +kernel

/-- Engine 0 awaits the verdict of a frame of partner 3 whose cipher request stands at 0x20004000. -/
def Slice0.asked (d : Dev) : Dev :=
  d.setEng 0 { d.eng 0 with rx := [{ partner := 3, dup := false, desc := 0, report := [], req := some 0x20004000, group := false,
                                     fc := none, asn := 0, early := false }] }

open Slice0 in
theorem test_hyp_delete :
    let b := part 1
    let u := b.dev.queueEmpty 3 .partnerRemoved
    let c := part 1 fun d => { asked d with sec := { d.sec with queue := [
      { addr := 0x20004000, r := 2, bytes := [], gen := 0, at_ := 0, engine := none, rerun := false, deferred := false,
        wasDeferred := false, streamed := false, fc := none, ctx := [] }] } }
    let v := c.dev.queueEmpty 3 .partnerRemoved
    let k := keyHash [0x34, 0x12, 0xCD, 0xAB]
    let x := part 1 fun d => { d with ml := { d.ml with keys := [(k, [0x34, 0x12, 0xCD, 0xAB], 4)] } }
    (b.dev.touchPartner (b.dev.ownerOf 3) 3 = b.dev ∧ b.dev.pValid 3 = true ∧ b.dev.served 3 = true ∧
        ((u.ptRequests 3).any fun a => u.sec.queue.any fun q => q.addr == a) = false) ∧
      (c.dev.touchPartner (c.dev.ownerOf 3) 3 = c.dev ∧ c.dev.pValid 3 = true ∧ c.dev.served 3 = true ∧
        ((v.ptRequests 3).any fun a => v.sec.queue.any fun q => q.addr == a) = true) ∧
      (x.dev.touchPartner (x.dev.ownerOf 3) 3 = x.dev ∧ x.dev.served 3 = true ∧ x.dev.ptConflict 3 = true) := by decide +kernel

/-- A device whose partner table has never been written, the key index to be rebuilt. -/
def Slice0.fresh : State := Slice0.st [] fun d => d.onMl fun m => { m with rebuilding := true }

/-- Its partner table is read through routed, live and clean units. -/
theorem Slice0.fresh_reads (k : Nat) (hk : k < 32768) :
    ∃ v, Slice0.fresh.dev.readUnit 0x0C (partnerAddr 0 / 8 * 8 + 8 * k) 0 0 = (Slice0.fresh.dev, .ok, v, none) := by
  have e : partnerAddr 0 / 8 * 8 = 0x201C0000 := by decide
  rw [e]
  refine readUnit_clean (n := 7) ?_ ?_
  · have t : Slice0.fresh.dev.target 0x0C (0x201C0000 + 8 * k) = some (.seg 7) := by
      have d : (0x201C0000 + 8 * k - 0x20000000) / 0x40000 = 7 := by omega
      simp only [Dev.target, d]
      repeat (first | rw [if_neg (by omega)] | rw [if_pos (by omega)])
    have r : Slice0.fresh.dev.routed 0x0C (0x201C0000 + 8 * k) (.seg 7) = true := by
      show bitOf (Slice0.fresh.dev.routesOf 0x0C).1 11 = true
      decide
    have v : Slice0.fresh.dev.alive (.seg 7) (0x201C0000 + 8 * k) = true := by
      show (Slice0.fresh.dev.up 6 && (Slice0.fresh.dev.img.segUse[7]?).getD 5 != 5 && Slice0.fresh.dev.on (WV_SEG_READY 7)) = true
      decide
    have n : sarnisOnly (0x201C0000 + 8 * k) = false := by
      simp only [sarnisOnly]
      simp
      omega
    simp only [Dev.reach, t, r, v, n]
    rfl
  · have p : Slice0.fresh.dev.place (.seg 7) (0x201C0000 + 8 * k) = 0x201C0000 + 8 * k := rfl
    have b : ∀ i, i < 0x300000000 → Slice0.fresh.dev.byte i = 0 := fun i hi => by
      show byteReset i = 0
      simp only [byteReset]
      exact if_neg (by omega)
    have u : Slice0.fresh.dev.unitAt (0x201C0000 + 8 * k) = { data := 0, weft := 0xFF, warp := 0xFF } := by
      have h : Slice0.fresh.dev.bytes (0x201C0000 + 8 * k) 8 = List.replicate 8 0 := by
        refine List.ext_getElem (by simp [Dev.bytes]) fun i hi _ => ?_
        simp only [Dev.bytes, List.length_map, List.length_range] at hi
        simp only [Dev.bytes, List.getElem_map, List.getElem_range, List.getElem_replicate]
        exact b _ (by omega)
      simp only [Dev.unitAt, h]
      rfl
    rw [p, u]
    decide

open Slice0 in
theorem test_hyp_rebuild : fresh.dev.ml.rebuilding = true ∧ fresh.dev.up 5 = true ∧ fresh.dev.touch 0x0C [(partnerAddr 0, 4096 * 64)] = fresh.dev :=
  ⟨by decide, by decide, touch_clean fun k hk => fresh_reads k (by
    rw [show partnerAddr 0 % 8 = 0 from by decide] at hk
    omega)⟩

/-! ### Hypotheses met: the message layer -/

/-- Partner 3 with a report at the head of engine 0's ring for a frame of 20 octets that starts with `fr`, in descriptor 5's buffer. -/
def Slice0.heard (fr : List Byte) (l : List (Nat × Word)) (f : Dev → Dev := id) : State :=
  Slice0.part 1 fun d =>
    let d := (l ++ [(SLV_RQ_BASE 0, 0x20010000#32), (SLV_RQ_SIZE 0, 8), (SLV_RQ_WR 0, 1), (ML_POOL_BASE, 0x20020000)]).foldl
      (fun s p => s.setReg p.1 p.2) d
    let d := d.stow 2 0x20020500 fr
    f (d.stow 2 0x20010000 ([0, 0, 0, 0, 0, 0] ++ leBytes 2 20 ++ leBytes 8 0 ++ leBytes 2 5 ++ leBytes 2 3))

/-- A MAC header without addresses, of a frame type. -/
def Slice0.head (ft : Nat) : List Byte := leBytes 2 (0x2000 + ft) ++ [7]

/-- What engine 0 of `heard` waits for. -/
def Slice0.wait (fr : List Byte) (req : Option Nat) : RxWait :=
  { partner := 3, dup := false, desc := 5, report := (Slice0.heard fr []).dev.peekBytes 2 0x20010000 64, req := req, group := false,
    fc := none, asn := 0, early := false }

/-- Engine 0 waits for the verdict of that frame. -/
def Slice0.judge (fr : List Byte) (req : Option Nat) (f : Dev → Dev := id) : State :=
  Slice0.heard fr [] fun d => (f d).setEng 0 { d.eng 0 with rx := [Slice0.wait fr req] }

/-- The report at RD of engine 0's ring, as the engine reads it, and the state with RD past it. -/
def Slice0.next (s : Dev) : Dev × List Byte :=
  let m := s.rdMem 2 (s.rd (SLV_RQ_BASE_ADDR 0) * 64 + s.rd (SLV_RQ_RD_RD 0) * 64) 64
  (m.1.wr (SLV_RQ_RD_RD 0) 1, m.2.2)

open Slice0 in
theorem test_hyp_reports :
    let s := heard (head 3) [(PCK_POLICY 0, 0x20)]
    let b := heard (head 3) [] fun d => d.stow 2 0x20010000 [0x21]
    let u := next s.dev
    (s.dev.rd (SLV_RQ_SIZE_ENTRIES 0) = 8 ∧ s.dev.rd (SLV_RQ_RD_RD 0) = 0 ∧ s.dev.rd (SLV_RQ_WR_WR 0) = 1 ∧ s.dev.leRuns 0 = true ∧
        ((s.dev.eng 0).rx.any fun w => w.partner == 3) = false ∧ fieldAt u.2 0 1 = Status.ok.code ∧
        u.1.touch 2 [(u.1.bufAddr (repDesc u.2), fieldAt u.2 6 2)] = u.1 ∧ u.1.touchPartner 2 3 = u.1 ∧ fieldAt u.2 0x12 2 = 3 ∧
        u.1.pValid 3 = true ∧ (u.1.seen u.2).any (fun v => v.aux.isNone) = true ∧ u.1.allows (u.1.pf 3 0x0C 1 % 64) 5 = true) ∧
      (b.dev.rd (SLV_RQ_WR_WR 0) = 1 ∧ b.dev.leRuns 0 = true ∧ (b.dev.eng 0).rx = [] ∧
        fieldAt (next b.dev).2 0 1 ≠ Status.ok.code) := by decide +kernel

/-- A MAC header of a data frame with security level 5, key identifier mode 0 and frame counter 1. -/
def Slice0.sealed : List Byte := leBytes 2 0x2009 ++ [7, 5] ++ leBytes 4 1

open Slice0 in
theorem test_hyp_secured :
    let s := heard sealed []
    let u := next s.dev
    s.dev.leRuns 0 = true ∧ fieldAt u.2 0 1 = Status.ok.code ∧ u.1.touch 2 [(u.1.bufAddr (repDesc u.2), fieldAt u.2 6 2)] = u.1 ∧
      u.1.touchPartner 2 3 = u.1 ∧ u.1.pValid 3 = true ∧
      (u.1.seen u.2).any (fun v => v.aux.any fun a =>
        u.1.rxSpace 3 a == some (0, false) && u.1.rxClass 3 false v.mac a.fc == some false) = true := by decide +kernel

/-- What a verdict statement asks of `judge`, with a test of the frame as the engine parses it. -/
def Slice0.judged (s : State) (w : RxWait) (p : Dev → Seen → Bool) : Prop :=
  ((s.dev.eng 0).rx.find? fun x => x.partner == 3) = some w ∧ (w.req.any fun a => s.dev.sec.queue.any fun q => q.addr == a) = false ∧
    s.dev.leRuns 0 = true ∧ ((s.dev.setEng 0 { s.dev.eng 0 with rx := [] }).seen w.report).any (p (s.dev.setEng 0 { s.dev.eng 0 with rx := [] })) = true

open Slice0 in
theorem test_hyp_verdicts :
    let w (fr : List Byte) := wait fr none
    let m := head 1 ++ [0x10, 0, 9, 0, 0, 1, 3, 0, 1, 2, 3]
    (judged (judge (head 2) none) (w (head 2)) (fun u v => (u.macPayload (w (head 2)) v).isSome && v.mac.ftype == 2) ∧
        (w (head 2)).dup = false) ∧
      judged (judge (head 3) none) (w (head 3)) (fun u v => (u.macPayload (w (head 3)) v).isSome && v.mac.ftype == 3) ∧
      judged (judge m none) (w m) (fun u v => (u.macPayload (w m) v).isSome && v.mac.ftype == 1 &&
        (u.carried (w m) v).any fun f => !u.needsCtx 3 f) := by
  unfold judged
  decide +kernel

open Slice0 in
theorem test_hyp_rejected :
    let s := judge (head 3) (some 0x20030000) fun d => d.stow 2 0x20030004 [5]
    judged s (wait (head 3) (some 0x20030000)) (fun u _ => u.peek 0x0C 0x20030004 1 == Status.authFail.code) ∧
      (wait (head 3) (some 0x20030000)).early = false := by
  unfold judged
  decide +kernel

open Slice0 in
theorem test_hyp_reassembly :
    let c : RaCtx := { slot := 0, partner := 3, origin := 4, dest := 5, hops := 0, kind := 0, flags := 0, txn := 6, count := 2,
                       total := 40, frag := some 20, opened := 0,
                       parts := [{ index := 0, desc := 5, off := 8, len := 20, verdict := some true }], streamed := false, newOrigin := false }
    let s := st [(ML_CFG, 1), (ML_RA_BASE, 0x20040000)] fun d =>
      ((d.setDesc 5 { d.desc 5 with holder := .context }).onMl fun m => { m with ctxs := [c] }).onTb fun t => { t with count := 2 ^ 40 }
    (s.dev.ml.ctxs.find? fun c => c.partner == 3 && c.origin == 4 && c.kind == 0 && c.txn == 6) = some c ∧
      ((max 1 (s.dev.rd ML_RA_CFG_TIMEOUT_100MS) * 800000 : Nat) : Int) ≤ tsDiff s.dev.now c.opened ∧ c.streamed = false ∧
      s.dev.rd ML_CFG_SCRUB_ON_FREE = 0 ∧ BelowWindows (s.dev.rd ML_RA_BASE_ADDR * 64 + 64 * c.slot) ∧
      (∀ d ∈ c.parts, (s.dev.desc d.desc).le < 6 ∧ d.verdict = some true ∧ s.dev.handed d.desc = false) := by decide

/-- Partner 3, a route to 0x0005 through it, and the submission descriptor `b` at the head of Pair Q's ring. -/
def Slice0.sub (b : List Byte) (l : List (Nat × Word)) (f : Dev → Dev := id) : State :=
  Slice0.part 1 fun d =>
    let d := (l ++ [(ML_CFG, 1), (ML_RING_BASE 4, 0x20011000#32), (ML_RING_SIZE 4, 8), (ML_RING_WR 4, 1), (ML_RT_CFG, 0x10),
      (ML_RT_BASE, 0x20012000)]).foldl (fun s p => s.setReg p.1 p.2) d
    let d := d.stow 0x0C 0x20012000 (leBytes 2 5 ++ leBytes 2 3 ++ [1])
    f (d.stow 0x0C 0x20011000 (b ++ List.replicate (32 - b.length) 0))

open Slice0 in
theorem test_hyp_submissions :
    let s := sub (leBytes 2 2 ++ leBytes 2 5 ++ leBytes 2 9) []
    let b := sub [3] []
    let l := s.dev.rdMem 0x0C (s.dev.rd (ML_RING_BASE_ADDR 4) * 32 + s.dev.rd (ML_RING_RD_RD 4) * 32) 32
    let m := b.dev.rdMem 0x0C (b.dev.rd (ML_RING_BASE_ADDR 4) * 32 + b.dev.rd (ML_RING_RD_RD 4) * 32) 32
    (s.dev.rd ML_CFG_ENABLE = 1 ∧ s.dev.up 5 = true ∧ s.dev.rd (ML_RING_SIZE_ENTRIES 4) ≠ 0 ∧
        s.dev.rd (ML_RING_WR_WR 4) ≠ s.dev.rd (ML_RING_RD_RD 4)) ∧
      (l.2.1 = .ok ∧ badSubmit l.2.2 = false ∧ fieldAt l.2.2 0 1 % 16 = 2 ∧ fieldAt l.2.2 6 2 = 0 ∧ fieldAt l.2.2 0x10 5 ≤ s.dev.se.asn ∧
        fieldAt l.2.2 2 2 = 5 ∧ s.dev.hop 5 = .via 3 ∧ max 1 ((0 + (l.1.touchRoute 5).fragSize 3 - 1) / (l.1.touchRoute 5).fragSize 3) ≤ 1) ∧
      (m.2.1 = .ok ∧ badSubmit m.2.2 = true ∧ (m.1.subNext 4).mlFree 7 = false) := by decide +kernel

/-- An open transaction of Pair Q with a given number of resends left. -/
def Slice0.txn (retries : Nat) : Txn :=
  { slot := 0, id := 9, dest := 5, sub := 1, tag := 77,
    msg := { kind := 0, flags := 1, txn := 9, origin := 1, dest := 5, hops := 3, data := [1, 2, 3] },
    tries := 2, retries := retries, timeout := 800000, since := some 4, answered := false, busy := false, resendAt := some 0 }

/-- `sub` with that transaction open, long after its message was sent. -/
def Slice0.open_ (retries : Nat) (l : List (Nat × Word)) : State :=
  Slice0.sub [] l fun d => (d.onMl fun y => { y with txns := [Slice0.txn retries] }).onTb fun t => { t with count := 2 ^ 40 }

open Slice0 in
theorem test_hyp_transactions :
    let s := open_ 0 [(ML_RING_SIZE 7, 8)]
    let g := open_ 0 []
    let r := open_ 1 []
    let c := sub [] [(ML_RING_SIZE 7, 8)] fun d => d.onMl fun y => { y with heldDone := [(1, leBytes 16 5)] }
    (s.dev.txnOf 9 = some (txn 0) ∧ ((txn 0).timeout : Int) ≤ tsDiff s.dev.now 4 ∧ (s.dev.txnClose 9).mlFree 7 = true ∧
        ((s.dev.txnClose 9).ml.heldDone.any fun y => y.1 == 1) = false) ∧
      (g.dev.txnOf 9 = some (txn 0) ∧ (g.dev.txnClose 9).mlFree 7 = false ∧ BelowWindows (g.dev.rd ML_TXN_BASE_ADDR * 32 + 32 * (txn 0).slot)) ∧
      (((txn 0).resendAt.any fun n => decide (n ≤ s.dev.se.asn)) = true ∧ s.dev.hop 5 = .via 3 ∧ s.dev.fragCount (txn 0).msg 3 ≤ 1) ∧
      (r.dev.txnOf 9 = some (txn 1) ∧ ((txn 1).since.all fun n => decide (tsDiff r.dev.now n < ((txn 1).timeout : Int))) = false ∧
        (txn 1).retries ≠ 0 ∧ r.dev.hop 5 = .via 3 ∧ r.dev.fragCount (txn 1).msg 3 ≤ 1) ∧
      (c.dev.ml.heldDone = [(1, leBytes 16 5)] ∧ c.dev.mlFree 7 = true ∧
        ((c.dev.onMl fun m => { m with heldDone := [] }).mlPut 7 (leBytes 16 5)).ml.heldDone = []) := by decide +kernel

open Slice0 in
theorem test_hyp_messageLayer :
    let a := st [(ML_CFG, 1)] fun d => d.setDesc 5 { d.desc 5 with holder := .delivered, head := true }
    let r := st [] fun d => d.onMl fun m => { m with restart := true }
    (opens a 0 ML_DESC_FREE = true ∧ (a.dev.desc 5).holder = .delivered ∧ (a.dev.desc 5).head = true ∧ (a.dev.desc 5).next = none ∧
        (a.dev.desc 5).le < 6 ∧ a.dev.rd ML_CFG_SCRUB_ON_FREE = 0) ∧
      ((a.dev.desc 6).holder ≠ .delivered ∧ opens a 0 ML_CFG = true ∧ a.dev.rd ML_CFG_ENABLE = 1) ∧
      (opens r 0 ML_CFG = true ∧ r.dev.rd ML_CFG_ENABLE = 0 ∧ (1#32).getLsbD 0 = true ∧ r.dev.ml.restart = true) := by decide


/-! ### Hypotheses met: the cipher engines -/

/-- Both engines up, engine 0 active and engine 1 spare, a 16-octet key in pocket 2 that any requester may use for everything; `q`
is at 0x20004000. -/
def Slice0.ce (l : List (Nat × Word)) (b : List Byte) (f : Dev → Dev := id) : State :=
  Slice0.st ([(CE_ENG, 0x0201#32), (CE_QSTAT, 64), (PCK_POLICY 2, 0xFFDFFFFD), (CE_QUOTA 9, 8), (CE_ROT, 0x10000)] ++ l) fun d =>
    f (Dev.setPocket { d.stow 0x0A 0x20004000 (b ++ List.replicate (64 - b.length) 0) with sec := { d.sec with ready := true } } 2
      { d.pocket 2 with cur := some { gen := 0, key := List.replicate 16 7 }, virgin := false })

/-- A CMAC_GEN of 16 octets for requester 9, running on an engine or waiting. -/
def Slice0.cmac (e : Option Nat) : CeReq :=
  { addr := 0x20004000, r := 9, gen := 0, at_ := 0, engine := e, rerun := false, deferred := false, wasDeferred := false,
    streamed := false, fc := none, ctx := [],
    bytes := [3, 2, 3, 16] ++ List.replicate 10 0 ++ leBytes 2 16 ++ leBytes 4 0x20005000 ++ leBytes 4 0 ++ leBytes 4 0x20006000 ++
      List.replicate 36 0 }

/-- A streamed CCM_DEC of 4 octets with a 4-octet MIC. -/
def Slice0.ccmDec (e : Option Nat) : CeReq :=
  { Slice0.cmac e with
    bytes := [2, 2, 11, 5] ++ List.replicate 10 0 ++ leBytes 2 4 ++ leBytes 4 0x20005000 ++ leBytes 4 0x20005800 ++
      leBytes 4 0x20006000 ++ List.replicate 36 0 }

open Slice0 in
theorem test_hyp_submit :
    let n := st []
    let s := ce [] (cmac none).bytes
    let b := ce [] []
    let q (x : State) : CeReq := { cmac none with bytes := (x.dev.rdMem 0x0A 0x20004000 64).2.2 }
    (opens n 9 (CE_SUB_ADDR 9) = true ∧ n.dev.sec.ready = false ∧ opens n 9 (CE_SUB_ADDR 8) = true) ∧
      (opens s 9 (CE_SUB_ADDR 9) = true ∧ s.dev.sec.ready = true ∧ (s.dev.ceServes 0 || s.dev.ceServes 1) = true ∧
        s.dev.ceIni none = 0x0A ∧ (s.dev.rdMem 0x0A 0x20004000 64).2.1 = .ok ∧
        (s.dev.rdMem 0x0A 0x20004000 64).1.ceRefusal 0x0A (q s) = none ∧ opens s 0 (CE_SUB_ADDR 9) = true) ∧
      ((b.dev.rdMem 0x0A 0x20004000 64).2.1 = .ok ∧
        (b.dev.rdMem 0x0A 0x20004000 64).1.ceRefusal 0x0A (q b) = some .badRequest) := by decide

open Slice0 in
theorem test_hyp_start :
    let s := ce [] [] fun d => { d with sec := { d.sec with queue := [cmac none] } }
    let x := { cmac none with bytes := 1 :: (cmac none).bytes.drop 1 }
    let c := ce [] [] fun d => { d with sec := { d.sec with queue := [x] } }
    let u := (c.dev.ceUpdate x { x with engine := some 0 }).set ⟨CE_ENG, 2, 1⟩
    let w := u.takeCounter c.fuses.device 0 { x with engine := some 0 }
    (s.dev.ceIdle 0 = true ∧ s.dev.cePick = some (cmac none) ∧ s.dev.ceUpset s.fuses.device (cmac none).pocket false = s.dev ∧
        s.dev.ceHeldBack (cmac none) = false ∧ s.dev.ml.ptOp = none ∧ (cmac none).op ≠ 1 ∧
        ((cmac none).isCmac && !(cmac none).flag 0) = false) ∧
      (c.dev.ceIdle 0 = true ∧ c.dev.cePick = some x ∧ c.dev.ceHeldBack x = false ∧ c.dev.ml.ptOp = none ∧ x.op = 1 ∧
        (c.dev.pocket x.pocket).fc < 0xFFFFFFFE ∧ w.2.2 = .ok ∧ w.1.ml.ptOp = none) := by decide +kernel

open Slice0 in
/-- A last part of a CMAC, with the context of its pocket and requester in memory. -/
theorem test_hyp_startPart :
    let b := (cmac none).bytes
    let x := { cmac none with bytes := b.take 2 ++ [2] ++ (b.drop 3).take 0x29 ++ leBytes 4 0x20007000 ++ b.drop 0x30 }
    let s := ce [] [] fun d => { d.stow 0x0A 0x20007000 ([1, 2] ++ List.replicate 6 0 ++ [9]) with sec := { d.sec with queue := [x] } }
    let u := (s.dev.ceUpdate x { x with engine := some 0 }).set ⟨CE_ENG, 2, 1⟩
    let c := u.ceRestore 0 { x with engine := some 0 }
    s.dev.ceIdle 0 = true ∧ s.dev.cePick = some x ∧ s.dev.ceHeldBack x = false ∧ s.dev.ml.ptOp = none ∧ x.op ≠ 1 ∧
      (x.isCmac && !x.flag 0) = true ∧ c.2.1 = .ok ∧ c.1.ml.ptOp = none := by decide +kernel

open Slice0 in
theorem test_hyp_runs :
    let g (q : CeReq) := ce [] [] fun d => { d with sec := { d.sec with queue := [q] } }
    let v := { cmac (some 0) with bytes := 4 :: (cmac none).bytes.drop 1 }
    let f := { cmac (some 0) with bytes := (cmac none).bytes.take 16 ++ leBytes 4 0 ++ (cmac none).bytes.drop 20 }
    ((g (cmac (some 0))).dev.ceRunning 0 = some (cmac (some 0)) ∧ ((g (cmac (some 0))).dev.ceRun 0 (cmac (some 0))).2 = .ok) ∧
      ((g v).dev.ceRunning 0 = some v ∧ ((g v).dev.ceRun 0 v).2 = .authFail ∧ v.outLen = 0) ∧
      ((g f).dev.ceRunning 0 = some f ∧ ((g f).dev.ceRun 0 f).2 ≠ .ok ∧ ((g f).dev.ceRun 0 f).2 ≠ .authFail) := by decide +kernel

/-- The device of `ce` with one request. -/
def Slice0.run (q : CeReq) : Dev := (Slice0.ce [] [] fun d => { d with sec := { d.sec with queue := [q] } }).dev

open Slice0 in
theorem test_hyp_runsEnd :
    let q := cmac (some 0)
    ((((run q).ceRun 0 q).1.ceCount 0 q.ops).ceFinish q .ok (q.op == 2 && q.level == 4)).ml.ptOp = none := by decide +kernel

open Slice0 in
theorem test_hyp_runsReject :
    let v := { cmac (some 0) with bytes := 4 :: (cmac none).bytes.drop 1 }
    (((((run v).ceRun 0 v).1.ceCount 0 v.ops).ceReject v.pocket v.streamed).ceFinish v .authFail false).ml.ptOp = none := by decide +kernel

open Slice0 in
/-- However many operations of the stopped request were done. -/
theorem test_hyp_runsFail :
    let f := { cmac (some 0) with bytes := (cmac none).bytes.take 16 ++ leBytes 4 0 ++ (cmac none).bytes.drop 20 }
    (((run f).ceRun 0 f).1.ceStop 0 f ((run f).ceRun 0 f).2).ml.ptOp = none := by
  intro f
  have h : ∀ n < f.ops + 1, ((((run f).ceRun 0 f).1.drew.ceCount 0 n).ceAbort f ((run f).ceRun 0 f).2).ml.ptOp = none := by
    decide +kernel
  exact h _ (Nat.mod_lt _ (by omega))

open Slice0 in
theorem test_hyp_streams :
    let q := ccmDec (some 0)
    let s := ce [] [] fun d => { d with sec := { d.sec with queue := [q] } }
    let m := s.dev.ceRead 0x0A q.mAddr q.mLen
    let w := m.1.ceWrite 0x0A q.outAddr (ccmCrypt (nums (((s.dev.pocket q.pocket).keyOf q.gen).getD [])) q.nonce (nums m.2.2))
    s.dev.ceRunning 0 = some q ∧ s.dev.ceStreams q = true ∧ q.streamed = false ∧ m.2.1 = .ok ∧ w.2 = .ok ∧
      ((((w.1.ceUpdate q { q with streamed := true }).put8 0x0A (q.addr + 6)
        (leBytes 1 (CeReq.flags { q with streamed := true } false))).put8 0x0A (q.addr + 4)
          (leBytes 1 Status.notReady.code)).ceRunning 0).any (·.streamed) = true := by decide +kernel

open Slice0 in
theorem test_hyp_cipherEngines :
    let p := st [(CE_ENG, 0x0201)]
    let s := ce [] [] fun d => { d with sec := { d.sec with queue := [cmac (some 0)] } }
    let w := ce [] [] fun d => { d with sec := { d.sec with rotate := some 1 } }
    let r := (st [(CE_ENG, 0x0201)] fun d => d.unitState 0x0A 1)
    let v := (s.dev.ceRerun 0).charge 0x0A .engineFault 0
    let z := ((s.dev.mark .ceTest).set CE_EVENTS_SELFTEST_FAIL).charge 0x0B .selftestFail 0
    (p.dev.ceRole 0 = 1 ∧ p.dev.up 2 = true ∧ p.dev.sec.ready = false ∧ p.dev.waited .cePower (us 40) = true ∧ p.dev.sec.journal = [] ∧
        p.dev.sec.jErase = [] ∧ p.dev.sec.jNext < 1024) ∧
      (s.dev.ceRole 0 = 1 ∧ s.dev.ceRunning 0 = some (cmac (some 0)) ∧ (v.ceServes 0 || v.ceServes 1) = true ∧ v.ml.ptOp = none) ∧
      ((([0, 1] : List Nat).find? fun e => s.dev.ceRole e == 2) = some 1 ∧ s.dev.rd CE_ROT_PERIOD_S ≠ 0 ∧ s.dev.up 2 = true ∧
        s.dev.waited .ceTest (us (1000000 * s.dev.rd CE_ROT_PERIOD_S)) = true ∧ (z.ceServes 0 || z.ceServes 1) = true) ∧
      (w.dev.sec.rotate = some 1 ∧ w.dev.ceRole 1 = 2 ∧ w.dev.ceRole 0 = 1 ∧ w.dev.rd ⟨CE_ENG, 2, 1⟩ = 0) ∧
      (r.dev.unit 0x0A).state = 1 := by decide


/-! ### Hypotheses met: pockets -/

/-- `ce` with commands aimed at pocket 5, pocket 2 the key-encryption pocket, a 16-octet key size in pocket 5. -/
def Slice0.pck (l : List (Nat × Word)) (b : List Byte) (f : Dev → Dev := id) : State :=
  Slice0.ce ([(PCK_ARG0, 0x0205#32), (PCK_ARG1, 0x20004000), (PCK_POLICY 5, 0x1FDFFFFD)] ++ l) b f

/-- Sixteen octets of 9 with the attribute block of a 16-octet key, wrapped with sixteen octets of 7. -/
def Slice0.wrapped : List Nat :=
  [0x4B, 0x34, 0xD8, 0x94, 0x9D, 0x6D, 0x9D, 0x29, 0xA1, 0x6E, 0x4E, 0x8B, 0xF7, 0xC3, 0xA8, 0xEB,
   0x34, 0x61, 0xAC, 0x76, 0x08, 0x6F, 0x2A, 0x1D, 0xDB, 0xFA, 0x79, 0xF5, 0x0F, 0x8E, 0x8E, 0x23]

theorem test_unwrap :
    kwUnwrap (List.replicate 16 7) Slice0.wrapped = some ([1, 1, 0, 0, 0, 0, 0, 0] ++ List.replicate 16 9) := by decide +kernel

open Slice0 in
theorem test_hyp_pocketWrapped :
    let s := pck [] (octets wrapped)
    let u := s.dev.wr PCK_CMD_CALLER 9
    let r := u.rdMem 9 u.pckAddr (keyOctets (u.keySize 5) + 16)
    (opens s 9 PCK_CMD = true ∧ s.dev.pckTarget = 5 ∧ s.dev.rd PCK_CMD_PENDING = 0 ∧ s.dev.pckAdmin 9 5 = true) ∧
      (u.keySize 5 = 1 ∧ (u.pocket u.pckKek).holds = true ∧ u.allows u.pckKek 4 = true ∧ u.pckBusy 5 = false ∧ r.2.1 = .ok ∧
        r.1.persist 5 = false ∧ (r.1.pocket 5).erasing = false) ∧
      (((r.1.pocket u.pckKek).cur).elim [] fun g => nums g.key) = List.replicate 16 7 ∧ nums r.2.2 = wrapped := by decide +kernel

open Slice0 in
theorem test_hyp_pocketWrites :
    let s := pck [] []
    let u := s.dev.wr PCK_CMD_CALLER 9
    let r := u.rdMem 9 u.pckAddr (keyOctets (u.keySize 5))
    let x := r.1.wrMem 9 u.pckAddr (List.replicate (keyOctets (u.keySize 5)) 0)
    let w := st [(PCK_CMD, 0x100)]
    let d := pck [(PCK_POLICY 5, 0x19DFFFFD)] []
    let st := worse ((d.dev.wr PCK_CMD_CALLER 8).pckCheck 4) (if d.dev.pckAdmin 8 5 then .ok else .policyDenied)
    (opens w 0 PCK_CMD = true ∧ w.dev.rd PCK_CMD_PENDING = 1) ∧
      (opens d 8 PCK_CMD = true ∧ d.dev.rd PCK_CMD_PENDING = 0 ∧ st ≠ .ok ∧ st ≠ .notReady) ∧
      (opens s 9 PCK_CMD = true ∧ s.dev.pckAdmin 9 5 = true ∧ u.keySize 5 ≠ 0 ∧ u.allows 5 20 = true ∧ u.pckBusy 5 = false ∧ r.2.1 = .ok ∧
        x.2 = .ok ∧ x.1.persist 5 = false ∧ (x.1.pocket 5).erasing = false) := by decide +kernel

open Slice0 in
theorem test_hyp_pocketDraws :
    let d (p : Word) := pck [(PCK_POLICY 5, p), (PCK_ENT_STATUS, 5)] [] fun d =>
      { d with sec := { d.sec with drbgOk := true, drbgKey := List.replicate 32 1, drbgV := List.replicate 16 2 } }
    let u := (d 0x1FDFFFFD).dev.wr PCK_CMD_CALLER 9
    let v := (d 0x1FFFFFFD).dev.wr PCK_CMD_CALLER 9
    (u.keySize 5 ≠ 0 ∧ u.pckBusy 5 = false ∧ (u.drbgTake 16).2.isSome = true ∧ (u.drbgTake 16).1.persist 5 = false ∧
        ((u.drbgTake 16).1.pocket 5).erasing = false) ∧
      (v.keySize 5 ≠ 0 ∧ v.pckBusy 5 = false ∧ (v.drbgTake 16).2.isSome = true ∧ (v.drbgTake 16).1.persist 5 = true) := by
  decide +kernel

open Slice0 in
theorem test_hyp_pocketErasure :
    let k : KeyGen := { gen := 0, key := List.replicate 16 7 }
    let s := pck [] [] fun d => d.setPocket 5 { d.pocket 5 with cur := some k }
    let u := s.dev.wr PCK_CMD_CALLER 9
    let e := pck [] [] fun d => d.setPocket 5 { d.pocket 5 with erasing := true }
    let x := u.pocketKill 5
    let y := ((pck [(PCK_POLICY 5, 0x1FFFFFFD)] [] fun d => d.setPocket 5 { d.pocket 5 with cur := some k }).dev.wr PCK_CMD_CALLER 9).pocketKill 5
    ((u.pocket 5).state = 1 ∧ (u.pocket 5).cur = some k ∧ (u.pocket u.pckKek).holds = true ∧ u.allows 5 19 = true ∧
        u.allows u.pckKek 4 = true ∧ (u.pocket u.pckKek).cur.isSome = true ∧ s.dev.bound 5 (s.dev.pocket 5).cur = 0 ∧
        (u.pocket 5).state ≠ 0 ∧ x.ml.ptOp = none ∧ x.persist 5 = false) ∧
      (y.ml.ptOp = none ∧ y.persist 5 = true ∧ (y.pocket 5).cur = none) ∧
      ((e.dev.pocket 5).erasing = true ∧ (e.dev.pocket 5).cur = none ∧ (e.dev.pocket 5).old = none ∧ e.dev.persist 5 = false) := by
  decide +kernel

open Slice0 in
theorem test_hyp_eraseBound :
    let k : KeyGen := { gen := 0, key := List.replicate 16 7 }
    let q := { cmac (some 0) with bytes := [3, 5, 3, 16] ++ (cmac none).bytes.drop 4 }
    let s := pck [] [] fun d => { d.setPocket 5 { d.pocket 5 with cur := some k } with sec :=
      { (d.setPocket 5 { d.pocket 5 with cur := some k }).sec with queue := [q] } }
    (s.dev.pocket 5).state = 1 ∧ s.dev.bound 5 (s.dev.pocket 5).cur = 1 := by decide +kernel

open Slice0 in
/-- Alternating samples pass both health tests, samples of one value fail. -/
theorem test_hyp_startup :
    let l := sampleList 1024 (BitVec.ofNat 1024 ((2 ^ 1024 - 1) / 3)).toNat
    let z := sampleList 1024 (0#1024).toNat
    let a := st []
    (a.dev.up 2 = true ∧ a.dev.rd PCK_ENT_STATUS_STATE ≠ 1 ∧ a.dev.rd PCK_ENT_STATUS_STATE ≠ 3 ∧
        a.dev.rd PCK_ENT_STATUS_STARTUP_FAILS < 2) ∧
      (rctFails l false 0 || aptFails l) = false ∧ (rctFails z false 0 || aptFails z) = true := by decide +kernel

open Slice0 in
theorem test_hyp_entropy :
    let b := st [(PCK_ENT_STATUS, 1)]
    let c := st [(PCK_ENT_STATUS, 0x202)]
    let k (ok : Bool) := st [(PCK_ENT_STATUS, 5)] fun d => { d with sec := { d.sec with
      drbgOk := ok, drbgKey := List.replicate 32 1, drbgV := List.replicate 16 2, ctxKey := List.replicate 32 3, random := List.replicate 8 4 } }
    (b.dev.up 2 = true ∧ b.dev.rd PCK_ENT_STATUS_STATE = 1) ∧
      (c.dev.up 2 = true ∧ c.dev.rd PCK_ENT_STATUS_STATE ≠ 1 ∧ c.dev.rd PCK_ENT_STATUS_STARTUP_FAILS = 2) ∧
      ((k false).dev.up 2 = true ∧ (k false).dev.rd PCK_ENT_STATUS_STATE = 1 ∧ (k false).dev.sec.drbgKey ≠ [] ∧
        (k false).dev.sec.ctxKey ≠ [] ∧ (k false).dev.sec.drbgOk = false) ∧
      ((k true).dev.sec.random.length < 64 ∧ ((k true).dev.drbgTake (64 - 8)).2.isSome = true ∧ opens (k true) 0 PCK_RANDOM = true ∧
        4 ≤ (k true).dev.sec.random.length ∧ opens (k true) 0 PCK_FAILS = true) ∧
      ((st [(PCK_ENT_STATUS, 3)]).dev.rd PCK_ENT_STATUS_STATE = 3 ∧ (st [(PCK_ENT_STATUS, 3)]).dev.waited .entropy (us 10000000) = true) := by
  decide +kernel


/-! ### Hypotheses met: flash, the weave and health -/

open Slice0 in
theorem test_hyp_flashCommands :
    let s := st [(FLC_ADDR 0, 0x140600), (FLC_SRC 0, 0x20004000)]
    let p := st [(FLC_CMD 0, 0x100)]
    let o := st [(FLC_ADDR 0, 0x140600), (FLC_SRC 0, 0x20004000)] fun d => d.onBlock 0 20 fun k => { k with ptr := 5, ptrOk := true }
    let q := o.dev
    let v := st [(FLC_ADDR 0, 0x140600), (MNT_SUPPLY_STAT, 1)]
    (opens p 0 (FLC_CMD 0) = true ∧ p.dev.rd (FLC_CMD_PENDING 0) = 1) ∧
      (opens s 0 (FLC_CMD 0) = true ∧ s.dev.rd (FLC_ADDR_BLOCK 0) = 20 ∧ s.dev.rd (FLC_CMD_PENDING 0) = 0 ∧
        s.dev.flashReady 0 = true ∧ s.dev.slotLocked 0 20 = false ∧ journalLocked 0 20 = false ∧ s.dev.blockHeld 0 20 = false ∧
        srcBad (8 * s.dev.rd (FLC_SRC_ADDR 0)) 512 = false ∧ s.dev.rd (FLC_ADDR_PAGE 0) = 3 ∧ s.dev.blockSusp 0 20 = false ∧
        (s.dev.arr 0).susp = none ∧ s.dev.rd MNT_SUPPLY_STAT_WARN = 0 ∧ (s.dev.arr 0).spares ≠ []) ∧
      (o.dev.flashReady 0 = true ∧ 3 < q.pagePtr 0 20) ∧
      (v.dev.flashReady 0 = true ∧ (v.dev.arr 0).susp = none ∧ v.dev.rd MNT_SUPPLY_STAT_WARN = 1) := by decide +kernel

open Slice0 in
theorem test_hyp_flashProgram :
    let s := st [(FLC_ADDR 0, 0x140600), (FLC_SRC 0, 0x20004000)] fun d => d.onBlock 0 20 fun k => { k with ptr := 2, ptrOk := true }
    let u := (s.dev.onArr 0 fun x => { x with holder := 0 }).rebuildPtr 0 20
    let r := u.rdMem 0x13 (8 * s.dev.rd (FLC_SRC_ADDR 0)) 512
    s.dev.pagePtr 0 20 ≤ 3 ∧ r.2.1 = .ok ∧ r.1.pageBlank 0 20 3 = true := by decide +kernel

open Slice0 in
theorem test_hyp_flashRaw :
    let s := st [(FLC_ADDR 0, 0x140600), (FLC_SRC 0, 0x20004000), (WV_TEST_STAT, 1)] fun d =>
      d.onBlock 0 20 fun k => { k with ptr := 2, ptrOk := true }
    let u := (s.dev.onArr 0 fun x => { x with holder := 0 }).rebuildPtr 0 20
    let r := u.rdRaw 0x13 (8 * s.dev.rd (FLC_SRC_ADDR 0)) 640
    s.dev.rd WV_TEST_STAT_ENABLED = 1 ∧ srcBad (8 * s.dev.rd (FLC_SRC_ADDR 0)) 640 = false ∧ s.dev.pagePtr 0 20 ≤ 3 ∧ r.1 = .ok ∧
      u.pageBlank 0 20 3 = true := by decide +kernel

open Slice0 in
theorem test_hyp_flashCompletes :
    let j (op : Nat) : FlashJob := { op := op, block := 20, page := 3, data := List.replicate 512 1, chk := chkOf (List.replicate 512 1), off := 0 }
    let g (op : Nat) (l : List (Nat × Word)) := st l fun d => d.onArr 0 fun f => { f with job := some (j op) }
    let c := st [(FLC_STATE 0, 5)] fun d => d.onArr 0 fun f => { f with copy := [(8, 20, 3)], spares := [64, 65] }
    (FlashQuiet (g 1 []).dev ∧ ((g 1 []).dev.arr 0).job = some (j 1) ∧ ((g 1 []).dev.arr 0).susp = none ∧ isJournalJob (j 1) = false ∧
        3 ≤ wearLimit 15 ((g 1 []).dev.rd FLC_CFG_PGM_WEAR) ∧ (g 1 [(FLC_CFG, 0)]).dev.rd FLC_CFG_AUTO_RETIRE = 0) ∧
      (isJournalJob (j 2) = false ∧ 3 ≤ wearLimit 31 ((g 2 []).dev.rd FLC_CFG_ERS_WEAR) ∧ ((g 2 []).dev.arr 0).asked = false ∧
        ((g 2 []).dev.arr 0).failing = none) ∧
      ((g 5 [(FLC_STATE 0, 6)]).dev.rd (FLC_STATE_STATE 0) = 6 ∧ (woven 7) ≠ (g 6 [(FLC_STATE 0, 6)]).dev.unitAt
        ((g 6 [(FLC_STATE 0, 6)]).dev.pageAt 0 20 3)) ∧
      (FlashQuiet c.dev ∧ (c.dev.arr 0).copy = [(8, 20, 3)] ∧ (c.dev.arr 0).spares = [64, 65] ∧ [65].length < 4 ∧ c.dev.rd (FLC_STATE_STATE 0) = 5) := by
  decide +kernel

open Slice0 in
theorem test_hyp_flashSuspends :
    let j : FlashJob := { op := 2, block := 20, page := 0, data := [], chk := [], off := 0 }
    let s := st [(FLC_STATE 1, 2)] fun d => d.onArr 1 fun f => { f with job := some j }
    let r := st [(FLC_STATE 1, 0x23)] fun d => d.onArr 1 fun f => { f with susp := some j }
    (opens s 0 (FLC_SUSPEND 1) = true ∧ s.dev.rd (FLC_STATE_STATE 1) = 2 ∧ (s.dev.arr 1).job = some j ∧ (s.dev.arr 1).recording = false) ∧
      (opens r 0 (FLC_SUSPEND 1) = true ∧ r.dev.rd (FLC_STATE_STATE 1) = 3 ∧ (r.dev.arr 1).susp = some j ∧
        r.dev.rd MNT_SUPPLY_STAT_WARN = 0) ∧
      (opens (st []) 0 (FLC_SUSPEND 1) = true ∧ (st []).dev.rd (FLC_STATE_STATE 1) = 0) := by decide +kernel

open Slice0 in
theorem test_hyp_patrol :
    let l : List (Nat × Word) := [(WV_PATROL_CFG, 0x03E80111), (WV_PATROL_MASK, 0xFFFF), (WV_PATROL_POS, 0x10000004), (WV_LINE_CFG, 0x00010004)]
    let s := st l
    let w := { woven 9 with data := 8 }
    let d := st l fun d => d.setUnitAt (lineAddr 1 4) w
    let y := (d.dev.patrolUnit 1 (lineAddr 1 4)).1
    (s.dev.rd WV_PATROL_CFG_ENABLE = 1 ∧ s.dev.up 7 = true ∧ s.dev.rd WV_PATROL_CFG_BATCH ≤ 1 ∧
        tickStart s.dev.now (tickTimes (s.dev.rd WV_PATROL_CFG_TICK_US) 100 (s.dev.rd WV_PATROL_CFG_STEP_SHIFT)).1
          (tickTimes (s.dev.rd WV_PATROL_CFG_TICK_US) 100 (s.dev.rd WV_PATROL_CFG_STEP_SHIFT)).2 s.dev.weave.due s.dev.weave.tickMin ≠ none ∧
        s.dev.weave.retain = [] ∧ s.dev.rd WV_PATROL_POS_REGION = 1 ∧ s.dev.rd WV_PATROL_POS_LINE = 4 ∧ s.dev.walked 1 = true) ∧
      ((∀ i < 4, (s.dev.unitAt (s.dev.place (regionOf 1) (lineAddr 1 4 + 8 * i))).outcome = 0) ∧ 4 + 1 < regionLines 1) ∧
      ((d.dev.unitAt (d.dev.place (regionOf 1) (lineAddr 1 4))).outcome = 2 ∧ (d.dev.patrolUnit 1 (lineAddr 1 4)).2.worn = false ∧
        ∀ i < 3, (y.unitAt (y.place (regionOf 1) (lineAddr 1 4 + 8 * (i + 1)))).outcome = 0) := by decide +kernel

open Slice0 in
theorem test_hyp_weave :
    let s := st [(WV_SEG 0, 0x180)]
    let z := st [(WV_SEG 0, 0x100)]
    let m := st [(WV_SEG 0, 0x17F)] fun d => { d with weave := { d.weave with lines := [(0x20000100, 1)] } }
    let t := st [(WV_TEST_STAT, 1), (WV_TEST_ADDR, 0x20000100)]
    let v := st [(WV_TEST_ADDR, 0x20000100)]
    let x := st [(WV_TEST_ADDR, 0x20000100), (WV_SEG 0, 0)]
    let u := st [(WV_SEG 0, 0)]
    (opens s 0 WV_RETIRE_CMD = true ∧ s.dev.alive (.seg 0) 0x20000100 = true ∧ s.dev.rd (WV_SEG_SPARES_LEFT 0) = 128 ∧
        mapGet (fun _ => 0) s.dev.weave.lines 0x20000100 = 0) ∧
      (z.dev.alive (.seg 0) 0x20000100 = true ∧ z.dev.rd (WV_SEG_SPARES_LEFT 0) = 0) ∧
      (m.dev.alive (.seg 0) 0x20000100 = true ∧ mapGet (fun _ => 0) m.dev.weave.lines 0x20000100 ≠ 0) ∧
      (opens t 0 WV_TEST_KEY = true ∧ opens t 0 WV_TEST_CMD = true ∧ t.dev.testAddr = 0x20000100 ∧ t.dev.rd WV_TEST_STAT_ENABLED = 1 ∧
        t.dev.alive (.seg 0) 0x20000100 = true) ∧
      (opens v 0 WV_TEST_CMD = true ∧ v.dev.testAddr = 0x20000100 ∧ v.dev.rd WV_TEST_STAT_ENABLED = 0 ∧
        v.dev.alive (.seg 0) 0x20000100 = true ∧ opens x 0 WV_TEST_CMD = true ∧ x.dev.testAddr = 0x20000100 ∧
        x.dev.alive (.seg 0) 0x20000100 = false) ∧
      (u.dev.up 6 = true ∧ (u.dev.img.segUse[0]?).getD 5 ≠ 5 ∧ u.dev.rd (WV_SEG_READY 0) = 0) ∧
      (u.dev.up 5 = true ∧ mapGet (fun _ => false) u.dev.weave.scrubbed 2 = false ∧ u.dev.up 3 = true ∧
        mapGet (fun _ => false) u.dev.weave.scrubbed 0 = false) := by decide +kernel

open Slice0 in
theorem test_hyp_health :
    let t := st [(SYS_WDT_CFG 0, 1), (STR_STATUS, 8)]
    let w := st [(SYS_WDT_CFG 0, 1)]
    let u (d : State) (c : Nat) := d.dev.wr FLT_CMD_UNIT c
    let r := st [(FLT_RETIRED_LO, 0x04000000)]
    let b := st [(FLT_STATUS, 1), (MNT_SUPPLY, 0x0CE40000)]
    let p := st [(FLT_STATUS, 1)] fun d => { d with flt := { d.flt with planned := true } }
    (t.dev.wdtNear 0 0 = true ∧ t.dev.rd STR_STATUS_TRIAL = 1 ∧ w.dev.wdtNear 0 0 = true ∧ w.dev.rd STR_STATUS_TRIAL = 0) ∧
      (opens w 0 FLT_CMD = true ∧ w.dev.rd FLT_CMD_PENDING = 0 ∧ isUnit 0x50 = false ∧ isUnit 8 = true ∧ (u w 8).retired 8 = false ∧
        (u w 8).notRetirable 8 = true ∧ (u r 0x1A).retired 0x1A = true ∧ (u w 0x1A).retired 0x1A = false ∧
        (u w 0x1A).notRetirable 0x1A = false ∧ w.dev.mnt.pending = []) ∧
      (b.dev.rd FLT_STATUS_BELOW_MIN = 1 ∧ b.dev.rd MNT_STATE_STATE ≤ 1 ∧ b.dev.waited .outage (us 1000) = true ∧ b.dev.flt.planned = false ∧
        2200 ≤ b.dev.rd MNT_SUPPLY_VIN_MV) ∧
      (p.dev.rd FLT_STATUS_BELOW_MIN = 1 ∧ p.dev.rd MNT_STATE_STATE ≤ 1 ∧ p.dev.flt.planned = true ∧ p.dev.waited .planned (us 60000000) = true) := by decide +kernel


/-! ### A whole image in flash: what the clauses on a verified image need -/

/-- An image without its tag: no chain, no engine, no pad; link engine code none; every route word zero. -/
def Slice0.imgBody : List Byte :=
  let z (n : Nat) : List Byte := List.replicate n 0
  let e (t o n : Nat) : List Byte := [BitVec.ofNat 8 t, 1, 0, 0] ++ leBytes 4 o ++ leBytes 4 n ++ z 4
  leBytes 4 0x4E4C4E44 ++ leBytes 2 1 ++ leBytes 2 64 ++ leBytes 4 1024 ++ leBytes 4 7 ++ [0, 9, 0, 2] ++ z 4 ++ leBytes 4 1000 ++ z 36 ++
    e 1 208 268 ++ e 2 480 32 ++ e 5 512 256 ++ e 6 768 8 ++ e 7 776 32 ++ e 8 808 168 ++ e 0x0D 976 16 ++ e 0x10 992 8 ++ e 0x11 1000 8 ++
    z 596 ++ [4] ++ z 203

/-- A unit of eight bytes with valid check bytes. -/
def Slice0.unitOf (l : List Byte) : Unit8 := woven (BitVec.ofNat 64 (ofLe l))

/-- `n` units of a list of bytes are stored from `k` on. -/
def Slice0.burn (s : Dev) (k : Nat) : Nat → List Byte → Dev
  | 0, _ => s
  | n + 1, l => (Slice0.burn s k n l).setUnitAt (k + 8 * n) (Slice0.unitOf ((l.drop (8 * n)).take 8))

theorem Slice0.burn_flash (s : Dev) (k n : Nat) (l : List Byte) : (Slice0.burn s k n l).flash = s.flash := by
  induction n with
  | zero => rfl
  | succ n ih => rw [← ih]; exact setUnitAt_flash _ _

theorem Slice0.burn_unit (s : Dev) (k n : Nat) (l : List Byte) (i : Nat) (hk : k % 8 = 0) (h : i < n) :
    (Slice0.burn s k n l).unitAt (k + 8 * i) = Slice0.unitOf ((l.drop (8 * i)).take 8) := by
  induction n with
  | zero => omega
  | succ n ih =>
    by_cases hi : i = n
    · subst hi; exact unitAt_setUnitAt _ _
    · exact (unitAt_setUnitAt_ne _ (by omega) (by omega) (by omega)).trans (ih (by omega))

theorem Slice0.burn_else (s : Dev) (k n : Nat) (l : List Byte) (j : Nat) (hk : k % 8 = 0) (hj : j % 8 = 0)
    (h : j < k ∨ k + 8 * n ≤ j) : (Slice0.burn s k n l).unitAt j = s.unitAt j := by
  induction n with
  | zero => rfl
  | succ n ih => exact (unitAt_setUnitAt_ne _ (by omega) (by omega) hj).trans (ih (by omega))

/-- `base` with slot B armed: page 124 names the image of SEQUENCE 7. -/
def Slice0.armed : Dev := Slice0.base.setUnitAt (flashBase 1 7 + 512 * 124) (woven 7)

/-- Slot B armed, with the bytes `l`, `8 * n` of them, at its start. -/
def Slice0.slotB (n : Nat) (l : List Byte) : Dev := Slice0.burn Slice0.armed (flashBase 1 0) n l

theorem Slice0.slotB_arr (n : Nat) (l : List Byte) (a : Nat) : (Slice0.slotB n l).arr a = Slice0.base.arr a := by
  unfold Dev.arr; rw [Slice0.slotB, Slice0.burn_flash, Slice0.armed, setUnitAt_flash]

theorem Slice0.slotB_unit (n : Nat) (l : List Byte) (i : Nat) (hi : i < n) (hn : n ≤ 8192) :
    (Slice0.slotB n l).slotUnit true (8 * i) = Slice0.unitOf ((l.drop (8 * i)).take 8) := by
  have hp : (Slice0.slotB n l).place (.flash 1) (0x10400000 + 8 * i) = flashBase 1 0 + 8 * i := by
    have h1 : (0x10400000 + 8 * i - 0x10000000) % 0x400000 / 0x10000 = 0 := by omega
    have h2 : (0x10400000 + 8 * i - 0x10000000) % 0x400000 % 0x10000 = 8 * i := by omega
    have h3 := Slice0.slotB_arr n l 1
    have h4 : ((Slice0.base.arr 1).block 0).phys = 0 := by decide +kernel
    rw [Dev.place]; simp only [h1, h2, h3, h4]
  have : (Slice0.slotB n l).slotUnit true (8 * i) = (Slice0.slotB n l).unitAt ((Slice0.slotB n l).place (.flash 1) (0x10400000 + 8 * i)) := by
    simp only [Dev.slotUnit, Dev.fetchUnit, slotArr, slotBase, if_true, show 8 * i / 8 * 8 = 8 * i by omega]
  rw [this, hp]
  exact Slice0.burn_unit _ _ n l i (by decide) hi

theorem Slice0.slotB_units (n : Nat) (l : List Byte) (m : Nat) (hm : m ≤ n) (hn : n ≤ 8192) (hl : l.length = 8 * n) :
    (Slice0.slotB n l).slotUnits true 0 m = l.take (8 * m) := by
  induction m with
  | zero => simp [Dev.slotUnits]
  | succ m ih =>
    have hd : ((l.drop (8 * m)).take 8).length = 8 := by simp; omega
    have h8 : leBytes 8 (ofLe ((l.drop (8 * m)).take 8)) = (l.drop (8 * m)).take 8 := by
      have := leBytes_ofLe ((l.drop (8 * m)).take 8); rwa [hd] at this
    have hlt : ofLe ((l.drop (8 * m)).take 8) < 2 ^ 64 := by
      have := ofLe_lt ((l.drop (8 * m)).take 8); rw [hd] at this; omega
    have : (Slice0.slotB n l).slotUnits true 0 (m + 1) = (Slice0.slotB n l).slotUnits true 0 m ++
        leBytes 8 ((Slice0.slotB n l).slotUnit true (8 * m)).delivered.toNat := by
      simp only [Dev.slotUnits, List.range_succ, List.flatMap_append, Nat.zero_add]; simp
    rw [this, ih (by omega), Slice0.slotB_unit n l m (by omega) hn, Slice0.unitOf, woven_delivered, BitVec.toNat_ofNat, Nat.mod_eq_of_lt hlt, h8,
      show 8 * (m + 1) = 8 * m + 8 by omega, List.take_add]

/-! AES answers sixteen bytes. -/

theorem Slice0.xorList_bytes {a b : List Nat} (ha : ∀ x ∈ a, x < 256) (hb : ∀ x ∈ b, x < 256) : ∀ x ∈ xorList a b, x < 256 := by
  intro x hx
  simp only [xorList, List.mem_iff_getElem, List.getElem_zipWith, List.length_zipWith] at hx
  obtain ⟨i, hi, rfl⟩ := hx
  exact Nat.xor_lt_two_pow (n := 8) (ha _ (List.getElem_mem _)) (hb _ (List.getElem_mem _))

theorem Slice0.rounds_bytes (r : List (List Nat)) : ∀ b, r ≠ [] → (∀ k ∈ r, k.length = 16 ∧ ∀ x ∈ k, x < 256) →
    (cipherRounds r b).length = 16 ∧ ∀ x ∈ cipherRounds r b, x < 256 := by
  induction r with
  | nil => intro b h; exact absurd rfl h
  | cons k r ih =>
    intro b _ hk
    cases r with
    | nil =>
      have h := hk k (by simp)
      refine ⟨by simp [cipherRounds, xorList, shiftRows, h.1], Slice0.xorList_bytes ?_ h.2⟩
      intro x hx
      simp only [shiftRows, List.mem_map, List.mem_range] at hx
      obtain ⟨i, -, rfl⟩ := hx
      rw [List.getD_eq_getElem?_getD, List.getElem?_map]
      cases (b[(i + 4 * (i % 4)) % 16]?) with
      | none => exact by decide
      | some y => exact Nat.mod_lt _ (by decide)
    | cons j r => exact ih _ (by simp) (fun x hx => hk x (List.mem_cons_of_mem _ hx))

theorem Slice0.aes_bytes (key b : List Nat) (h : (roundKeys key).tail ≠ [])
    (hk : ∀ k ∈ roundKeys key, k.length = 16 ∧ ∀ x ∈ k, x < 256) : (aes key b).length = 16 ∧ ∀ x ∈ aes key b, x < 256 := by
  unfold aes
  cases hr : roundKeys key with
  | nil => simp [hr] at h
  | cons k r =>
    rw [hr] at h hk
    exact Slice0.rounds_bytes r _ (by simpa using h) (fun x hx => hk x (List.mem_cons_of_mem _ hx))

/-- The tag of the image under the key of State.reset. -/
def Slice0.imgTag : List Nat := Machine.cmac (nums (State.reset.fuses.imageKey 0)) (nums Slice0.imgBody)

/-- Slot B holding the image, its tag good. -/
def Slice0.img : List Byte := Slice0.imgBody ++ octets Slice0.imgTag

theorem Slice0.imgTag_bytes : Slice0.imgTag.length = 16 ∧ ∀ x ∈ Slice0.imgTag, x < 256 := by
  have h : (roundKeys (nums (State.reset.fuses.imageKey 0))).tail ≠ [] ∧
      ∀ k ∈ roundKeys (nums (State.reset.fuses.imageKey 0)), k.length = 16 ∧ ∀ x ∈ k, x < 256 := by decide +kernel
  exact Slice0.aes_bytes _ _ h.1 h.2

theorem Slice0.img_length : Slice0.img.length = 8 * 128 := by
  have : Slice0.imgBody.length = 1008 := by decide +kernel
  rw [Slice0.img, List.length_append, this, octets, List.length_map, Slice0.imgTag_bytes.1]

theorem Slice0.octets_nums (l : List Nat) (h : ∀ x ∈ l, x < 256) : nums (octets l) = l := by
  simp only [nums, octets, List.map_map]
  conv => rhs; rw [← List.map_id l]
  apply List.map_congr_left
  intro x hx
  simp [Nat.mod_eq_of_lt (h x hx)]

/-- A tag that is the CMAC of what stands before it is good. -/
theorem Slice0.tagGood_of (f : Fuses) {img body : List Byte} {tag : List Nat} (hi : img = body ++ octets tag)
    (ht : tag = Machine.cmac (nums (f.imageKey (imgKey img))) (nums body)) (hl : imgLen img - 16 = body.length)
    (hb : tag.length = 16 ∧ ∀ x ∈ tag, x < 256) : tagGood f img = true := by
  rw [tagGood, hl]
  subst hi
  rw [List.drop_left, List.take_left, List.take_of_length_le (by simp [octets, hb.1]), Slice0.octets_nums _ hb.2, ← ht]
  exact beq_self_eq_true _

open Slice0 in
/-- An image that passes every check of rule R52. -/
theorem Slice0.img_ok (f : Fuses) (hf : f.key0 = State.reset.fuses.key0) (h7 : f.floor ≤ 7) (hr : f.revoked0 = false) :
    (slotB 128 img).imageCheck f true = .ok := by
  have hh : (slotB 128 img).slotHeader true = img.take 64 := slotB_units 128 img 8 (by decide) (by decide) img_length
  have hu : (slotB 128 img).imgUnits true = 128 := by rw [Dev.imgUnits, hh]; decide +kernel
  have hi : (slotB 128 img).slotImage true = img := by
    rw [Dev.slotImage, hu, slotB_units 128 img 128 (by decide) (by decide) img_length, List.take_of_length_le (Nat.le_of_eq img_length)]
  have hb : (slotB 128 img).slotBroken true = false := by
    rw [Dev.slotBroken, hu, List.any_eq_false]
    intro i h
    rw [slotB_unit 128 img i (by simpa using h) (by decide), unitOf, woven_outcome]; decide
  have h2 : imgKey img = 0 := by decide +kernel
  have ht : tagGood f img = true :=
    tagGood_of f rfl (by rw [h2, Fuses.imageKey, if_pos rfl, hf]; rfl) (by decide +kernel) imgTag_bytes
  have h1 : headerOk (img.take 64) = true := by decide +kernel
  have h2 : imgSeq img = 7 ∧ imgKey img = 0 ∧ imgTarget img = 2 ∧ sectionsOk img = true ∧ imgConflict img = false := by
    decide +kernel
  rw [Dev.imageCheck]
  simp only [hh, h1, hi, hb, ht]
  simp [h2, Fuses.revoked, hr, Nat.not_lt.mpr h7]

open Slice0 in
theorem Slice0.slotB_else (n : Nat) (l : List Byte) (b : Bool) (o : Nat) (ho : o % 8 = 0) (hn : n ≤ 8192) (ho' : o < 0x80000)
    (h : b = false ∨ 0x10000 ≤ o) :
    (slotB n l).slotUnit b o = armed.unitAt (flashBase (slotArr b) (o / 0x10000) + o % 0x10000) := by
  have hp : (slotB n l).place (.flash (slotArr b)) (slotBase b + o) = flashBase (slotArr b) (o / 0x10000) + o % 0x10000 := by
    have h1 : (slotBase b + o - 0x10000000) % 0x400000 = o := by cases b <;> simp [slotBase] <;> omega
    have h4 (a : Fin 2) (k : Fin 8) : ((base.arr a).block k).phys = k := by revert a k; decide +kernel
    have h5 := h4 ⟨slotArr b, by cases b <;> decide⟩ ⟨o / 0x10000, by omega⟩
    simp only at h5
    rw [Dev.place]
    simp only [h1, slotB_arr, h5]
  have hu : (slotB n l).slotUnit b o = (slotB n l).unitAt ((slotB n l).place (.flash (slotArr b)) (slotBase b + o)) := by
    simp only [Dev.slotUnit, Dev.fetchUnit, show o / 8 * 8 = o by omega]
  rw [hu, hp]
  refine burn_else _ _ _ _ _ (by decide) (by simp only [flashBase]; omega) ?_
  cases b <;> simp only [slotArr, flashBase] at h ⊢ <;> simp at h ⊢ <;> omega

open Slice0 in
theorem Slice0.slotB_head (n : Nat) (l : List Byte) (hn : n ≤ 8192) : headerOk ((slotB n l).slotHeader false) = false := by
  have : (slotB n l).slotHeader false = (List.range 8).flatMap fun i =>
      leBytes 8 (armed.unitAt (flashBase 0 0 + 8 * i)).delivered.toNat := by
    rw [Dev.slotHeader, Dev.slotUnits, List.flatMap_def, List.flatMap_def]
    refine congrArg List.flatten (List.map_congr_left fun i hi => ?_)
    have hi : i < 8 := by simpa using hi
    rw [slotB_else n l false (0 + 8 * i) (by omega) hn (by omega) (.inl rfl), show (0 + 8 * i) / 0x10000 = 0 by omega,
      show (0 + 8 * i) % 0x10000 = 8 * i by omega, slotArr, if_neg (by decide)]
  rw [this]; decide +kernel

theorem Slice0.chosen_of (d : Dev) (f : Fuses) (e : Status) (h0 : headerOk (d.slotHeader false) = false)
    (h1 : headerOk (d.slotHeader true) = true) (h2 : d.pageNames true 124 = true) (h3 : d.pageTried true 126 = false)
    (h4 : d.imageCheck f true = .ok) : d.choose52 f d.candidates e = (some true, .ok) := by
  have hf : ∀ p : Bool → Bool, p false = false → p true = true → [false, true].filter p = [true] := by
    intro p h h'; simp only [List.filter, h, h']
  have hc : d.candidates = [true] := by
    simp only [Dev.candidates]
    rw [hf _ (by simp only [h0]; rfl) (by simp only [h1, h2, h3]; cases d.slotConfirmed true <;> rfl)]
    rfl
  rw [hc, Dev.choose52, if_pos h4]

open Slice0 in
theorem Slice0.slotB_pages (n : Nat) (l : List Byte) (hn : n ≤ 8192) :
    (imgSeq ((slotB n l).slotHeader true) = 7 → (slotB n l).pageNames true 124 = true) ∧ (slotB n l).pageTried true 126 = false := by
  have h (p : Nat) (hp : p < 128) : (slotB n l).statusPage true p = armed.unitAt (flashBase 1 7 + 512 * p) := by
    have := slotB_else n l true (0x70000 + 512 * p) (by omega) hn (by omega) (.inr (by omega))
    rwa [show (0x70000 + 512 * p) / 0x10000 = 7 by omega, show (0x70000 + 512 * p) % 0x10000 = 512 * p by omega] at this
  have h1 : (armed.unitAt (flashBase 1 7 + 512 * 124)) = woven 7 := by rw [armed, unitAt_setUnitAt]
  have h2 : (armed.unitAt (flashBase 1 7 + 512 * 126)).data.toNat = 2 ^ 64 - 1 := by decide +kernel
  refine ⟨fun hs => ?_, ?_⟩
  · simp only [Dev.pageNames, h 124 (by decide), h1, hs, woven_outcome, woven_delivered]; decide
  · simp only [Dev.pageTried, h 126 (by decide), h2]; decide

open Slice0 in
/-- Slot B is the one candidate, and is chosen. -/
theorem Slice0.img_chosen :
    (slotB 128 img).choose52 State.reset.fuses (slotB 128 img).candidates .imgNoImage = (some true, .ok) := by
  have hh : (slotB 128 img).slotHeader true = img.take 64 := slotB_units 128 img 8 (by decide) (by decide) img_length
  exact chosen_of _ _ _ (slotB_head 128 img (by decide)) (by rw [hh]; decide +kernel)
    ((slotB_pages 128 img (by decide)).1 (by rw [hh]; decide +kernel)) (slotB_pages 128 img (by decide)).2
    (img_ok _ rfl (by decide) rfl)


/-! ### Hypotheses met: the pairs and debug -/

/-- Both pairs on, Pair P running on pair 0, pair 1 a standby in the run state `r`. -/
def Slice0.prs (r : PairRun) (l : List (Nat × Word)) (f : Dev → Dev := id) : State :=
  Slice0.st ([(SYS_PAIR_STATUS, 0x81#32), (SYS_PAIR_ROT, 60)] ++ l) fun d =>
    f ((d.setPair 0 { d.pair 0 with run := .running }).setPair 1 { d.pair 1 with run := r, standby := true })

open Slice0 in
theorem test_hyp_pairRedundancy :
    let a := prs .running []
    let u := (a.dev.setPair 0 { a.dev.pair 0 with run := .halted }).set SYS_PAIR_EVENTS_MISMATCH
    let b := prs .restarting []
    let c := prs .selftest []
    let v := (c.dev.setPair 1 { c.dev.pair 1 with run := .halted }).set SYS_PAIR_EVENTS_MISMATCH
    let h := prs .running [(SYS_PAIR_EVENTS, 8)]
    ((a.dev.pair 0).run = .running ∧ u.uncounted 0 .mismatch 0 = false ∧ (u.counted (u.unit 0)).length < (u.unit 0).threshold) ∧
      ((c.dev.pair 1).run = .selftest ∧ v.uncounted 1 .mismatch 0 = false ∧ (v.counted (v.unit 1)).length < (v.unit 1).threshold) ∧
      (b.dev.pair 1).run = .restarting ∧
      (a.dev.carrier 1 = 1 ∧ a.dev.standbyUp = true ∧ (a.dev.pair 1).run = .running ∧ a.dev.rd SYS_PAIR_ROT_PERIOD_S = 60 ∧
        a.dev.waited .pairTest (us 60000000) = true) ∧
      (c.dev.carrier 1 = 1 ∧ (c.dev.pair 1).run = .selftest ∧ c.dev.waited .pairTest (us 40000) = true) ∧
      (opens h 0 SYS_PAIR_CTL = true ∧ h.dev.carrier 0 = 0 ∧ h.dev.carrier 1 = 1 ∧ h.dev.rd SYS_PAIR_EVENTS_ROTATE_DUE = 1 ∧
        h.dev.standbyUp = true) ∧ (opens a 1 SYS_PAIR_CTL = true ∧ a.dev.rd SYS_PAIR_EVENTS_ROTATE_DUE = 0 ∧ (st []).dev.standbyUp = false) := by decide +kernel

open Slice0 in
theorem test_hyp_pairRegisters :
    let a := prs .running [(SYS_ICLOCK_BASE 0, 0x10001000), (SYS_WDT_CFG 0, 0x00C80801)]
    let b := prs .running [(SYS_ICLOCK_BASE 0, 0x20001000)]
    let p := prs .running [(GPIO_EVENTS, 4), (GPIO_INT_EN, 4)] fun d =>
      d.setPair 0 { d.pair 0 with prio := [(29, 5)], enable := [(29, true)], threshold := 2 }
    let m := prs .running [(SYS_PAIR_EVENTS, 0x40)] fun d => { d with mboxFrom := 0 }
    let w := prs .running [(SYS_WDT_CFG 0, 0x00C80801)] fun d =>
      d.setWdt 0 { d.wdt 0 with due := 900, warned := false }
    let e := prs .running [(LE_STATE 3, 5)] fun d => { d with tb := { d.tb with count := 128000 } }
    let r := st [] fun d => d.unitState 9 1
    let f := prs .running [(SYS_ICLOCK_SIZE 0, 0x40000020)] fun d => d.setPair 0 { d.pair 0 with locked := [(0x10001000, 1)] }
    (f.dev.rd (SYS_ICLOCK_SIZE_FILLING 0) = 1 ∧
        f.dev.touch 0 ((f.dev.pair (f.dev.carrier 0)).locked.map fun l => (l.1, 32 * l.2)) = f.dev) ∧
    (opens a 0 (SYS_ICLOCK_SIZE 0) = true ∧ min 512 (bits (0x1000#32).toNat 5 10) = 128 ∧
        min 512 (bits (31#32).toNat 5 10) = 0 ∧ min 512 (bits (0x7FFF#32).toNat 5 10) = 512 ∧ 32 * a.dev.rd (SYS_ICLOCK_BASE_ADDR 0) = 0x10001000 ∧
        32 * b.dev.rd (SYS_ICLOCK_BASE_ADDR 0) = 0x20001000) ∧
      (opens p 0 plicClaimAddr = true ∧ p.dev.plicOf 0 = 0 ∧ p.dev.irqBest 0 = 29) ∧
      (opens m 1 SYS_MBOX = true ∧ m.dev.mboxFrom < 2 ∧ opens a 0 (SYS_WDT_KICK 0) = true ∧ a.dev.rd (SYS_WDT_CFG_ENABLE 0) = 1) ∧
      (w.dev.wdtNear 0 (w.dev.wdtLead 0) = true ∧ e.dev.leStuck 3 = true ∧ (st []).dev.up 2 = true ∧ (r.dev.unit 9).state = 1) := by decide +kernel

open Slice0 in
theorem test_hyp_debug :
    let l := st []
    let d (x : List (Nat × Word)) := prs .running [] fun d =>
      { d with boot := { d.boot with debug := true }, dbg := { d.dbg with active := true, regs := x } }
    let s := d [(0x38, 0x00140000)]
    let r := (s.dev.setDm 0x39 0x20000000).oneBurst s.fuses 0x14 0x20000000 (.read 4)
    l.dev.boot.debug = false ∧ ((d []).dev.boot.debug = true ∧ (d []).dev.dbg.active = true ∧ (0x80000001#32).getLsbD 0 = true ∧
        (0x80000001#32).getLsbD 28 = false ∧ (0x80000001#32).getLsbD 31 = true ∧ (d []).dev.hartUp 0 = true ∧
        (0x40000001#32).getLsbD 31 = false ∧ (0x40000001#32).getLsbD 30 = true ∧
        (0x20000001#32).getLsbD 29 = true ∧ (d []).dev.dbg.hartReset = false ∧ ((d []).dev.pair 0).run ≠ .off ∧
        (0x20000001#32).getLsbD 1 = false ∧ (3#32).getLsbD 1 = true ∧ (d []).dev.dbg.resetReq = false) ∧
      (bitOf (s.dev.dm 0x38) 20 = true ∧ bitOf (s.dev.dm 0x38) 16 = false ∧ bits (s.dev.dm 0x38) 12 3 = 0 ∧
        bits (s.dev.dm 0x38) 17 3 = 2 ∧ r.2.2.1 = .ok) := by decide +kernel


/-! ### Hypotheses met: timers -/

/-- No trigger line wired, timer 3 with the control word `c`, its channel 1 configured by `g`. -/
def Slice0.gt (c g : Word) (l : List (Nat × Word)) (f : Dev → Dev := id) : State :=
  Slice0.st ((List.range 16).map (fun l => (GT_TRIG l, 0xFF#32)) ++ [(GT_CTRL 3, c), (GT_CFG 3 1, g)] ++ l) f

open Slice0 in
theorem test_hyp_timerEvents :
    let a := gt 1 0x0D [(GT_STATUS 3, 1)] fun d => (d.setTimer 3 { d.timer 3 with cnt := 5, reload := 100 }).setGtc 3 1 { d.gtc 3 1 with val := 9 }
    let w := gt 1 0x0D [(GT_TRIG 2, 0x3)]
    let b := gt 1 0x42 []
    let r := gt 1 0x42 [] fun d => d.setGtc 3 1 { d.gtc 3 1 with reading := true }
    let h := gt 1 0x42 [] fun d => d.setGtc 3 1 { d.gtc 3 1 with reading := true, hold := some 4 }
    (¬ NoLines w.dev ∧ w.dev.gtCounts 3 = true) ∧
      (NoLines a.dev ∧ a.dev.gtCounts 3 = true ∧ a.dev.rd (GT_CFG_MODE 3 1) = 1 ∧ (a.dev.timer 3).cnt < (a.dev.gtc 3 1).val ∧
        (a.dev.gtc 3 1).val ≤ (a.dev.timer 3).reload) ∧
      (NoLines b.dev ∧ b.dev.up 1 = true ∧ b.dev.rd (GT_CFG_MODE 3 1) = 2 ∧ b.dev.rd (GT_CFG_EDGE 3 1) = 2 ∧
        b.dev.rd (GT_CFG_EPSC 3 1) ≤ (b.dev.gtc 3 1).edges ∧ (b.dev.gtc 3 1).reading = false) ∧
      ((r.dev.gtc 3 1).reading = true ∧ (r.dev.gtc 3 1).hold = none ∧ (h.dev.gtc 3 1).hold ≠ none) := by decide +kernel

open Slice0 in
theorem test_hyp_timerAccess :
    let s := gt 0 1 []
    let p := gt 3 0x100001 []
    let r := gt 1 2 [] fun d => d.setGtc 3 1 { d.gtc 3 1 with reading := true }
    (opens s 0 (GT_RELOAD_LO 3) = true ∧ s.dev.rd (GT_CTRL_PRELOAD 3) = 0 ∧ p.dev.rd (GT_CTRL_PRELOAD 3) = 1) ∧
      (opens s 0 (GT_CNT_LO 3) = true ∧ s.dev.rd (GT_CTRL_EN 3) = 0 ∧ p.dev.rd (GT_CTRL_EN 3) = 1) ∧
      (opens s 0 (GT_VAL_LO 3 1) = true ∧ s.dev.rd (GT_CFG_MODE 3 1) ≠ 2 ∧ s.dev.rd (GT_CFG_CC_PRELOAD 3 1) = 0 ∧
        p.dev.rd (GT_CFG_CC_PRELOAD 3 1) = 1 ∧ r.dev.rd (GT_CFG_MODE 3 1) = 2) ∧
      (opens r 0 (GT_VAL_HI 3 1) = true ∧ (r.dev.gtc 3 1).reading = true) := by decide +kernel


/-! ### Hypotheses met: power -/

open Slice0 in
theorem test_hyp_powerInRun :
    let a := st [(MNT_DOMAIN_ALLOW, 0x7CF#32)]
    let b := st [(MNT_DOMAIN_ALLOW, 0x7FF#32)] fun d => d.onSec fun x => { x with cmd := some (1, 2) }
    let o := st [(MNT_DOMAIN_ALLOW, 0x7FF#32), (MNT_DOMAIN_STAT, 5#32)]
    let w (v : Nat) := v % 2048 / 2 * 2 + 1
    (opens a 0 MNT_DOMAIN = true ∧ bitOf (w 0x22) 5 = true ∧ bitOf (a.dev.rd MNT_DOMAIN_ALLOW_ALLOW) 5 = false) ∧
      (opens b 0 MNT_DOMAIN = true ∧ b.dev.rd MNT_DOMAIN_ALLOW_ALLOW = 0x7FF ∧ b.dev.rd MNT_STATE_LIMP = 0 ∧ keepsR35 (w 0x122) = false ∧
        keepsR35 (w 2) = true ∧ bitOf (w 2) 2 = false ∧ b.dev.disp 2 ≠ 0 ∧ b.dev.domainBusy 2 = true) ∧
      (opens o 0 MNT_DOMAIN = true ∧ keepsR35 (w 0x7FE) = true ∧ (∀ n < 11, 2 ≤ n → bitOf (w 0x7FE) n = true) ∧
        ∀ n ∈ [8, 9], bitOf (w 0x7FE) n = true ∨ o.dev.disp n = 0) := by decide +kernel

open Slice0 in
theorem test_hyp_supply :
    let r := st []
    let x := st [] fun d => d.onMnt fun m => { m with stage := .run, slowXtal := true, xtalStart := true }
    let j : FlashJob := { op := 2, block := 9, page := 0, data := [], chk := [], off := 0 }
    let e := st [(FLC_STATE 1, 2)] fun d => (d.setArr 1 { d.arr 1 with job := some j }).onMnt fun m => { m with stage := .run }
    let w := st [(MNT_SUPPLY_STAT, 3)]
    let y := (st [] fun d => (d.set TREF_STATUS_SLOW_ON_RC).onMnt fun m => { m with slowXtal := true })
    (r.dev.rd MNT_STATE_STATE = 0 ∧ r.dev.waited .vin (us 100) = true) ∧ (x.dev.rd MNT_SUPPLY_STAT_WARN = 0 ∧ x.dev.mnt.stage = .run ∧
        (∀ p < 2, (x.dev.path p).going = none ∧ x.dev.cutNow p true = false) ∧ (∀ a < 2, x.dev.rd (FLC_STATE_STATE a) ≠ 2)) ∧
      (e.dev.rd (FLC_STATE_STATE 1) = 2 ∧ e.dev.rd (FLC_STATE_STATE 0) ≠ 2 ∧ (e.dev.arr 1).job = some j ∧
        (e.dev.arr 1).recording = false ∧ e.dev.mnt.stage = .run ∧ ∀ p < 2, (e.dev.path p).going = none ∧ e.dev.cutNow p true = false) ∧
      (w.dev.rd MNT_SUPPLY_STAT_WARN = 1 ∧ w.dev.rd MNT_SUPPLY_STAT_RECOVERING = 1 ∧ w.dev.waited .recover (us 1000) = true ∧ ∀ a < 2, (w.dev.arr a).susp = none) ∧
      (x.dev.mnt.xtalStart = true ∧ x.dev.waited .xtal (us 2000000) = true ∧ x.dev.rd TREF_STATUS_SLOW_ON_RC = 0) ∧
      (y.dev.rd TREF_STATUS_SLOW_ON_RC = 1 ∧ y.dev.mnt.slowXtal = true) := by decide +kernel

/-- The device with the mantle in a stage towards a target, MNT_STATE holding a word. -/
def Slice0.mn (g : Stage) (target : Nat) (w : Word) (l : List (Nat × Word)) : State :=
  Slice0.st ([(MNT_STATE, w)] ++ l) fun d => d.onMnt fun m => { m with stage := g, target := target }

open Slice0 in
theorem test_hyp_sleepEntry :
    let r := mn .run 0 0 []
    let p := mn .deferred 2 0x4000 []
    let l := mn .run 0 0 [(MNT_WAKE_EN, 0x800), (MNT_SUPPLY_STAT, 1)]
    let e := st [] fun d => d.onImg fun i => { i with saveExt := [(0x20000000, 500)] }
    let q := mn .deferred 2 0x4000 [(MNT_WAKE_EN, 0x800), (MNT_SUPPLY_STAT, 1)]
    let b := st [(MNT_STATE, 0x4000)] fun d =>
      (d.onMnt fun m => { m with stage := .deferred, target := 2 }).onSec fun x => { x with cmd := some (1, 2) }
    let z := mn .deferred 1 0x4000 []
    let f := st [(MNT_SNIFF, 0), (SLV_CTRL 0, 1), (SLV_ASSIGN 0, 1)] fun d => d.setBand (d.slvBand 0) { d.band (d.slvBand 0) with savedOk := true }
    let g := mn .committed 2 2 [(MNT_WAKE_EN, 0x200)]
    let c := mn .copying 4 0x4000 [(MNT_DOMAIN_STAT, 0x105555)]
    let d := st [(MNT_STATE, 1), (MNT_WAKE_EN, 0x800), (MNT_SUPPLY_STAT, 1), (MNT_DOMAIN_STAT, 0x1553D5)] fun d =>
      (d.onMnt fun m => { m with stage := .doze }).setPair 0 { d.pair 0 with run := .stopped }
    let h := st [] fun d => { d with dbg := { d.dbg with halted := [(8, true)] } }
    (opens h 0 MNT_ENTER = true ∧ h.dev.rd MNT_STATE_ENTRY_PENDING = 0 ∧ h.dev.rd STR_CMD_PENDING = 0 ∧ h.dev.hartHalted 8 = true ∧
        h.dev.levels = []) ∧
    (opens r 0 MNT_ENTER = true ∧ opens r 1 MNT_ENTER = true ∧ r.dev.rd MNT_STATE_ENTRY_PENDING = 0 ∧ r.dev.rd STR_CMD_PENDING = 0 ∧
        r.dev.sniffFit = false ∧ r.dev.hartHalted 8 = false ∧ r.dev.fixedBytes + r.dev.extBytes ≤ 4096 ∧ r.dev.levels = []) ∧
      (opens p 0 MNT_ENTER = true ∧ p.dev.rd MNT_STATE_ENTRY_PENDING = 1 ∧ p.dev.deferred = false ∧ p.dev.levels = [] ∧
        p.dev.seRuns = false) ∧
      (opens l 0 MNT_ENTER = true ∧ l.dev.levels ≠ [] ∧ l.dev.fixedBytes + l.dev.extBytes ≤ 4096) ∧
      (q.dev.deferred = false ∧ q.dev.mnt.target ≠ 1 ∧ q.dev.levels ≠ []) ∧ (z.dev.mnt.stage = .deferred ∧ z.dev.deferred = false) ∧
      (f.dev.sniffFit = true ∧ f.dev.rd STR_CMD_PENDING = 0) ∧
      (g.dev.mnt.stage = .committed ∧ g.dev.waited .stage (us 61) = true ∧ g.dev.levels = [] ∧ g.dev.isLevel 9 = true ∧ g.dev.wakeOn 9 = true) ∧ (b.dev.mnt.stage = .deferred ∧ b.dev.deferred = true) ∧
      (c.dev.mnt.stage = .copying ∧ c.dev.disp 9 = 0 ∧ c.dev.disp 8 = 0) ∧
      (d.dev.mnt.stage = .doze ∧ d.dev.levels ≠ [] ∧ d.dev.disp 3 = 3 ∧ d.dev.disp 4 = 3) ∧ (e.dev.rd MNT_STATE_ENTRY_PENDING = 0 ∧ 4096 < e.dev.fixedBytes + e.dev.extBytes) := by decide +kernel

open Slice0 in
theorem test_hyp_wake :
    let s (g : Stage) (i : Nat) := mn g 2 2 [(MNT_WAKE_EN, BitVec.ofNat 32 (2 ^ i))]
    let r := st [(MNT_STATE, 4), (MNT_LADDER, 0x02000000)] fun d => d.onMnt fun m => { m with stage := .regulators, tries := 3 }
    let f := st [(MNT_STATE, 4), (MNT_LADDER, 0x07000000)] fun d => d.onMnt fun m => { m with stage := .regulators, tries := 3 }
    let u (x : State) := ((x.dev.bump MNT_LADDER_REG_FAILS).wr MNT_STATE_STATE 4).charge 8 .regFail 0
    let o := st [(MNT_STATE, 2), (MNT_DOMAIN_STAT, 0x005555)] fun d => d.onMnt fun m => { m with stage := .oscillator, tries := 4 }
    let k := mn .asleep 2 2 [(MNT_WAKE_EN, 0x800), (MNT_SUPPLY_STAT, 1)]
    let b := st [(MNT_LADDER, 0x00010000)] fun d => d.onMnt fun m => { m with stage := .backoff }
    let w := mn .waking 2 2 []
    let l := mn .run 0 0x8000 []
    let n := mn .asleep 3 3 []
    let e := st [(MNT_STATE, 3)] fun d => d.onMnt fun m => { m with stage := .window }
    let m := st [(MNT_STATE, 3)] fun d => { (d.onMnt fun m => { m with stage := .window }) with waits := [(.listen, 2 ^ 48 - 800000)] }
    let v := st [(MNT_STATE, 3)] fun d => d.onMnt fun m => { m with stage := .window, sniffSync := true }
    ((s .copying 9).dev.wakeOn 9 = true ∧ (s .deferred 8).dev.wakeOn 9 = false ∧ (s .committed 12).dev.isLevel 12 = false ∧
        (s .committed 12).dev.wakeOn 12 = true ∧ (s .doze 9).dev.wakeOn 9 = true ∧ 11 ∈ k.dev.levels ∧ k.dev.wakeOn 11 = true ∧ (s .asleep 9).dev.sourceHeld 9 = true ∧
        (s .asleep 9).dev.wakeOn 8 = false) ∧
      (r.dev.rd MNT_STATE_STATE = 4 ∧ (u r).rd MNT_LADDER_REG_FAILS = 3 ∧ (u f).rd MNT_LADDER_REG_FAILS = 8 ∧ r.dev.waited .stage 0 = true ∧ r.dev.waited .stage (us 500) = true) ∧
      (b.dev.mnt.stage = .backoff ∧ b.dev.waited .stage (us (1000000 * b.dev.rd MNT_LADDER_BACKOFF_S)) = true) ∧
      (o.dev.mnt.stage = .oscillator ∧ o.dev.rd MNT_STATE_LIMP = 0 ∧ o.dev.up 8 = false ∧ o.dev.up 9 = false ∧
        o.dev.waited .stage (us 4000) = true ∧ o.dev.waited .stage (us 200) = true) ∧
      (w.dev.mnt.stage = .waking ∧ w.dev.img.loaded = true ∧ w.dev.saveBroken w.dev.mnt.savedLen = false ∧ w.dev.rd MNT_STATE_STATE < 4) ∧
      (opens l 0 MNT_LADDER = true ∧ l.dev.rd MNT_STATE_LIMP = 1 ∧ opens l 0 MNT_SEAM = true) ∧
      (n.dev.mnt.stage = .asleep ∧ n.dev.rd MNT_STATE_STATE = 3 ∧ n.dev.waited .sniff n.dev.sniffEvery = true) ∧
      (v.dev.mnt.stage = .window ∧ v.dev.mnt.sniffSync = true) ∧ (m.dev.mnt.stage = .window ∧ m.dev.listened = true) ∧
      (e.dev.mnt.stage = .window ∧ e.dev.listened = false) ∧
      (regFind TREF_CTRL).isSome = true := by decide +kernel


/-! ### Hypotheses met: boot and structure -/

open Slice0 in
theorem test_hyp_imageBoot :
    let r := st []
    let h := st [] fun d => (d.onBoot fun b => { b with held := true, rise := true })
    let c (l : List Bool) := st [] fun d => d.onBoot fun b => { b with select := some { cands := l, full := false, auto := false, last := 0 } }
    let k := st [] fun d => d.onBoot fun b => { b with loading := some true }
    let f := st [(STR_STATUS, 9), (STR_SEQ, 7)]
    (∀ a < 2, (r.dev.arr a).job = none ∧ (r.dev.arr a).susp = none) ∧
      (h.dev.boot.held = true ∧ h.dev.boot.rise = true ∧ h.fuses.floor < 2 ^ 32 ∧
        r.dev.boot.held = false) ∧
      (r.dev.rd STR_STATUS_LOCKED = 0 ∧ (st [(STR_CONFIRM, 0)]).dev.boot.rise = false) ∧
      ((c [true]).dev.boot.select.isSome = true ∧ (c [true]).dev.imageCheck State.reset.fuses true ≠ .ok ∧ (c [true, false]).dev.imageCheck State.reset.fuses true ≠ .ok) ∧
      (k.dev.boot.loading = some true ∧ k.dev.boot.select = none ∧ r.dev.boot.loading = none) ∧
      (opens f 0 STR_CONFIRM = true ∧ f.dev.rd STR_STATUS_CONFIRMED = 0 ∧ f.dev.rd STR_STATUS_LOADER_STATE = 0 ∧
        f.dev.rd STR_STATUS_LOCKED = 1 ∧ f.fuses.raises < 128 ∧ r.dev.rd STR_STATUS_LOCKED = 0) := by decide +kernel

/-- The block with the operation `op` of STR_CMD at the stage `g`. -/
def Slice0.so (op : Nat) (g : OpStage) (l : List (Nat × Word)) (f : Boot → Boot := id) : State :=
  Slice0.st l fun d => d.onBoot fun b => f { b with op := some { op := op, slot := true, auto := false, ini := 0, stage := g } }

open Slice0 in
theorem test_hyp_restructure :
    let r := st [(STR_STATUS, 1)]
    let p := st [(STR_CMD, 0x100)]
    let j := st [(PRS_STATUS, 8)]
    let w := so 4 .window [(PRS_STATUS, 2)] fun b => { b with press := some true }
    (opens r 0 STR_CMD = true ∧ r.dev.rd STR_CMD_PENDING = 0 ∧ r.dev.rd PRS_STATUS_WAITING = 0 ∧ r.dev.boot.op = none ∧
        r.dev.boot.imgErase = none ∧ r.dev.rd STR_STATUS_LOCKED = 1 ∧ r.dev.rd STR_STATUS_EXEC_SLOT = 0 ∧ r.dev.granted = false) ∧
      (opens p 0 STR_CMD = true ∧ p.dev.rd STR_CMD_PENDING = 1) ∧
      (opens j 0 STR_CMD = true ∧ j.dev.granted = true ∧ j.dev.sec.queue = [] ∧ j.dev.rd STR_STATUS_LOCKED = 0) ∧
      ((so 1 .verify []).dev.imageCheck State.reset.fuses true ≠ .ok ∧ (so 1 .verify []).dev.boot.op.isSome = true) ∧
      (w.dev.mnt.stage ≠ .wakeFailed ∧ w.dev.boot.press = some true ∧ w.dev.rd PRS_STATUS_WAITING = 1 ∧ w.dev.boot.imgErase = none) ∧
      ((so 2 .boundary []).dev.boot.op.isSome = true ∧ (so 2 .boundary []).fuses.raises < 128) := by decide +kernel

open Slice0 in
theorem test_hyp_seal :
    let b (m p : Nat) := st [] fun d => (d.onBoot fun b => { b with mismatches := m }).wr PRS_STATUS_SEAL_POLICY p
    let w := st [] fun d => d.onMnt fun m => { m with stage := .wakeFailed }
    let e := st [(PRS_STATUS, 2)] fun d => d.onBoot fun b => { b with imgErase := some true }
    ((b 2 1).dev.rd PRS_STATUS_SEAL_POLICY = 1 ∧ (b 3 1).dev.boot.mismatches = 3 ∧ (b 3 2).dev.rd PRS_STATUS_SEAL_POLICY = 2 ∧ (b 2 1).dev.boot.mismatches < 3) ∧ ((b 3 2).dev.boot.mismatches = 3 ∧ (b 3 2).dev.sec.queue = []) ∧
      (st []).dev.rd PRS_STATUS_SEAL_POLICY = 0 ∧ w.dev.mnt.stage = .wakeFailed ∧ (st []).dev.boot.press ≠ some true ∧
      (e.dev.rd PRS_STATUS_WAITING = 1 ∧ e.dev.boot.imgErase = some true) := by decide +kernel

open Slice0 in
/-- The device with the good image in slot B, its boot state as `f` says and an image in force or none. -/
def Slice0.good (n : Bool) (f : Boot → Boot) : Dev := ((slotB 128 img).onBoot f).onImg fun i => { i with loaded := n }

theorem Slice0.good_check (n : Bool) (f : Boot → Boot) : (Slice0.good n f).imageCheck State.reset.fuses true = .ok :=
  have h : ∀ (d : Dev) (g : Image → Image), ((d.onBoot f).onImg g).imageCheck State.reset.fuses true = d.imageCheck State.reset.fuses true :=
    fun _ _ => rfl
  (h _ _).trans (Slice0.img_ok _ rfl (by decide) rfl)

/-- An operation of STR_CMD on slot B in its verification. -/
def Slice0.verifyOp (op : Nat) (auto : Bool) : StrOp := { op := op, slot := true, auto := auto, ini := 0, stage := .verify }

theorem Slice0.good_choose (n : Bool) (f : Boot → Boot) :
    (Slice0.good n f).choose52 State.reset.fuses (Slice0.good n f).candidates .imgNoImage = (some true, .ok) :=
  have h : ∀ (d u : Dev) l e, (∀ b, u.imageCheck State.reset.fuses b = d.imageCheck State.reset.fuses b) →
      u.choose52 State.reset.fuses l e = d.choose52 State.reset.fuses l e := by
    intro d u l
    induction l with
    | nil => intro e _; rfl
    | cons b r ih => intro e g; simp only [Dev.choose52, g, ih _ g]
  have k : ∀ (d : Dev) (g : Image → Image), ((d.onBoot f).onImg g).choose52 State.reset.fuses ((d.onBoot f).onImg g).candidates .imgNoImage =
      d.choose52 State.reset.fuses d.candidates .imgNoImage := fun _ _ => h _ _ _ _ fun _ => rfl
  (k _ _).trans Slice0.img_chosen

open Slice0 in
/-- The clauses on an image that passes: the boot selection, an arm with its grant, a warm restructure with none in force, a full
restructure that waits for presence, its slot named and chosen. -/
theorem test_hyp_imageGood :
    let b := good true fun b => { b with select := some { cands := [true], full := false, auto := false, last := 0 } }
    let v (op : Nat) (auto : Bool) := good false fun b => { b with op := some (verifyOp op auto), imgGrant := if op = 1 then [true] else [] }
    (b.boot.select.isSome = true ∧ b.imageCheck State.reset.fuses true = .ok) ∧
      (∀ op auto, (v op auto).imageCheck State.reset.fuses true = .ok ∧ (v op auto).boot.op = some (verifyOp op auto)) ∧
      ((v 1 false).boot.imgGrant = [true] ∧ (v 2 false).img.loaded = false ∧ (v 3 false).granted = false ∧ (v 3 true).granted = false) ∧
      (v 3 true).choose52 State.reset.fuses (v 3 true).candidates .imgNoImage = (some true, .ok) := by
  refine ⟨⟨rfl, good_check _ _⟩, fun op auto => ⟨good_check _ _, rfl⟩, ⟨rfl, rfl, by decide +kernel, by decide +kernel⟩, good_choose _ _⟩


/-! ### Hypotheses met: wired links and the switch -/

open Slice0 in
theorem test_hyp_wiredLinks :
    let m := Slice0.st [(WL_STATUS 1, 4), (WL_STATUS 0, 4), (FSW_RING, 0x43)]
    let f := Slice0.st [(WL_STATUS 0, 0x0C), (WL_CFG 0, 0x05F20015), (WL_FALLBACK 0, 0x0101), (FSW_RING, 0)]
    let o := Slice0.st [(MNT_SEAM, 0x20)]
    let a := Slice0.st [(WL_STATUS 0, 3)]
    let x := Slice0.st [(WL_STATUS 0, 5)]
    let c := Slice0.st [(WL_STATUS 0, 2), (WL_CFG 0, 0x05F20005)]
    let d := Slice0.st [(WL_STATUS 0, 1)] fun d => d.setLink 0 { d.link 0 with settling := true }
    (x.dev.rd (WL_STATUS_STATE 0) = 5 ∧ x.dev.waited (.txFault 0) (us 100000) = true) ∧ (m.dev.sfpSees = true ∧ o.dev.sfpSees = false ∧ d.dev.waited (.module 0) (us 300000) = true ∧
        (a.dev.rd (WL_STATUS_STATE 0) = 3 ∧ a.dev.waited (.an 0) (us 500000) = true) ∧
        (c.dev.rd (WL_STATUS_STATE 0) = 2 ∧ c.dev.rd (WL_CFG_RATE 0) = 2 ∧ c.dev.rd (WL_STATUS_FALLEN 0) = 0 ∧
          c.dev.waited (.search 0) (us 20000) = true)) ∧
      (∀ g, g < 4 → (Slice0.st [(WL_STATUS 0, 2), (WL_CFG 0, 1), (FSW_RING, BitVec.ofNat 32 g)]).dev.rd FSW_RING_MODE = g) ∧
      ((Slice0.st [(WL_STATUS 0, 2), (WL_CFG 0, 9)]).dev.rd (WL_CFG_AN_EN 0) = 1) ∧
      (m.dev.rd (WL_STATUS_STATE 0) = 4 ∧ m.dev.rd (WL_STATUS_STATE 1) = 4 ∧ m.dev.rd FSW_RING_MODE = 3 ∧
        m.dev.rd FSW_RING_ACTIVE_VALID = 1 ∧ m.dev.rd FSW_RING_ACTIVE = 0 ∧ m.dev.io.egress = [] ∧ m.dev.rd (WL_STATUS_LOS 0) = 0 ∧
        m.dev.rd (WL_STATUS_MOD_ABS 0) = 0) ∧
      (f.dev.rd (WL_STATUS_STATE 0) = 4 ∧ f.dev.rd (WL_CFG_RATE 0) = 2 ∧ f.dev.rd (WL_CFG_FALLBACK_EN 0) = 1 ∧
        f.dev.rd (WL_STATUS_RATE_NOW 0) = 1 ∧ max 1 (f.dev.rd (WL_FALLBACK_LOSSES 0)) ≤ 1) ∧
      ((d.dev.link 0).settling = true ∧ d.dev.rd (WL_STATUS_STATE 0) = 1 ∧ d.dev.up 10 = true) := by decide +kernel

/-- A frame of 60 octets and its FCS: destination, source, EtherType and the first octets behind it. -/
def Slice0.frame (dst src : List Byte) (type : Nat) (d : List Byte) : List Byte :=
  let f := padded (dst ++ src ++ beBytes 2 type ++ d)
  f ++ leBytes 4 (crc32 f)

/-- The switch enabled, both links up, a host at 2 behind port 1, the device's own address 02:00:00:00:00:09. -/
def Slice0.sw (l : List (Nat × Word)) (f : Dev → Dev := id) : State :=
  Slice0.st ([(FSW_CFG, 1#32), (WL_STATUS 0, 4), (WL_STATUS 1, 4), (WL_CFG 0, 0x05F20001), (FSW_MAC_LO, 2), (FSW_MAC_HI, 0x0900)] ++ l) fun d =>
    f { d with io := { d.io with fdb := [([4, 0, 0, 0, 0, 2], d.rd (FSW_PORT_PVID 0), 1, 0), ([4, 0, 0, 0, 0, 1], d.rd (FSW_PORT_PVID 0), 0, 0)] } }

open Slice0 in
theorem test_hyp_switchFrames :
    let s := sw []
    let o := frame [4, 0, 0, 0, 0, 2] [4, 0, 0, 0, 0, 1] 0x0800 [1, 2, 3]
    let m := frame [2, 0, 0, 0, 0, 9] [4, 0, 0, 0, 0, 1] 0x88B5 [0x10, 3]
    let f := o.take (o.length - 4)
    let g := m.take (m.length - 4)
    let w := (s.dev.bump (WL_CNT_RX_COUNT 0)).fdbLearn 0 (s.dev.vidOf 0 f) (srcOf f)
    let i := sw [] fun d => d.onImg fun i => { i with transports := 1 }
    let n := i.dev.fdbLearn 0 (s.dev.vidOf 0 g) (srcOf g)
    (s.dev.rd (WL_STATUS_STATE 0) = 4 ∧ beAt o 12 2 ≠ 0x8808 ∧ o.length = 64 ∧ o.length ≤ min 2048 (s.dev.rd (WL_CFG_MAX_LEN 0)) ∧
        o.drop f.length = leBytes 4 (crc32 f) ∧ s.dev.rd FSW_CFG_ENABLE = 1 ∧ s.dev.member 0 (s.dev.vidOf 0 f) = true ∧
        s.dev.ringShape f = false ∧ s.dev.blocked 0 = false) ∧
      (s.dev.rd FSW_CFG_CUT_THROUGH = 0 ∧ (o.set 63 0).drop f.length ≠ leBytes 4 (crc32 f) ∧ w.fdbPort (srcOf f) (s.dev.vidOf 0 f) = some 0 ∧
        (st []).dev.rd FSW_CFG_ENABLE = 0) ∧
      (dstOf f ≠ s.dev.fswMac ∧ isGroup f = false ∧ w.fdbPort (dstOf f) (s.dev.vidOf 0 f) = some 1 ∧ w.forwarding 1 = true ∧
        w.egressRoom 1 (s.dev.queueOf (s.dev.pcpOf 0 f)) (w.egressForm 1 (s.dev.vidOf 0 f) (w.pcpOf 0 f) f).length = true ∧
        w.io.egress = []) ∧
      (dstOf g = i.dev.fswMac ∧ n.isRequest g = true ∧ n.io.mx.length < 8 ∧ s.dev.isRequest g = false ∧
        i.dev.ringShape g = false) := by decide +kernel

open Slice0 in
theorem test_hyp_switchWork :
    let e := sw [] fun d => d.setEport 0 { queues := [(2, [EFrame.of [1]])], sending := some (EFrame.of [2]), hold := false }
    let r := sw [(FSW_RING, 2)] fun d => { d with io := { d.io with seen := true, streak := 2 } }
    let b := sw [(FSW_RING, 0x22)]
    let d := leBytes 8 (1 + 60 * 65536) ++ leBytes 8 0x20008000 ++ List.replicate 16 0
    let t := sw [(FSW_ITX_BASE, 0x20004000), (FSW_ITX_SIZE, 16), (FSW_ITX_WR, 1)] fun s => s.wrMem 0x10 0x20004000 d |>.1
    let a := t.dev.rdMem 0x10 0x20004000 32
    let m := a.1.rdMem 0x10 (fieldAt d 8 4) (fieldAt d 2 2)
    let v := sw [(GPIO_HOST_CFG, 0xFFFFFFFF)] fun d => { d with io := { d.io with risen := 1 } }
    ((e.dev.eport 0).sending = some (EFrame.of [2]) ∧ (e.dev.eport 0).queue 2 = [EFrame.of [1]] ∧ (e.dev.eport 0).queue 3 = []) ∧
      (r.dev.rd FSW_RING_MODE = 2 ∧ r.dev.rd FSW_RING_BLOCKED = 0 ∧ b.dev.rd FSW_RING_MODE = 2 ∧ b.dev.rd FSW_RING_BLOCKED = 1 ∧
        b.dev.io.seen = false ∧ r.dev.waited .ringCheck r.dev.checkTime = true ∧ b.dev.waited .ringSeen (3 * b.dev.checkTime) = true ∧
        e.dev.waited (.hold 0) (4 * e.dev.checkTime) = true ∧ (st []).dev.rd (WL_STATUS_STATE 0) ≠ 4 ∧ opens b 0 FSW_RING = true) ∧
      (t.dev.itxWaits = false ∧ 32 * t.dev.rd FSW_ITX_BASE_ADDR = 0x20004000 ∧ a.2.1 = .ok ∧ a.2.2 = d ∧ itxBad d = false ∧ 60 ≤ fieldAt d 2 2 ∧ itxBad (leBytes 8 (1 + 59 * 65536) ++ leBytes 8 0x20008000 ++ List.replicate 16 0) = false ∧
        fieldAt (leBytes 8 (1 + 59 * 65536)) 2 2 < 60 ∧
        fieldAt d 0 1 = 2 ^ 0 ∧ fieldAt d 1 1 % 4 = 0 ∧ fieldAt d 2 2 + 4 ≤ a.1.maxLen 0 ∧ a.1.linkIsUp 0 = true ∧ m.2.1 = .ok ∧
        m.1.egressRoom 0 0 m.2.2.length = true ∧ t.dev.rd FSW_CFG_ENABLE = 1) ∧
      (v.dev.eventDue = true ∧ b.dev.eventDue = false ∧ b.dev.io.risen = 0 ∧ v.dev.waited .event (us (v.dev.rd GPIO_HOST_CFG_MIN_GAP_US)) = true ∧
        v.dev.io.risen ≠ 0 ∧ v.dev.rd GPIO_HOST_CFG_NOTIFY_EN = 1) := by decide +kernel


/-! ### Hypotheses met: the host -/

/-- A request that waits, of `op` at `a` with COUNT `n` and data. -/
def Slice0.req (op a n : Nat) (d : List Byte) : MxReq :=
  { port := 0, src := [4, 0, 0, 0, 0, 1], tci := none, body := mxHeader op 7 a n 0 ++ d }

open Slice0 in
theorem test_hyp_hostWired :
    let q (r : MxReq) (k : List MxKept := []) := st [] fun d => d.onIo fun p => { p with mx := [r], kept := k }
    let none_ (r : MxReq) := ((q r).dev.io.kept.find? fun k => k.src == r.src && k.tag == r.tag) = none ∧ r.refusal = none
    let g := ((q (req 1 SYS_ID 2 [])).dev.onIo fun p => { p with mx := [] }).mxRun State.reset.fuses 0x10 SYS_ID false
      (List.replicate 2 none)
    let z := st [(FLC_STATE 0, 1)]
    let w := req 2 0x01000000 1 [1, 2, 3, 4]
    ((req 1 SYS_ID 0 []).refusal = some .badOp ∧ (req 1 SYS_ID 0 []).op = 1 ∧ (q (req 1 SYS_ID 2 [])).dev.io.mx.length = 1 ∧ (st []).dev.io.mx = [] ∧
        z.dev.mxStalled 0x10 0x10000000 = true ∧ z.dev.mxStalled 0x11 0x10000000 = true) ∧
      (none_ (req 1 SYS_ID 2 []) ∧ (req 1 SYS_ID 2 []).op = 1 ∧ (q (req 1 SYS_ID 2 [])).dev.mxStalled 0x10 SYS_ID = false ∧
        g.data.length = 8 ∧ g.done = 2) ∧
      (none_ w ∧ w.op = 2) ∧ (none_ (req 3 0 0 []) ∧ (req 3 0 0 []).op = 3) ∧
      ((q w [{ src := w.src, tag := 7, octets := [1] }]).dev.io.kept.find? fun k => k.src == w.src && k.tag == w.tag) =
        some { src := w.src, tag := 7, octets := [1] } := by decide +kernel

/-- CSP0 a slave of the host; `l` further registers. -/
def Slice0.hc (l : List (Nat × Word)) (f : Dev → Dev := id) : State :=
  Slice0.st ([(CSP_CFG 0, 3#32), (STR_STATUS, 1)] ++ l) fun d => f (d.onImg fun i => { i with transports := 7 })

open Slice0 in
theorem test_hyp_hostCsp :
    let s := hc []
    let x : SlvTx := { op := 2, status := .ok, flags := 0, words := 3, next := 12, silent := false }
    let t := hc [] fun d => d.setSlvTx 0 (some x)
    let l := hc [(STR_STATUS, 2)]
    let j := hc [(STR_STATUS, 2), (PRS_STATUS, 4)]
    let b := hc [(STR_STATUS, 2), (FLC_STATE 1, 2)]
    let e := hc [(STR_STATUS, 2), (PRS_STATUS, 4)] fun d =>
      (d.onBlock 0 0 fun k => { k with ptrOk := true }).onImg fun i => { i with loaded := false }
    (s.dev.slvServes 0 = true ∧ s.dev.slvTx 0 = none ∧ s.dev.imgBusy = false ∧ s.dev.mxStalled 0x11 0x01000000 = false ∧
        s.dev.rd STR_STATUS_LOADER_STATE = 0) ∧
      (t.dev.slvTx 0 = some x ∧ bitOf x.flags 0 = false) ∧
      (l.dev.rd STR_STATUS_LOADER_STATE = 1 ∧ l.dev.slvServes 0 = true ∧ l.dev.slvTx 0 = none ∧ l.dev.granted = false ∧
        l.dev.boot.op = none ∧ l.dev.rd PRS_STATUS_WAITING = 0 ∧ j.dev.granted = true ∧
        l.dev.imgCheck 0x10000000 = .presenceRequired ∧ e.dev.imgCheck 0x10000200 = .ok ∧ l.dev.imgEraseBusy true = false ∧
        (b.dev.imgEraseBusy true = true ∧ b.dev.imgBusy = false ∧ b.dev.slvServes 0 = true) ∧ (1 : Nat) ≠ 128) := by decide +kernel


/-! ### Hypotheses met: serial ports -/

open Slice0 in
theorem test_hyp_serialTransfers :
    let s := st [(CSP_CFG 3, 1), (I2C_CFG 1, 1)]
    let b := st [(CSP_STATUS 3, 1), (CSP_CFG 3, 0x05000041), (I2C_STAT 1, 0x10000)] fun d =>
      (d.setCspAct 3 (0x80000010, 0x20000000)).setI2cAct 1 0x80020350
    (opens s 0 (CSP_M_CMD 3) = true ∧ s.dev.rd (CSP_STATUS_M_BUSY 3) = 0 ∧ s.dev.rd (CSP_CFG_ENABLE 3) = 1 ∧
        s.dev.rd (CSP_CFG_ROLE 3) = 0 ∧ (0x80000010#32).toNat % 65536 ≠ 0 ∧ (0x80000010#32).getLsbD 31 = true ∧
        (0x10#32).getLsbD 31 = false) ∧
      (b.dev.rd (CSP_STATUS_M_BUSY 3) = 1 ∧ b.dev.rd (CSP_CFG_RDY_EN 3) = 1 ∧ b.dev.rd (CSP_CFG_RDY_TIMEOUT_US 3) ≠ 0) ∧
      (opens s 0 (I2C_CMD 1) = true ∧ s.dev.rd (I2C_CFG_ENABLE 1) = 1 ∧ s.dev.rd (I2C_STAT_BUSY 1) = 0) ∧
      (b.dev.rd (I2C_STAT_BUSY 1) = 1 ∧ b.dev.waited (.i2c 1) (us 25000) = true ∧ (st []).dev.rd (I2C_CFG_ENABLE 1) = 0) := by decide +kernel

open Slice0 in
theorem test_hyp_uartsAndGpio :
    let s := st [(UART_CFG 2, 3)]
    let f := st [(UART_CFG 2, 3)] fun d => (d.setUartRx 2 (List.replicate 64 5)).setUartTx 2 (List.replicate 64 6)
    let h := st [] fun d => (d.set (UART_RS485_HALF_DUPLEX 2)).set (UART_STATUS_DE 2)
    let g := st [(GPIO_TYPE0, 0xC00)] fun d => { d with img := { d.img with banks := List.replicate 9 0 } }
    ((st []).dev.rd (UART_CFG_ENABLE 2) = 0 ∧ (st [(MNT_SEAM, 0x10)]).dev.bit MNT_SEAM_HELD 4 = true ∧
        h.dev.rd (UART_RS485_HALF_DUPLEX 2) = 1 ∧ h.dev.rd (UART_STATUS_DE 2) = 1) ∧
      (s.dev.bit MNT_SEAM_HELD 4 = false ∧ s.dev.rd (UART_CFG_ENABLE 2) = 1 ∧ s.dev.rd (UART_RS485_HALF_DUPLEX 2) = 0 ∧ (s.dev.uartRx 2).length < 64 ∧
        64 ≤ (f.dev.uartRx 2).length) ∧
      (opens s 0 (UART_DATA 2) = true ∧ (s.dev.uartTx 2).length < 64 ∧ 64 ≤ (f.dev.uartTx 2).length) ∧
      (s.dev.uartRx 2 = [] ∧ s.dev.uartTx 2 = [] ∧ f.dev.uartRx 2 = 5 :: List.replicate 63 5 ∧ f.dev.uartTx 2 = 6 :: List.replicate 63 6) ∧
      (g.dev.gpioSees 5 = true ∧ g.dev.bit GPIO_IN_IN 5 = !true ∧ opens s 0 GPIO_SET = true ∧ opens s 0 GPIO_CLR = true ∧
        opens s 0 GPIO_TOGGLE = true) := by decide +kernel
end

section
/-!
SUPPORT. The refutation of ImageBoot. Its clause on IMAGE_LOAD_LOCK speaks of every state in which an image loads, but the lock does
more than set LOCKED: it takes the lasting action of every unit retired before again (`Dev.reRetire`, rule R475). The one of a sleeve
ends the frame it is in, and then the deferred writes of its assignment take effect (`Dev.slvApply`, rule R115). They are kept as
addresses with words, and the clause does not ask that those addresses are the sleeve's own registers, as the ones that the model's
commands defer are. A deferred write that names STR_STATUS opens the lock again. The state below is none that a run from reset
reaches: the clause lacks an invariant on the deferred writes.
-/

namespace Sys2Proof.Machine

/-- A frame in progress that holds neither a report entry nor a descriptor. -/
def bareFrame : RxFrame :=
  { branch := 0, diversity := false, detA := none, detB := none, tsDetect := 0, tsRef := 0, coded := false, errs := 0,
    rssi := 0, rssiA := 0, rssiB := 0, noise := 0, gain := 0, gainStep := false, lined := false, trunc := false,
    fromRing := false, mcs := 0, fcs2 := false, phr := [], psduLen := 0, white := false, staged := [], le := 0,
    arm := none, reason := 0, partner := 0xFFFF, ring := none, desc := none, control := false }

/-- The load of slot A before its lock, the journal restored before: sleeve 0 (unit 0x20, bit 0 of FLT_RETIRED_HI) was retired, and
the assignment it carries is inside a frame with a write of 0 to STR_STATUS deferred. -/
def lockUndoneState : State :=
  let loading := (Dev.reset.onBoot fun b => { b with held := false, loading := some false }).onSec fun x => { x with restored := true }
  let deferring := { Sleeve.init with frame := some bareFrame, waiting := [(STR_STATUS, 0)] }
  { State.reset with dev := (loading.setReg FLT_RETIRED_HI 1).setSleeve 0 deferring }

/-- IMAGE_LOAD_LOCK always completes, with the device of `Dev.loadLock`. -/
theorem does_imageLoadLock_iff (s : State) (P : Dev → Prop) : Does .imageLoadLock s P ↔ P (s.dev.loadLock s.fuses).1 := by
  constructor
  · rintro ⟨t, ht, -, hP⟩
    cases (ht : Host.Outcome.next _ = _)
    exact hP
  · exact fun hP => ⟨_, rfl, rfl, hP⟩

/-- The model runs the lock on that state: the deferred write comes after LOCKED is set, and LOCKED reads 0. -/
theorem loadLock_lockUndoneState_unlocked :
    (lockUndoneState.dev.loadLock lockUndoneState.fuses).1.rd STR_STATUS_LOCKED = 0 := by decide +kernel

/-- Refutes O55: on `lockUndoneState`, where slot A loads and no selection is open, IMAGE_LOAD_LOCK leaves LOCKED at 0, since the
lock retires sleeve 0 again and the write that its assignment deferred clears STR_STATUS. -/
theorem not_imageBoot : ¬ Obligations.ImageBoot := by
  unfold Obligations.ImageBoot
  intro h
  obtain ⟨-, -, -, -, -, hlock, -⟩ := h lockUndoneState
  obtain ⟨hlocked, -⟩ := (does_imageLoadLock_iff _ _).1 (hlock false rfl rfl)
  exact absurd (loadLock_lockUndoneState_unlocked.symm.trans hlocked) Nat.zero_ne_one

end Sys2Proof.Machine
end

section
/-!
SUPPORT. Phase correction, timebase step and pulses per second (rules R191 to R194): what an access that reaches its window does, what
a chain of field writes keeps, and what each operation of the time-reference port leaves in the fields and the timebase it is about.
-/

namespace Sys2Proof.Machine

/-! ### Commands that change the device alone -/

/-- A command whose meaning is an update of the device completes with that update. -/
theorem Does.of_onDev {c : Instr} {s : State} {P : Dev → Prop} {f : Dev → Dev} (hc : exec c s = onDev f s) (h : P (f s.dev)) :
    Does c s P :=
  ⟨_, hc, rfl, h⟩

/-- An access to a register window that is open to its initiator takes effect and is answered. -/
theorem Dev.guarded_of_open {s : State} {ini a : Nat} (h : Open s ini a) (f : Dev → Dev × Status × Nat) :
    s.dev.guarded ini a f = (f s.dev).1.reply ini a (f s.dev).2.1 (f s.dev).2.2 := by
  obtain ⟨w, hw⟩ := h
  simp only [Dev.guarded, hw]

/-- A command that accesses one register completes, where the register is open, with the access's effect and answer. -/
theorem Does.of_guarded {c : Instr} {s : State} {P : Dev → Prop} {ini a : Nat} {f : Dev → Dev × Status × Nat}
    (hc : exec c s = onDev (·.guarded ini a f) s) (ho : Open s ini a)
    (h : P ((f s.dev).1.reply ini a (f s.dev).2.1 (f s.dev).2.2)) : Does c s P :=
  .of_onDev hc (by rwa [Dev.guarded_of_open ho])

/-! ### What a chain of updates keeps -/

theorem Keeps.refl (s : Dev) (l : List Nat) : Keeps s s l := ⟨fun _ _ => rfl, rfl, rfl⟩

/-- An update of other records than registers and memory keeps what was kept. -/
theorem Keeps.congr {s t u : Dev} {l : List Nat} (h : Keeps s t l) (hr : u.regs = t.regs) (hm : u.mem = t.mem) (hc : u.chk = t.chk) :
    Keeps s u l := by
  obtain ⟨hreg, hmem, hchk⟩ := h
  refine ⟨fun a ha => ?_, hm.trans hmem, hc.trans hchk⟩
  rw [← hreg a ha, Dev.reg, Dev.reg, hr]

/-- A write of a field of a register named keeps all the others. -/
theorem Keeps.wr {s t : Dev} {l : List Nat} (h : Keeps s t l) (f : Fld) (v : Nat) (hf : f.addr ∈ l) : Keeps s (t.wr f v) l := by
  obtain ⟨hreg, hmem⟩ := h
  exact ⟨fun a ha => (Dev.reg_wr_ne t v fun e => ha (by rwa [e])).trans (hreg a ha), hmem⟩

theorem Keeps.reply {s t : Dev} {l : List Nat} (h : Keeps s t l) (ini a : Nat) (st : Status) (v : Nat) :
    Keeps s (t.reply ini a st v) l :=
  h.congr rfl rfl rfl

theorem Keeps.onTb {s t : Dev} {l : List Nat} (h : Keeps s t l) (f : Timebase → Timebase) : Keeps s (t.onTb f) l := h.congr rfl rfl rfl

section Device

variable (s : Dev)

@[simp] theorem Dev.onTb_rd (f : Timebase → Timebase) (g : Fld) : (s.onTb f).rd g = s.rd g := rfl

/-! ### The phase correction (rule R191) -/

theorem Dev.phaseAdj_counts (v : Word) : (s.phaseAdj v.toNat).rd TREF_PHASE_ADJ_COUNTS = v.toNat := by
  simp only [Dev.phaseAdj, Dev.onTb_rd, Dev.put_eq]
  rw [Dev.rd_wr_ne _ _ (by decide), Dev.rd_wr _ _ _ (by decide)]
  exact Nat.mod_eq_of_lt v.isLt

/-- A correction of 0 slews nothing. -/
theorem Dev.phaseAdj_slewing (v : Word) : (s.phaseAdj v.toNat).rd TREF_STATUS_SLEWING = if v = 0 then 0 else 1 := by
  have hv : v.toNat % 2 ^ 32 ≠ 0 ↔ v ≠ 0 := by simp [Nat.mod_eq_of_lt v.isLt, BitVec.toNat_eq]
  simp only [Dev.phaseAdj, Dev.onTb_rd, Dev.put_eq, hv]
  rw [Dev.rd_wr _ _ _ (by decide)]
  by_cases h : v = 0
  · rw [if_pos h, if_neg (by simpa using h), Nat.zero_mod]
  · rw [if_neg h, if_pos (by simpa using h)]; rfl

theorem Dev.phaseAdj_now (v : Nat) : (s.phaseAdj v).now = s.now := rfl

theorem keeps_phaseAdj (v : Nat) : Keeps s (s.phaseAdj v) [TREF_PHASE_ADJ, TREF_STATUS] :=
  (((Keeps.refl s _).wr TREF_PHASE_ADJ_COUNTS v (by decide)).wr TREF_STATUS_SLEWING _ (by decide)).onTb _

theorem Dev.slewEnd_counts : s.slewEnd.rd TREF_PHASE_ADJ_COUNTS = 0 := by
  simp only [Dev.slewEnd, Dev.onTb_rd, Dev.set_eq, Dev.clr_eq]
  rw [Dev.rd_wr_ne _ _ (by decide), Dev.rd_wr_ne _ _ (by decide), Dev.rd_wr _ _ _ (by decide), Nat.zero_mod]

theorem Dev.slewEnd_slewing : s.slewEnd.rd TREF_STATUS_SLEWING = 0 := by
  simp only [Dev.slewEnd, Dev.onTb_rd, Dev.set_eq, Dev.clr_eq]
  rw [Dev.rd_wr_ne _ _ (by decide), Dev.rd_wr _ _ _ (by decide), Nat.zero_mod]

theorem Dev.slewEnd_slewDone : s.slewEnd.rd TREF_EVENTS_SLEW_DONE = 1 := Dev.rd_wr _ _ _ (by decide)

theorem keeps_slewEnd : Keeps s s.slewEnd [TREF_PHASE_ADJ, TREF_STATUS, TREF_EVENTS] :=
  ((((Keeps.refl s _).wr TREF_PHASE_ADJ_COUNTS 0 (by decide)).wr TREF_STATUS_SLEWING 0 (by decide)).wr
    TREF_EVENTS_SLEW_DONE 1 (by decide)).onTb _

variable {s}

theorem Dev.slewUsed_of_slewing (hs : s.rd TREF_STATUS_SLEWING = 1) (hr : s.tb.onSlow = false) : s.slewUsed = s.slewEnd :=
  if_pos ⟨by simp [hs], by simp [hr]⟩

/-- On the slow clock no correction is used up. -/
theorem Dev.slewUsed_of_onSlow (h : s.tb.onSlow = true) : s.slewUsed = s := if_neg (by simp [h])

/-! ### The step (rule R192) -/

theorem Dev.trefStep_of_stopped (h : s.rd SE_CTRL_RUN = 0) (v : Nat) :
    s.trefStep v = ((s.onTb fun t => { t with count := tsAdd t.count (signed 32 v) }).ledgerShift (signed 32 v), .ok, 0) :=
  if_neg (by simp [h])

theorem Dev.trefStep_of_running (h : s.rd SE_CTRL_RUN = 1) (v : Nat) :
    s.trefStep v = (s.wr TREF_EVENTS_STEP_REFUSED 1, .busy, 0) :=
  if_pos (by simp [h])

/-! ### Pulses per second (rules R193 and R194) -/

theorem Dev.ppsIn_of_selected {rising : Bool} (hu : s.up 1 = true) (hen : s.rd TREF_CTRL_PPS_IN_EN = 1)
    (hedge : s.rd TREF_CTRL_EDGE = if rising then 0 else 1) (frac : Nat) :
    s.ppsIn rising frac = (s.onTb fun t => { t with cap := t.count, capFrac := frac }).wr TREF_EVENTS_PPS 1 :=
  if_pos ⟨hu, by simp [hen], by cases rising <;> simp [hedge]⟩

theorem Dev.ppsIn_of_disabled (h : s.rd TREF_CTRL_PPS_IN_EN = 0) (rising : Bool) (frac : Nat) : s.ppsIn rising frac = s :=
  if_neg (by simp [h])

theorem Dev.ppsRise_of_due (hu : s.up 1 = true) (hen : s.rd TREF_CTRL_PPS_OUT_EN = 1)
    (hc : ((s.now : Int) - (s.rd TREF_PPS_OUT_PHASE_PHASE : Nat)) % (s.ppsPeriod : Int) = 0) :
    s.ppsRise = s.onTb fun t =>
      { t with ppsOut := true, ppsEnd := tsAdd s.now (min (8 * s.rd TREF_PPS_OUT_WIDTH_WIDTH_US) (s.ppsPeriod / 2) : Nat) } :=
  if_pos ⟨hu, by simp [hen], hc⟩

theorem Dev.ppsRise_of_disabled (h : s.rd TREF_CTRL_PPS_OUT_EN = 0) : s.ppsRise = s := if_neg (by simp [h])

theorem Dev.ppsFall_of_ended (h : tsLe s.tb.ppsEnd s.now = true) : s.ppsFall = s.onTb fun t => { t with ppsOut := false } := if_pos h

theorem Dev.ppsFall_of_lasting (h : tsLe s.tb.ppsEnd s.now = false) : s.ppsFall = s := if_neg (by simp [h])

end Device

section Commands

/-! ### The commands -/

variable {s : State}

theorem does_trefPhaseAdjWrite {ini : Ini} (v : Word) (ho : Open s ini TREF_PHASE_ADJ) :
    Does (.trefPhaseAdjWrite ini v) s fun t => t.rd TREF_PHASE_ADJ_COUNTS = v.toNat ∧
      t.rd TREF_STATUS_SLEWING = (if v = 0 then 0 else 1) ∧ t.now = s.dev.now ∧ t.resp.status = .ok ∧
      Keeps s.dev t [TREF_PHASE_ADJ, TREF_STATUS] :=
  .of_guarded rfl ho ⟨s.dev.phaseAdj_counts v, s.dev.phaseAdj_slewing v, s.dev.phaseAdj_now _, rfl, (keeps_phaseAdj s.dev _).reply ..⟩

theorem does_slewDone (hs : s.dev.rd TREF_STATUS_SLEWING = 1) (hr : s.dev.tb.onSlow = false) :
    Does .slewDone s fun t => t.rd TREF_PHASE_ADJ_COUNTS = 0 ∧ t.rd TREF_STATUS_SLEWING = 0 ∧
      t.rd TREF_EVENTS_SLEW_DONE = 1 ∧ Keeps s.dev t [TREF_PHASE_ADJ, TREF_STATUS, TREF_EVENTS] := by
  refine .of_onDev rfl ?_
  rw [Dev.slewUsed_of_slewing hs hr]
  exact ⟨s.dev.slewEnd_counts, s.dev.slewEnd_slewing, s.dev.slewEnd_slewDone, keeps_slewEnd s.dev⟩

theorem does_trefStep_of_stopped {ini : Ini} (v : Word) (ho : Open s ini TREF_STEP) (h : s.dev.rd SE_CTRL_RUN = 0) :
    Does (.trefStep ini v) s fun t => t.now = unsigned 48 (s.dev.now + signed 32 v.toNat) ∧ t.resp.status = .ok ∧
      Keeps s.dev t [] := by
  refine .of_guarded rfl ho ?_
  rw [Dev.trefStep_of_stopped h]
  exact ⟨rfl, rfl, (Keeps.refl s.dev []).congr rfl rfl rfl⟩

theorem does_trefStep_of_running {ini : Ini} (v : Word) (ho : Open s ini TREF_STEP) (h : s.dev.rd SE_CTRL_RUN = 1) :
    Does (.trefStep ini v) s fun t => t.now = s.dev.now ∧ t.resp.status = .busy ∧ t.rd TREF_EVENTS_STEP_REFUSED = 1 ∧
      Keeps s.dev t [TREF_EVENTS] := by
  refine .of_guarded rfl ho ?_
  rw [Dev.trefStep_of_running h]
  exact ⟨rfl, rfl, Dev.rd_wr _ _ _ (by decide), ((Keeps.refl s.dev _).wr TREF_EVENTS_STEP_REFUSED 1 (by decide)).reply ..⟩

theorem does_ppsInEdge_of_selected {rising : Bool} (frac : Fin 25) (hu : s.dev.up 1 = true)
    (hen : s.dev.rd TREF_CTRL_PPS_IN_EN = 1) (hedge : s.dev.rd TREF_CTRL_EDGE = if rising then 0 else 1) :
    Does (.ppsInEdge rising frac) s fun t => t.tb.cap = s.dev.now ∧ t.tb.capFrac = frac ∧ t.rd TREF_EVENTS_PPS = 1 ∧
      Keeps s.dev t [TREF_EVENTS] := by
  refine .of_onDev (f := (·.ppsIn rising frac)) rfl ?_
  rw [Dev.ppsIn_of_selected hu hen hedge]
  exact ⟨rfl, rfl, Dev.rd_wr _ _ _ (by decide), ((Keeps.refl s.dev _).onTb _).wr TREF_EVENTS_PPS 1 (by decide)⟩

theorem does_ppsOutPulse_of_due (hu : s.dev.up 1 = true) (hen : s.dev.rd TREF_CTRL_PPS_OUT_EN = 1)
    (hc : ((s.dev.now : Int) - (s.dev.rd TREF_PPS_OUT_PHASE_PHASE : Nat)) % (s.dev.ppsPeriod : Int) = 0) :
    Does .ppsOutPulse s fun t => t.tb.ppsOut = true ∧
      t.tb.ppsEnd = tsAdd s.dev.now (min (8 * s.dev.rd TREF_PPS_OUT_WIDTH_WIDTH_US) (s.dev.ppsPeriod / 2) : Nat) ∧
      Keeps s.dev t [] := by
  refine .of_onDev rfl ?_
  rw [Dev.ppsRise_of_due hu hen hc]
  exact ⟨rfl, rfl, (Keeps.refl s.dev []).onTb _⟩

theorem does_ppsOutWidthEnd_of_ended (h : tsLe s.dev.tb.ppsEnd s.dev.now = true) :
    Does .ppsOutWidthEnd s fun t => t.tb.ppsOut = false ∧ Keeps s.dev t [] := by
  refine .of_onDev rfl ?_
  rw [Dev.ppsFall_of_ended h]
  exact ⟨rfl, (Keeps.refl s.dev []).onTb _⟩

end Commands

/-- Settles O13, command by command; a command whose condition does not hold leaves the device as it was. -/
theorem phaseStepAndPulses : Obligations.PhaseStepAndPulses := by
  unfold Obligations.PhaseStepAndPulses
  constructor
  · intro s ini v
    exact ⟨does_trefPhaseAdjWrite v, does_slewDone, fun h => .of_onDev rfl (Dev.slewUsed_of_onSlow h),
      does_trefStep_of_stopped v, does_trefStep_of_running v⟩
  · intro s
    exact ⟨fun _ frac => does_ppsInEdge_of_selected frac, fun _ _ h => .of_onDev rfl (Dev.ppsIn_of_disabled h _ _),
      does_ppsOutPulse_of_due, fun h => .of_onDev rfl (Dev.ppsRise_of_disabled h),
      does_ppsOutWidthEnd_of_ended, fun h => .of_onDev rfl (Dev.ppsFall_of_lasting h)⟩

end Sys2Proof.Machine
end
